-- ==== Sys2Proof/Word.lean ====
section
/-! DEFINITION. The words of the KX1536 and their plainest arithmetic (R4, R5, R31). -/

namespace Sys2Proof

/-- One byte (R5). -/
abbrev Byte := BitVec 8
/-- One instruction word, or any 32-bit value (R31). -/
abbrev Word := BitVec 32
/-- The value of a scalar register, a counter or a CSR (R8). -/
abbrev DWord := BitVec 64
/-- One 256-byte tile row or B-slot column or sidecar, byte 0 in the low bits (R5, R11). -/
abbrev Row := BitVec 2048
/-- The 4-bit clock tag of a register (R10). -/
abbrev Tag := BitVec 4

/-- Bits [lo + n - 1 : lo] of a number, as a bit vector. -/
def bits (w lo n : Nat) : BitVec n := BitVec.ofNat n (w / 2 ^ lo)

/-- Bits [lo + n - 1 : lo] of a number, as a number. -/
def fld (w lo n : Nat) : Nat := w / 2 ^ lo % 2 ^ n

end Sys2Proof
end

