-- ==== Sys2Proof/Syntax.lean ====
section
/-! DEFINITION. The instructions of the KX1536: one constructor per row of the opcode table. The words carry
the fields of their encoding (R37); the events, which have no encoding, carry the numbers that name what they act on. -/

namespace Sys2Proof

/-- Every row of the opcode table: the 219 instruction words, then the 68 events. A word's fields stand in the order
of its encoding, high bits first; a literal-taking word (R35) carries its literal last. -/
inductive Instr where
  -- Class 0, scalar register (R56, R57)
  | add (d : BitVec 6) (a : BitVec 6) (b : BitVec 6)
  | sub (d : BitVec 6) (a : BitVec 6) (b : BitVec 6)
  | mul (d : BitVec 6) (a : BitVec 6) (b : BitVec 6)
  | mulh (d : BitVec 6) (a : BitVec 6) (b : BitVec 6)
  | mulhu (d : BitVec 6) (a : BitVec 6) (b : BitVec 6)
  | div (d : BitVec 6) (a : BitVec 6) (b : BitVec 6)
  | divu (d : BitVec 6) (a : BitVec 6) (b : BitVec 6)
  | rem (d : BitVec 6) (a : BitVec 6) (b : BitVec 6)
  | remu (d : BitVec 6) (a : BitVec 6) (b : BitVec 6)
  | andS (d : BitVec 6) (a : BitVec 6) (b : BitVec 6)
  | orS (d : BitVec 6) (a : BitVec 6) (b : BitVec 6)
  | xorS (d : BitVec 6) (a : BitVec 6) (b : BitVec 6)
  | andn (d : BitVec 6) (a : BitVec 6) (b : BitVec 6)
  | shl (d : BitVec 6) (a : BitVec 6) (b : BitVec 6)
  | shr (d : BitVec 6) (a : BitVec 6) (b : BitVec 6)
  | sra (d : BitVec 6) (a : BitVec 6) (b : BitVec 6)
  | rot (d : BitVec 6) (a : BitVec 6) (b : BitVec 6)
  | min (d : BitVec 6) (a : BitVec 6) (b : BitVec 6)
  | max (d : BitVec 6) (a : BitVec 6) (b : BitVec 6)
  | minu (d : BitVec 6) (a : BitVec 6) (b : BitVec 6)
  | maxu (d : BitVec 6) (a : BitVec 6) (b : BitVec 6)
  | seq (d : BitVec 6) (a : BitVec 6) (b : BitVec 6)
  | slt (d : BitVec 6) (a : BitVec 6) (b : BitVec 6)
  | sltu (d : BitVec 6) (a : BitVec 6) (b : BitVec 6)
  | sel (d : BitVec 6) (a : BitVec 6) (b : BitVec 6)
  | clz (d : BitVec 6) (a : BitVec 6)
  | ctz (d : BitVec 6) (a : BitVec 6)
  | popc (d : BitVec 6) (a : BitVec 6)
  | addsat (d : BitVec 6) (a : BitVec 6) (b : BitVec 6)
  | subsat (d : BitVec 6) (a : BitVec 6) (b : BitVec 6)
  | bext (d : BitVec 6) (a : BitVec 6) (b : BitVec 6)
  | bins (d : BitVec 6) (a : BitVec 6) (b : BitVec 6)
  -- Class 1, scalar immediate (R62)
  | addi (d : BitVec 6) (a : BitVec 6) (i : BitVec 12)
  | andi (d : BitVec 6) (a : BitVec 6) (i : BitVec 12)
  | ori (d : BitVec 6) (a : BitVec 6) (i : BitVec 12)
  | xori (d : BitVec 6) (a : BitVec 6) (i : BitVec 12)
  | shli (d : BitVec 6) (a : BitVec 6) (i : BitVec 6)
  | shri (d : BitVec 6) (a : BitVec 6) (i : BitVec 6)
  | srai (d : BitVec 6) (a : BitVec 6) (i : BitVec 6)
  | slti (d : BitVec 6) (a : BitVec 6) (i : BitVec 12)
  -- Class 2, upper immediate (R63)
  | movi (d : BitVec 6) (i : BitVec 19)
  | insh (d : BitVec 6) (i : BitVec 19)
  | inst (d : BitVec 6) (i : BitVec 13)
  | movf (d : BitVec 6) (i : BitVec 19)
  -- Class 3, control (R64)
  | idle (n : BitVec 16)
  | jmp (t : BitVec 13)
  | bnz (a : BitVec 6) (t : BitVec 13)
  | bz (a : BitVec 6) (t : BitVec 13)
  | call (t : BitVec 13)
  | loop (l : BitVec 3) (c : BitVec 12) (n : BitVec 8)
  | loops (l : BitVec 3) (a : BitVec 6) (n : BitVec 8)
  | segb (v : BitVec 3) (n : BitVec 16)
  | sege (lit : Word)
  | nexts (a : BitVec 6) (n : BitVec 5) (b : BitVec 12)
  | waits (s : BitVec 23)
  -- Class 4, scalar memory, atomics, fences and waits (R148, R156, R161)
  | ldb (d : BitVec 6) (a : BitVec 6) (o : BitVec 11)
  | ldbu (d : BitVec 6) (a : BitVec 6) (o : BitVec 11)
  | ldh (d : BitVec 6) (a : BitVec 6) (o : BitVec 11)
  | ldhu (d : BitVec 6) (a : BitVec 6) (o : BitVec 11)
  | ldw (d : BitVec 6) (a : BitVec 6) (o : BitVec 11)
  | ldwu (d : BitVec 6) (a : BitVec 6) (o : BitVec 11)
  | ldd (d : BitVec 6) (a : BitVec 6) (o : BitVec 11)
  | stb (d : BitVec 6) (a : BitVec 6) (o : BitVec 11)
  | sth (d : BitVec 6) (a : BitVec 6) (o : BitVec 11)
  | stw (d : BitVec 6) (a : BitVec 6) (o : BitVec 11)
  | std (d : BitVec 6) (a : BitVec 6) (o : BitVec 11)
  | lwait (d : BitVec 6) (l : BitVec 5)
  | aadd (d : BitVec 6) (a : BitVec 6) (b : BitVec 6)
  | aand (d : BitVec 6) (a : BitVec 6) (b : BitVec 6)
  | aor (d : BitVec 6) (a : BitVec 6) (b : BitVec 6)
  | axor (d : BitVec 6) (a : BitVec 6) (b : BitVec 6)
  | amin (d : BitVec 6) (a : BitVec 6) (b : BitVec 6)
  | amax (d : BitVec 6) (a : BitVec 6) (b : BitVec 6)
  | aminu (d : BitVec 6) (a : BitVec 6) (b : BitVec 6)
  | amaxu (d : BitVec 6) (a : BitVec 6) (b : BitVec 6)
  | aswap (d : BitVec 6) (a : BitVec 6) (b : BitVec 6)
  | acas (d : BitVec 6) (a : BitVec 6) (b : BitVec 6)
  | afadd (a : BitVec 6) (b : BitVec 6)
  | acell (a : BitVec 6) (b : BitVec 6)
  | acrd (d : BitVec 6) (a : BitVec 6)
  | acflg (d : BitVec 6) (a : BitVec 6) (b : BitVec 6)
  | mwait (d : BitVec 6) (a : BitVec 6) (b : BitVec 6) (l : BitVec 5)
  | qwait (a : BitVec 6) (l : BitVec 5)
  -- Class 5, stream and clock (R80)
  | ckdef (n : BitVec 6) (a : BitVec 7) (k : BitVec 4) (x : BitVec 4)
  | ckneg (k : BitVec 4) (x : BitVec 4)
  | when (d : BitVec 7) (a : BitVec 7) (k : BitVec 4)
  | whenT (d : BitVec 7) (a : BitVec 7) (k : BitVec 4)
  | merge (d : BitVec 7) (a : BitVec 7) (k : BitVec 4)
  | mergeT (d : BitVec 7) (a : BitVec 7) (k : BitVec 4)
  | dlyi (a : BitVec 7) (k : BitVec 4) (x : BitVec 4)
  | dlyr (d : BitVec 7) (x : BitVec 4)
  | dlyw (a : BitVec 7) (x : BitVec 4)
  | cktst (d : BitVec 7) (k : BitVec 4)
  | ckstat (d : BitVec 7) (k : BitVec 4)
  -- Class 6, recovery (R205)
  | rbegin (l : BitVec 5)
  | rpresvS (f : BitVec 6) (l : BitVec 6)
  | rpresvT (f : BitVec 7) (l : BitVec 7)
  | rpresvM (a : BitVec 6) (b : BitVec 6)
  | rpresvC (m : BitVec 8)
  | rend (l : BitVec 5)
  | rpol (a : BitVec 6)
  | safept (i : BitVec 8)
  -- Class 7, system (R212)
  | csrr (d : BitVec 6) (c : BitVec 12)
  | csrw (a : BitVec 6) (c : BitVec 12)
  | csrs (a : BitVec 6) (c : BitVec 12)
  | csrc (a : BitVec 6) (c : BitVec 12)
  | trap (c : BitVec 16)
  | brk (c : BitVec 16)
  | fidel (n : BitVec 2)
  | clkdiv (u : BitVec 2) (v : BitVec 3)
  | killc (a : BitVec 6)
  | tlblk (a : BitVec 6) (b : BitVec 6)
  -- Class 8, integer vector (R118)
  | vadd (d : BitVec 7) (a : BitVec 7) (b : BitVec 7) (t : BitVec 2)
  | vsub (d : BitVec 7) (a : BitVec 7) (b : BitVec 7) (t : BitVec 2)
  | vadds (d : BitVec 7) (a : BitVec 7) (b : BitVec 7) (t : BitVec 2)
  | vaddsu (d : BitVec 7) (a : BitVec 7) (b : BitVec 7) (t : BitVec 2)
  | vmul (d : BitVec 7) (a : BitVec 7) (b : BitVec 7) (t : BitVec 2)
  | vmulh (d : BitVec 7) (a : BitVec 7) (b : BitVec 7) (t : BitVec 2)
  | vmin (d : BitVec 7) (a : BitVec 7) (b : BitVec 7) (t : BitVec 2)
  | vmax (d : BitVec 7) (a : BitVec 7) (b : BitVec 7) (t : BitVec 2)
  | vminu (d : BitVec 7) (a : BitVec 7) (b : BitVec 7) (t : BitVec 2)
  | vmaxu (d : BitVec 7) (a : BitVec 7) (b : BitVec 7) (t : BitVec 2)
  | vand (d : BitVec 7) (a : BitVec 7) (b : BitVec 7) (t : BitVec 2)
  | vor (d : BitVec 7) (a : BitVec 7) (b : BitVec 7) (t : BitVec 2)
  | vxor (d : BitVec 7) (a : BitVec 7) (b : BitVec 7) (t : BitVec 2)
  | vshl (d : BitVec 7) (a : BitVec 7) (b : BitVec 7) (t : BitVec 2)
  | vshr (d : BitVec 7) (a : BitVec 7) (b : BitVec 7) (t : BitVec 2)
  | vsra (d : BitVec 7) (a : BitVec 7) (b : BitVec 7) (t : BitVec 2)
  -- Class 9, floating vector (R119)
  | vfadd (d : BitVec 7) (a : BitVec 7) (b : BitVec 7) (t : BitVec 2)
  | vfsub (d : BitVec 7) (a : BitVec 7) (b : BitVec 7) (t : BitVec 2)
  | vfmul (d : BitVec 7) (a : BitVec 7) (b : BitVec 7) (t : BitVec 2)
  | vfma (d : BitVec 7) (a : BitVec 7) (b : BitVec 7) (t : BitVec 2)
  | vfmin (d : BitVec 7) (a : BitVec 7) (b : BitVec 7) (t : BitVec 2)
  | vfmax (d : BitVec 7) (a : BitVec 7) (b : BitVec 7) (t : BitVec 2)
  | vfabs (d : BitVec 7) (a : BitVec 7) (t : BitVec 2)
  | vfneg (d : BitVec 7) (a : BitVec 7) (t : BitVec 2)
  | vfrcp (d : BitVec 7) (a : BitVec 7) (t : BitVec 2)
  | vfrsq (d : BitVec 7) (a : BitVec 7) (t : BitVec 2)
  | vfexp2 (d : BitVec 7) (a : BitVec 7) (t : BitVec 2)
  | vflog2 (d : BitVec 7) (a : BitVec 7) (t : BitVec 2)
  | vfrsum (d : BitVec 7) (a : BitVec 7) (t : BitVec 2)
  | vfrmax (d : BitVec 7) (a : BitVec 7) (t : BitVec 2)
  | vfscl (d : BitVec 7) (a : BitVec 7) (b : BitVec 7) (t : BitVec 2)
  | vfcpy (d : BitVec 7) (a : BitVec 7) (b : BitVec 7) (t : BitVec 2)
  -- Class 10, conversion and movement (R121-R128)
  | vcvt (d : BitVec 7) (a : BitVec 7) (g : BitVec 4) (r : BitVec 2) (s : BitVec 1)
  | vexp (d : BitVec 7) (a : BitVec 7) (f : BitVec 1)
  | vmxs (d : BitVec 7) (a : BitVec 7)
  | vcmpeq (d : BitVec 7) (a : BitVec 7) (b : BitVec 7)
  | vcmplt (d : BitVec 7) (a : BitVec 7) (b : BitVec 7)
  | vcmple (d : BitVec 7) (a : BitVec 7) (b : BitVec 7)
  | vfcmpeq (d : BitVec 7) (a : BitVec 7) (b : BitVec 7)
  | vfcmplt (d : BitVec 7) (a : BitVec 7) (b : BitVec 7)
  | vfcmple (d : BitVec 7) (a : BitVec 7) (b : BitVec 7)
  | vsel (d : BitVec 7) (a : BitVec 7) (b : BitVec 7)
  | vtrn (d : BitVec 7) (a : BitVec 7)
  | vbcr (d : BitVec 7) (a : BitVec 7) (b : BitVec 7)
  | vshuf (d : BitVec 7) (a : BitVec 7) (b : BitVec 7)
  | vmov (d : BitVec 7) (a : BitVec 7)
  | vrot (d : BitVec 7) (a : BitVec 7) (b : BitVec 7)
  | vpck (d : BitVec 7) (a : BitVec 7) (b : BitVec 7)
  | vupk (d : BitVec 7) (a : BitVec 7)
  | viota (d : BitVec 7)
  | vget (d : BitVec 7) (a : BitVec 7) (b : BitVec 7)
  | vput (d : BitVec 7) (a : BitVec 7) (b : BitVec 7)
  | vsete (d : BitVec 7) (v : BitVec 7)
  -- Class 11, tile memory and tag table (R166)
  | tld (t : BitVec 7) (a : BitVec 6) (o : BitVec 10)
  | tst (t : BitVec 7) (a : BitVec 6) (o : BitVec 10)
  | tlds (t : BitVec 7) (a : BitVec 6) (o : BitVec 10)
  | tsts (t : BitVec 7) (a : BitVec 6) (o : BitVec 10)
  | tstm (t : BitVec 7) (a : BitVec 6) (m : BitVec 6)
  | tlook (d : BitVec 7) (a : BitVec 6)
  | tins (d : BitVec 7) (a : BitVec 6) (b : BitVec 6)
  | tevt (d : BitVec 7) (a : BitVec 6)
  | tagrd (d : BitVec 7) (a : BitVec 6)
  -- Class 12, matrix (R130)
  | mma (c : BitVec 3) (a : BitVec 7) (b : BitVec 4) (s : BitVec 5) (z : BitVec 1) (x : BitVec 1) (m : BitVec 3)
  | mldb (a : BitVec 7) (b : BitVec 4) (s : BitVec 5) (z : BitVec 1) (x : BitVec 1)
  | mdrn (c : BitVec 3) (d : BitVec 7) (q : BitVec 3) (s : BitVec 5)
  | mzero (c : BitVec 3) (k : BitVec 4) (m : BitVec 3)
  | mfmt (n : BitVec 4) (a : BitVec 6)
  | mhst (b : BitVec 2)
  -- Class 13, copies and stage barriers (R186)
  | cpt (a : BitVec 6) (b : BitVec 6) (s : BitVec 4) (g : BitVec 1) (h : BitVec 1)
  | cpa (a : BitVec 6) (b : BitVec 6) (s : BitVec 4) (g : BitVec 1) (h : BitVec 1)
  | cpm (a : BitVec 6) (b : BitVec 6) (s : BitVec 4) (g : BitVec 1)
  | cpl (a : BitVec 6) (b : BitVec 6) (l : BitVec 12)
  | cpk (a : BitVec 6) (b : BitVec 6) (s : BitVec 4) (g : BitVec 1) (h : BitVec 1)
  | sbini (a : BitVec 6) (s : BitVec 4)
  | sbarr (a : BitVec 6) (s : BitVec 4)
  | sbwt (s : BitVec 4) (l : BitVec 5) (p : BitVec 1)
  -- Class 14, engine queues (R177)
  | run (g : BitVec 2) (b : BitVec 10) (c : BitVec 8)
  | runs (g : BitVec 2) (b : BitVec 10) (c : BitVec 8) (lit : Word)
  | loopb (g : BitVec 2) (a : BitVec 6) (n : BitVec 15) (lit : Word)
  | pace (g : BitVec 2) (p : BitVec 8)
  | sigt (t : BitVec 5)
  | waitt (l : BitVec 5) (t : BitVec 5)
  | guard (g : BitVec 2) (p : BitVec 4) (h : BitVec 1) (w : BitVec 5) (v : BitVec 1) (s : BitVec 5) (u : BitVec 1)
  | pset (p : BitVec 4) (a : BitVec 6)
  | pinv (p : BitVec 4)
  | qdrn (g : BitVec 2) (l : BitVec 5)
  | qseq (g : BitVec 2) (d : BitVec 6) (s : BitVec 1)
  | tblw (g : BitVec 2) (a : BitVec 6) (b : BitVec 6)
  -- Class 15, fabric (R198)
  | lsend (r : BitVec 2) (a : BitVec 6)
  | lrecv (r : BitVec 2) (d : BitVec 6)
  | bar (b : BitVec 3)
  | barw (b : BitVec 3) (l : BitVec 5)
  | chwr (c : BitVec 8) (a : BitVec 6)
  | chrd (c : BitVec 8) (d : BitVec 6) (k : BitVec 4)
  | chpop (c : BitVec 8)
  | nodeq (a : BitVec 6)
  | glnch (a : BitVec 6)
  -- Events that name a place (R173-R360): numbers name contexts, ports, handles and registers
  | timedCopyPerform (serial : Nat)
  | multicastPerform (serial : Nat)
  | cplPerform (serial : Nat)
  | sequenceStampPerform (serial : Nat)
  | barrierRelease (tag : Nat)
  | tlbWalkComplete (die : Nat) (ctx : Nat) (va : Nat)
  | tlbInvalidate (ctx : Nat) (va : Nat)
  | nodeReady (gid : Nat) (node : Nat)
  | gangLaunch (gid : Nat) (node : Nat)
  | powerStateChange (ps : Bool) (reasons : Nat)
  | thrrsn (v : DWord)
  | enlo (d : Nat)
  | errinj (v : DWord)
  | undoa (v : DWord)
  | errcnt (n : Nat) (v : DWord)
  | quota (v : DWord)
  | powercap (v : DWord)
  | resetreq (v : DWord)
  | fwctl (v : DWord)
  | hopen (h : Nat) (v : DWord)
  | hflags (h : Nat) (v : DWord)
  | submit (h : Nat) (v : DWord)
  | kill (h : Nat) (v : DWord)
  | hcmdMap (h : Nat) (blk : Nat)
  | hcmdUnmap (h : Nat) (blk : Nat)
  | hcmdAllocateMap (h : Nat) (blk : Nat)
  | hcmdRegisterKey (h : Nat) (blk : Nat)
  | registerWrite (off : Nat) (v : DWord)
  | hostMemoryAccess (off : Nat) (len : Nat) (wr : Bool) (data : Nat)
  | linkTraining (port : Nat) (lo : Nat) (hi : Nat)
  -- ends: the destination module and the source module
  | flitReceive (port : Nat) (ends : Nat × Nat) (kind : Nat) (seq : Nat) (addr : Nat) (len : Nat) (data : Nat) (crcOk : Bool)
  | routeDown (peer : Nat)
  | ptmExchange (host : Nat)
  -- nodeRec: the handle and the address of the node record
  | stampGloballyVisible (nodeRec : Nat × Nat)
  | routingTableWrite (peer : Nat) (port : Nat)
  -- Words without an operand
  | ret
  | endi
  | kend
  | fenceAcq
  | fenceRel
  | fenceFull
  | fenceAlias
  | rabort
  | tret
  | haltg
  -- Events of the core, engine or region a step acts for (State.cur, State.actor), or of the whole package
  | heldBundleIssue
  | waitEnd
  | waitexp
  | queueEntryStart
  | entryCompletion
  | untimedResultLand
  | instantStart
  | instantCommit
  | swapComplete
  | preemptResume
  | stagedWriteApply
  | recoveryRegionOpen
  | recoveryRegionClose
  | freeze
  | regionStop
  | rollbackRestart
  | nodeRequeue
  | killDrainComplete
  | killDrainTimeout
  | heartbeatMissed
  | quantumExpiry
  | graphCheck
  | nodeCompletion
  | coalescingWindowClose
  | powerDeadlineExpiry
  | twilightWindowEnd
  | energyUpdate
  | pwrack
  | firmwareHeartbeat
  | updateHeartbeatTimeout
  | getMeasurements
  | dawn
  | updateSignatureCheck
  deriving DecidableEq, Repr

/-- The instruction is a word of the control stream or of a micro-order table, and not an event. -/
def Instr.isWord : Instr → Bool
  | .heldBundleIssue => false
  | .waitEnd => false
  | .waitexp => false
  | .queueEntryStart => false
  | .entryCompletion => false
  | .untimedResultLand => false
  | .timedCopyPerform _ => false
  | .multicastPerform _ => false
  | .cplPerform _ => false
  | .sequenceStampPerform _ => false
  | .instantStart => false
  | .instantCommit => false
  | .swapComplete => false
  | .preemptResume => false
  | .stagedWriteApply => false
  | .barrierRelease _ => false
  | .recoveryRegionOpen => false
  | .recoveryRegionClose => false
  | .tlbWalkComplete _ _ _ => false
  | .tlbInvalidate _ _ => false
  | .freeze => false
  | .regionStop => false
  | .rollbackRestart => false
  | .nodeRequeue => false
  | .killDrainComplete => false
  | .killDrainTimeout => false
  | .heartbeatMissed => false
  | .quantumExpiry => false
  | .graphCheck => false
  | .nodeReady _ _ => false
  | .gangLaunch _ _ => false
  | .nodeCompletion => false
  | .coalescingWindowClose => false
  | .powerStateChange _ _ => false
  | .powerDeadlineExpiry => false
  | .twilightWindowEnd => false
  | .energyUpdate => false
  | .thrrsn _ => false
  | .enlo _ => false
  | .pwrack => false
  | .errinj _ => false
  | .undoa _ => false
  | .errcnt _ _ => false
  | .quota _ => false
  | .powercap _ => false
  | .resetreq _ => false
  | .fwctl _ => false
  | .firmwareHeartbeat => false
  | .updateHeartbeatTimeout => false
  | .hopen _ _ => false
  | .hflags _ _ => false
  | .submit _ _ => false
  | .kill _ _ => false
  | .hcmdMap _ _ => false
  | .hcmdUnmap _ _ => false
  | .hcmdAllocateMap _ _ => false
  | .hcmdRegisterKey _ _ => false
  | .registerWrite _ _ => false
  | .hostMemoryAccess _ _ _ _ => false
  | .getMeasurements => false
  | .linkTraining _ _ _ => false
  | .flitReceive _ _ _ _ _ _ _ _ => false
  | .routeDown _ => false
  | .ptmExchange _ => false
  | .dawn => false
  | .stampGloballyVisible _ => false
  | .updateSignatureCheck => false
  | .routingTableWrite _ _ => false
  | .add _ _ _ => true
  | .sub _ _ _ => true
  | .mul _ _ _ => true
  | .mulh _ _ _ => true
  | .mulhu _ _ _ => true
  | .div _ _ _ => true
  | .divu _ _ _ => true
  | .rem _ _ _ => true
  | .remu _ _ _ => true
  | .andS _ _ _ => true
  | .orS _ _ _ => true
  | .xorS _ _ _ => true
  | .andn _ _ _ => true
  | .shl _ _ _ => true
  | .shr _ _ _ => true
  | .sra _ _ _ => true
  | .rot _ _ _ => true
  | .min _ _ _ => true
  | .max _ _ _ => true
  | .minu _ _ _ => true
  | .maxu _ _ _ => true
  | .seq _ _ _ => true
  | .slt _ _ _ => true
  | .sltu _ _ _ => true
  | .sel _ _ _ => true
  | .clz _ _ => true
  | .ctz _ _ => true
  | .popc _ _ => true
  | .addsat _ _ _ => true
  | .subsat _ _ _ => true
  | .bext _ _ _ => true
  | .bins _ _ _ => true
  | .addi _ _ _ => true
  | .andi _ _ _ => true
  | .ori _ _ _ => true
  | .xori _ _ _ => true
  | .shli _ _ _ => true
  | .shri _ _ _ => true
  | .srai _ _ _ => true
  | .slti _ _ _ => true
  | .movi _ _ => true
  | .insh _ _ => true
  | .inst _ _ => true
  | .movf _ _ => true
  | .idle _ => true
  | .jmp _ => true
  | .bnz _ _ => true
  | .bz _ _ => true
  | .call _ => true
  | .ret => true
  | .loop _ _ _ => true
  | .loops _ _ _ => true
  | .segb _ _ => true
  | .sege _ => true
  | .endi => true
  | .kend => true
  | .nexts _ _ _ => true
  | .waits _ => true
  | .ldb _ _ _ => true
  | .ldbu _ _ _ => true
  | .ldh _ _ _ => true
  | .ldhu _ _ _ => true
  | .ldw _ _ _ => true
  | .ldwu _ _ _ => true
  | .ldd _ _ _ => true
  | .stb _ _ _ => true
  | .sth _ _ _ => true
  | .stw _ _ _ => true
  | .std _ _ _ => true
  | .lwait _ _ => true
  | .aadd _ _ _ => true
  | .aand _ _ _ => true
  | .aor _ _ _ => true
  | .axor _ _ _ => true
  | .amin _ _ _ => true
  | .amax _ _ _ => true
  | .aminu _ _ _ => true
  | .amaxu _ _ _ => true
  | .aswap _ _ _ => true
  | .acas _ _ _ => true
  | .afadd _ _ => true
  | .acell _ _ => true
  | .acrd _ _ => true
  | .acflg _ _ _ => true
  | .fenceAcq => true
  | .fenceRel => true
  | .fenceFull => true
  | .fenceAlias => true
  | .mwait _ _ _ _ => true
  | .qwait _ _ => true
  | .ckdef _ _ _ _ => true
  | .ckneg _ _ => true
  | .when _ _ _ => true
  | .whenT _ _ _ => true
  | .merge _ _ _ => true
  | .mergeT _ _ _ => true
  | .dlyi _ _ _ => true
  | .dlyr _ _ => true
  | .dlyw _ _ => true
  | .cktst _ _ => true
  | .ckstat _ _ => true
  | .rbegin _ => true
  | .rpresvS _ _ => true
  | .rpresvT _ _ => true
  | .rpresvM _ _ => true
  | .rpresvC _ => true
  | .rend _ => true
  | .rabort => true
  | .rpol _ => true
  | .safept _ => true
  | .csrr _ _ => true
  | .csrw _ _ => true
  | .csrs _ _ => true
  | .csrc _ _ => true
  | .trap _ => true
  | .tret => true
  | .brk _ => true
  | .fidel _ => true
  | .clkdiv _ _ => true
  | .haltg => true
  | .killc _ => true
  | .tlblk _ _ => true
  | .vadd _ _ _ _ => true
  | .vsub _ _ _ _ => true
  | .vadds _ _ _ _ => true
  | .vaddsu _ _ _ _ => true
  | .vmul _ _ _ _ => true
  | .vmulh _ _ _ _ => true
  | .vmin _ _ _ _ => true
  | .vmax _ _ _ _ => true
  | .vminu _ _ _ _ => true
  | .vmaxu _ _ _ _ => true
  | .vand _ _ _ _ => true
  | .vor _ _ _ _ => true
  | .vxor _ _ _ _ => true
  | .vshl _ _ _ _ => true
  | .vshr _ _ _ _ => true
  | .vsra _ _ _ _ => true
  | .vfadd _ _ _ _ => true
  | .vfsub _ _ _ _ => true
  | .vfmul _ _ _ _ => true
  | .vfma _ _ _ _ => true
  | .vfmin _ _ _ _ => true
  | .vfmax _ _ _ _ => true
  | .vfabs _ _ _ => true
  | .vfneg _ _ _ => true
  | .vfrcp _ _ _ => true
  | .vfrsq _ _ _ => true
  | .vfexp2 _ _ _ => true
  | .vflog2 _ _ _ => true
  | .vfrsum _ _ _ => true
  | .vfrmax _ _ _ => true
  | .vfscl _ _ _ _ => true
  | .vfcpy _ _ _ _ => true
  | .vcvt _ _ _ _ _ => true
  | .vexp _ _ _ => true
  | .vmxs _ _ => true
  | .vcmpeq _ _ _ => true
  | .vcmplt _ _ _ => true
  | .vcmple _ _ _ => true
  | .vfcmpeq _ _ _ => true
  | .vfcmplt _ _ _ => true
  | .vfcmple _ _ _ => true
  | .vsel _ _ _ => true
  | .vtrn _ _ => true
  | .vbcr _ _ _ => true
  | .vshuf _ _ _ => true
  | .vmov _ _ => true
  | .vrot _ _ _ => true
  | .vpck _ _ _ => true
  | .vupk _ _ => true
  | .viota _ => true
  | .vget _ _ _ => true
  | .vput _ _ _ => true
  | .vsete _ _ => true
  | .tld _ _ _ => true
  | .tst _ _ _ => true
  | .tlds _ _ _ => true
  | .tsts _ _ _ => true
  | .tstm _ _ _ => true
  | .tlook _ _ => true
  | .tins _ _ _ => true
  | .tevt _ _ => true
  | .tagrd _ _ => true
  | .mma _ _ _ _ _ _ _ => true
  | .mldb _ _ _ _ _ => true
  | .mdrn _ _ _ _ => true
  | .mzero _ _ _ => true
  | .mfmt _ _ => true
  | .mhst _ => true
  | .cpt _ _ _ _ _ => true
  | .cpa _ _ _ _ _ => true
  | .cpm _ _ _ _ => true
  | .cpl _ _ _ => true
  | .cpk _ _ _ _ _ => true
  | .sbini _ _ => true
  | .sbarr _ _ => true
  | .sbwt _ _ _ => true
  | .run _ _ _ => true
  | .runs _ _ _ _ => true
  | .loopb _ _ _ _ => true
  | .pace _ _ => true
  | .sigt _ => true
  | .waitt _ _ => true
  | .guard _ _ _ _ _ _ _ => true
  | .pset _ _ => true
  | .pinv _ => true
  | .qdrn _ _ => true
  | .qseq _ _ _ => true
  | .tblw _ _ _ => true
  | .lsend _ _ => true
  | .lrecv _ _ => true
  | .bar _ => true
  | .barw _ _ => true
  | .chwr _ _ => true
  | .chrd _ _ _ => true
  | .chpop _ => true
  | .nodeq _ => true
  | .glnch _ => true

end Sys2Proof
end

