-- ==== Sys2Proof/WellFormed.lean ====
section
/-! DEFINITION. The limits that an instruction's own fields must keep (R38, R41): a word that breaks one raises ILLEGAL. -/

namespace Sys2Proof

/-- The field limits of each word's entry: register fields within the register file they name (R38), and the limits of
R64, R119, R121, R127, R128, R177 and R205. An event has no encoded field and keeps them always. -/
def Instr.wellFormed : Instr → Bool
  | .add _ _ _ => true
  | .sub _ _ _ => true
  | .mul _ _ _ => true
  | .mulh _ _ _ => true
  | .mulhu _ _ _ => true
  | .div _ _ _ => true
  | .divu _ _ _ => true
  | .rem _ _ _ => true
  | .remu _ _ _ => true
  | .andS _ _ _ => true
  | .orS _ _ _ => true
  | .xorS _ _ _ => true
  | .andn _ _ _ => true
  | .shl _ _ _ => true
  | .shr _ _ _ => true
  | .sra _ _ _ => true
  | .rot _ _ _ => true
  | .min _ _ _ => true
  | .max _ _ _ => true
  | .minu _ _ _ => true
  | .maxu _ _ _ => true
  | .seq _ _ _ => true
  | .slt _ _ _ => true
  | .sltu _ _ _ => true
  | .sel _ _ _ => true
  | .clz _ _ => true
  | .ctz _ _ => true
  | .popc _ _ => true
  | .addsat _ _ _ => true
  | .subsat _ _ _ => true
  | .bext _ _ _ => true
  | .bins _ _ _ => true
  | .addi _ _ _ => true
  | .andi _ _ _ => true
  | .ori _ _ _ => true
  | .xori _ _ _ => true
  | .shli _ _ _ => true
  | .shri _ _ _ => true
  | .srai _ _ _ => true
  | .slti _ _ _ => true
  | .movi _ _ => true
  | .insh _ _ => true
  | .inst _ _ => true
  | .movf _ _ => true
  | .idle n => decide (n ≠ 0)
  | .jmp _ => true
  | .bnz _ _ => true
  | .bz _ _ => true
  | .call _ => true
  | .ret => true
  | .loop l _ n => decide (l.toNat < 6 ∧ n ≠ 0)
  | .loops l _ n => decide (l.toNat < 6 ∧ n ≠ 0)
  | .segb _ n => decide (2 ≤ n.toNat)
  | .sege _ => true
  | .endi => true
  | .kend => true
  | .nexts _ n _ => decide (n ≠ 0)
  | .waits _ => true
  | .ldb _ _ _ => true
  | .ldbu _ _ _ => true
  | .ldh _ _ _ => true
  | .ldhu _ _ _ => true
  | .ldw _ _ _ => true
  | .ldwu _ _ _ => true
  | .ldd _ _ _ => true
  | .stb _ _ _ => true
  | .sth _ _ _ => true
  | .stw _ _ _ => true
  | .std _ _ _ => true
  | .lwait _ _ => true
  | .aadd _ _ _ => true
  | .aand _ _ _ => true
  | .aor _ _ _ => true
  | .axor _ _ _ => true
  | .amin _ _ _ => true
  | .amax _ _ _ => true
  | .aminu _ _ _ => true
  | .amaxu _ _ _ => true
  | .aswap _ _ _ => true
  | .acas _ _ _ => true
  | .afadd _ _ => true
  | .acell _ _ => true
  | .acrd _ _ => true
  | .acflg _ _ _ => true
  | .fenceAcq => true
  | .fenceRel => true
  | .fenceFull => true
  | .fenceAlias => true
  | .mwait _ _ _ _ => true
  | .qwait _ _ => true
  | .ckdef _ a _ _ => decide (a.toNat < 64)
  | .ckneg _ _ => true
  | .when d a _ => decide (d.toNat < 64 ∧ a.toNat < 64)
  | .whenT d a _ => decide (d.toNat < 96 ∧ a.toNat < 96)
  | .merge d a _ => decide (d.toNat < 64 ∧ a.toNat < 64)
  | .mergeT d a _ => decide (d.toNat < 96 ∧ a.toNat < 96)
  | .dlyi a _ _ => decide (a.toNat < 64)
  | .dlyr d _ => decide (d.toNat < 64)
  | .dlyw a _ => decide (a.toNat < 64)
  | .cktst d _ => decide (d.toNat < 64)
  | .ckstat d _ => decide (d.toNat < 64)
  | .rbegin _ => true
  | .rpresvS f l => decide (f.toNat ≤ l.toNat)
  | .rpresvT f l => decide (f.toNat ≤ l.toNat ∧ l.toNat < 96)
  | .rpresvM _ _ => true
  | .rpresvC _ => true
  | .rend _ => true
  | .rabort => true
  | .rpol _ => true
  | .safept _ => true
  | .csrr _ _ => true
  | .csrw _ _ => true
  | .csrs _ _ => true
  | .csrc _ _ => true
  | .trap _ => true
  | .tret => true
  | .brk _ => true
  | .fidel _ => true
  | .clkdiv _ _ => true
  | .haltg => true
  | .killc _ => true
  | .tlblk _ _ => true
  | .vadd d a _ _ => decide (d.toNat < 96 ∧ a.toNat < 96)
  | .vsub d a _ _ => decide (d.toNat < 96 ∧ a.toNat < 96)
  | .vadds d a _ _ => decide (d.toNat < 96 ∧ a.toNat < 96)
  | .vaddsu d a _ _ => decide (d.toNat < 96 ∧ a.toNat < 96)
  | .vmul d a _ _ => decide (d.toNat < 96 ∧ a.toNat < 96)
  | .vmulh d a _ _ => decide (d.toNat < 96 ∧ a.toNat < 96)
  | .vmin d a _ _ => decide (d.toNat < 96 ∧ a.toNat < 96)
  | .vmax d a _ _ => decide (d.toNat < 96 ∧ a.toNat < 96)
  | .vminu d a _ _ => decide (d.toNat < 96 ∧ a.toNat < 96)
  | .vmaxu d a _ _ => decide (d.toNat < 96 ∧ a.toNat < 96)
  | .vand d a _ _ => decide (d.toNat < 96 ∧ a.toNat < 96)
  | .vor d a _ _ => decide (d.toNat < 96 ∧ a.toNat < 96)
  | .vxor d a _ _ => decide (d.toNat < 96 ∧ a.toNat < 96)
  | .vshl d a _ _ => decide (d.toNat < 96 ∧ a.toNat < 96)
  | .vshr d a _ _ => decide (d.toNat < 96 ∧ a.toNat < 96)
  | .vsra d a _ _ => decide (d.toNat < 96 ∧ a.toNat < 96)
  | .vfadd d a _ t => decide (d.toNat < 96 ∧ a.toNat < 96 ∧ t ≠ 3)
  | .vfsub d a _ t => decide (d.toNat < 96 ∧ a.toNat < 96 ∧ t ≠ 3)
  | .vfmul d a _ t => decide (d.toNat < 96 ∧ a.toNat < 96 ∧ t ≠ 3)
  | .vfma d a _ t => decide (d.toNat < 96 ∧ a.toNat < 96 ∧ t ≠ 3)
  | .vfmin d a _ t => decide (d.toNat < 96 ∧ a.toNat < 96 ∧ t ≠ 3)
  | .vfmax d a _ t => decide (d.toNat < 96 ∧ a.toNat < 96 ∧ t ≠ 3)
  | .vfabs d a t => decide (d.toNat < 96 ∧ a.toNat < 96 ∧ t ≠ 3)
  | .vfneg d a t => decide (d.toNat < 96 ∧ a.toNat < 96 ∧ t ≠ 3)
  | .vfrcp d a t => decide (d.toNat < 96 ∧ a.toNat < 96 ∧ t ≠ 3)
  | .vfrsq d a t => decide (d.toNat < 96 ∧ a.toNat < 96 ∧ t ≠ 3)
  | .vfexp2 d a t => decide (d.toNat < 96 ∧ a.toNat < 96 ∧ t ≠ 3)
  | .vflog2 d a t => decide (d.toNat < 96 ∧ a.toNat < 96 ∧ t ≠ 3)
  | .vfrsum d a t => decide (d.toNat < 96 ∧ a.toNat < 96 ∧ t ≠ 3)
  | .vfrmax d a t => decide (d.toNat < 96 ∧ a.toNat < 96 ∧ t ≠ 3)
  | .vfscl d a _ t => decide (d.toNat < 96 ∧ a.toNat < 96 ∧ t ≠ 3)
  | .vfcpy d a _ t => decide (d.toNat < 96 ∧ a.toNat < 96 ∧ t ≠ 3)
  | .vcvt d a g _ _ => decide (d.toNat < 96 ∧ a.toNat < 96 ∧ (g.toNat ≤ 8 ∨ g.toNat = 11))
  | .vexp d a _ => decide (d.toNat < 96 ∧ a.toNat < 96)
  | .vmxs d a => decide (d.toNat < 96 ∧ a.toNat < 96)
  | .vcmpeq d a _ => decide (d.toNat < 96 ∧ a.toNat < 96)
  | .vcmplt d a _ => decide (d.toNat < 96 ∧ a.toNat < 96)
  | .vcmple d a _ => decide (d.toNat < 96 ∧ a.toNat < 96)
  | .vfcmpeq d a _ => decide (d.toNat < 96 ∧ a.toNat < 96)
  | .vfcmplt d a _ => decide (d.toNat < 96 ∧ a.toNat < 96)
  | .vfcmple d a _ => decide (d.toNat < 96 ∧ a.toNat < 96)
  | .vsel d a _ => decide (d.toNat < 96 ∧ a.toNat < 96)
  | .vtrn d a => decide (d.toNat < 96 ∧ a.toNat < 96)
  | .vbcr d a b => decide (d.toNat < 96 ∧ a.toNat < 96 ∧ 96 ≤ b.toNat)
  | .vshuf d a _ => decide (d.toNat < 96 ∧ a.toNat < 96)
  | .vmov d a => decide (d.toNat < 96 ∧ a.toNat < 96)
  | .vrot d a b => decide (d.toNat < 96 ∧ a.toNat < 96 ∧ 96 ≤ b.toNat)
  | .vpck d a _ => decide (d.toNat < 96 ∧ a.toNat < 96)
  | .vupk d a => decide (d.toNat < 96 ∧ a.toNat < 96)
  | .viota d => decide (d.toNat < 96)
  | .vget d a b => decide (d.toNat < 64 ∧ a.toNat < 96 ∧ 96 ≤ b.toNat)
  | .vput d a b => decide (d.toNat < 96 ∧ a.toNat < 64 ∧ 96 ≤ b.toNat)
  | .vsete d v => decide (d.toNat < 96 ∧ v.toNat ≤ 1)
  | .tld t _ _ => decide (t.toNat < 96)
  | .tst t _ _ => decide (t.toNat < 96)
  | .tlds t _ _ => decide (t.toNat < 96)
  | .tsts t _ _ => decide (t.toNat < 96)
  | .tstm t _ _ => decide (t.toNat < 96)
  | .tlook d _ => decide (d.toNat < 64)
  | .tins d _ _ => decide (d.toNat < 64)
  | .tevt d _ => decide (d.toNat < 64)
  | .tagrd d _ => decide (d.toNat < 64)
  | .mma _ a _ _ _ _ _ => decide (a.toNat < 96)
  | .mldb a _ _ _ _ => decide (a.toNat < 96)
  | .mdrn _ d _ _ => decide (d.toNat < 96)
  | .mzero _ _ _ => true
  | .mfmt _ _ => true
  | .mhst _ => true
  | .cpt _ _ _ _ _ => true
  | .cpa _ _ _ _ _ => true
  | .cpm _ _ _ _ => true
  | .cpl _ _ _ => true
  | .cpk _ _ _ _ _ => true
  | .sbini _ _ => true
  | .sbarr _ _ => true
  | .sbwt _ _ _ => true
  | .run g _ _ => decide (g.toNat ≤ 2)
  | .runs g _ _ _ => decide (g.toNat ≤ 2)
  | .loopb _ _ _ _ => true
  | .pace _ _ => true
  | .sigt _ => true
  | .waitt _ _ => true
  | .guard _ _ _ _ _ _ _ => true
  | .pset _ _ => true
  | .pinv _ => true
  | .qdrn _ _ => true
  | .qseq g _ s => decide (g.toNat ≤ 2 ∧ (s = 1 → g = 2))
  | .tblw g _ _ => decide (g.toNat ≤ 2)
  | .lsend _ _ => true
  | .lrecv _ _ => true
  | .bar _ => true
  | .barw _ _ => true
  | .chwr _ _ => true
  | .chrd _ _ _ => true
  | .chpop _ => true
  | .nodeq _ => true
  | .glnch _ => true
  | .heldBundleIssue => true
  | .waitEnd => true
  | .waitexp => true
  | .queueEntryStart => true
  | .entryCompletion => true
  | .untimedResultLand => true
  | .timedCopyPerform _ => true
  | .multicastPerform _ => true
  | .cplPerform _ => true
  | .sequenceStampPerform _ => true
  | .instantStart => true
  | .instantCommit => true
  | .swapComplete => true
  | .preemptResume => true
  | .stagedWriteApply => true
  | .barrierRelease _ => true
  | .recoveryRegionOpen => true
  | .recoveryRegionClose => true
  | .tlbWalkComplete _ _ _ => true
  | .tlbInvalidate _ _ => true
  | .freeze => true
  | .regionStop => true
  | .rollbackRestart => true
  | .nodeRequeue => true
  | .killDrainComplete => true
  | .killDrainTimeout => true
  | .heartbeatMissed => true
  | .quantumExpiry => true
  | .graphCheck => true
  | .nodeReady _ _ => true
  | .gangLaunch _ _ => true
  | .nodeCompletion => true
  | .coalescingWindowClose => true
  | .powerStateChange _ _ => true
  | .powerDeadlineExpiry => true
  | .twilightWindowEnd => true
  | .energyUpdate => true
  | .thrrsn _ => true
  | .enlo _ => true
  | .pwrack => true
  | .errinj _ => true
  | .undoa _ => true
  | .errcnt _ _ => true
  | .quota _ => true
  | .powercap _ => true
  | .resetreq _ => true
  | .fwctl _ => true
  | .firmwareHeartbeat => true
  | .updateHeartbeatTimeout => true
  | .hopen _ _ => true
  | .hflags _ _ => true
  | .submit _ _ => true
  | .kill _ _ => true
  | .hcmdMap _ _ => true
  | .hcmdUnmap _ _ => true
  | .hcmdAllocateMap _ _ => true
  | .hcmdRegisterKey _ _ => true
  | .registerWrite _ _ => true
  | .hostMemoryAccess _ _ _ _ => true
  | .getMeasurements => true
  | .linkTraining _ _ _ => true
  | .flitReceive _ _ _ _ _ _ _ _ => true
  | .routeDown _ => true
  | .ptmExchange _ => true
  | .dawn => true
  | .stampGloballyVisible _ => true
  | .updateSignatureCheck => true
  | .routingTableWrite _ _ => true

end Sys2Proof
end

