-- ==== Sys2Proof/Decode.lean ====
section
/-! DEFINITION. The decoder of instruction words, the encoder, and the host's decodeTableWord (R31, R35, R37, R40, R41).
Bit 31 (E) frames bundles and is not read here (assumptions 2). -/

namespace Sys2Proof

/-- Why a word is not an instruction; each raises ILLEGAL where it is met (R41). -/
inductive DecodeError where
  /-- A reserved function, op, sub or type code (R40). -/
  | reservedCode
  /-- A reserved bit that is nonzero (R7). -/
  | reservedBits
  /-- A field outside its limits (R38, R41). -/
  | fieldRange
  deriving DecidableEq, Repr

/-- The instruction i if the reserved field at lo of n bits is zero (R7). -/
def rsv (w lo n : Nat) (i : Except DecodeError Instr) : Except DecodeError Instr :=
  if fld w lo n = 0 then i else .error .reservedBits

/-- Class 0, scalar register (R56, R57). -/
def decode0 (w : Nat) : Except DecodeError Instr :=
  match fld w 0 9 with
  | 0 => .ok (.add (bits w 21 6) (bits w 15 6) (bits w 9 6))
  | 1 => .ok (.sub (bits w 21 6) (bits w 15 6) (bits w 9 6))
  | 2 => .ok (.mul (bits w 21 6) (bits w 15 6) (bits w 9 6))
  | 3 => .ok (.mulh (bits w 21 6) (bits w 15 6) (bits w 9 6))
  | 4 => .ok (.mulhu (bits w 21 6) (bits w 15 6) (bits w 9 6))
  | 5 => .ok (.div (bits w 21 6) (bits w 15 6) (bits w 9 6))
  | 6 => .ok (.divu (bits w 21 6) (bits w 15 6) (bits w 9 6))
  | 7 => .ok (.rem (bits w 21 6) (bits w 15 6) (bits w 9 6))
  | 8 => .ok (.remu (bits w 21 6) (bits w 15 6) (bits w 9 6))
  | 9 => .ok (.andS (bits w 21 6) (bits w 15 6) (bits w 9 6))
  | 10 => .ok (.orS (bits w 21 6) (bits w 15 6) (bits w 9 6))
  | 11 => .ok (.xorS (bits w 21 6) (bits w 15 6) (bits w 9 6))
  | 12 => .ok (.andn (bits w 21 6) (bits w 15 6) (bits w 9 6))
  | 13 => .ok (.shl (bits w 21 6) (bits w 15 6) (bits w 9 6))
  | 14 => .ok (.shr (bits w 21 6) (bits w 15 6) (bits w 9 6))
  | 15 => .ok (.sra (bits w 21 6) (bits w 15 6) (bits w 9 6))
  | 16 => .ok (.rot (bits w 21 6) (bits w 15 6) (bits w 9 6))
  | 17 => .ok (.min (bits w 21 6) (bits w 15 6) (bits w 9 6))
  | 18 => .ok (.max (bits w 21 6) (bits w 15 6) (bits w 9 6))
  | 19 => .ok (.minu (bits w 21 6) (bits w 15 6) (bits w 9 6))
  | 20 => .ok (.maxu (bits w 21 6) (bits w 15 6) (bits w 9 6))
  | 21 => .ok (.seq (bits w 21 6) (bits w 15 6) (bits w 9 6))
  | 22 => .ok (.slt (bits w 21 6) (bits w 15 6) (bits w 9 6))
  | 23 => .ok (.sltu (bits w 21 6) (bits w 15 6) (bits w 9 6))
  | 24 => .ok (.sel (bits w 21 6) (bits w 15 6) (bits w 9 6))
  | 25 => rsv w 9 6 (.ok (.clz (bits w 21 6) (bits w 15 6)))
  | 26 => rsv w 9 6 (.ok (.ctz (bits w 21 6) (bits w 15 6)))
  | 27 => rsv w 9 6 (.ok (.popc (bits w 21 6) (bits w 15 6)))
  | 28 => .ok (.addsat (bits w 21 6) (bits w 15 6) (bits w 9 6))
  | 29 => .ok (.subsat (bits w 21 6) (bits w 15 6) (bits w 9 6))
  | 30 => .ok (.bext (bits w 21 6) (bits w 15 6) (bits w 9 6))
  | 31 => .ok (.bins (bits w 21 6) (bits w 15 6) (bits w 9 6))
  | _ => .error .reservedCode

/-- Class 1, scalar immediate (R62). -/
def decode1 (w : Nat) : Except DecodeError Instr :=
  match fld w 12 3 with
  | 0 => .ok (.addi (bits w 21 6) (bits w 15 6) (bits w 0 12))
  | 1 => .ok (.andi (bits w 21 6) (bits w 15 6) (bits w 0 12))
  | 2 => .ok (.ori (bits w 21 6) (bits w 15 6) (bits w 0 12))
  | 3 => .ok (.xori (bits w 21 6) (bits w 15 6) (bits w 0 12))
  | 4 => rsv w 6 6 (.ok (.shli (bits w 21 6) (bits w 15 6) (bits w 0 6)))
  | 5 => rsv w 6 6 (.ok (.shri (bits w 21 6) (bits w 15 6) (bits w 0 6)))
  | 6 => rsv w 6 6 (.ok (.srai (bits w 21 6) (bits w 15 6) (bits w 0 6)))
  | 7 => .ok (.slti (bits w 21 6) (bits w 15 6) (bits w 0 12))
  | _ => .error .reservedCode

/-- Class 2, upper immediate (R63). -/
def decode2 (w : Nat) : Except DecodeError Instr :=
  match fld w 19 2 with
  | 0 => .ok (.movi (bits w 21 6) (bits w 0 19))
  | 1 => .ok (.insh (bits w 21 6) (bits w 0 19))
  | 2 => rsv w 13 6 (.ok (.inst (bits w 21 6) (bits w 0 13)))
  | 3 => .ok (.movf (bits w 21 6) (bits w 0 19))
  | _ => .error .reservedCode

/-- Class 3, control (R64). -/
def decode3 (w : Nat) (lit : Word) : Except DecodeError Instr :=
  match fld w 23 4 with
  | 0 => rsv w 16 7 (.ok (.idle (bits w 0 16)))
  | 1 => rsv w 13 10 (.ok (.jmp (bits w 0 13)))
  | 2 => rsv w 13 4 (.ok (.bnz (bits w 17 6) (bits w 0 13)))
  | 3 => rsv w 13 4 (.ok (.bz (bits w 17 6) (bits w 0 13)))
  | 4 => rsv w 13 10 (.ok (.call (bits w 0 13)))
  | 5 => rsv w 0 23 (.ok .ret)
  | 6 => .ok (.loop (bits w 20 3) (bits w 8 12) (bits w 0 8))
  | 7 => rsv w 8 6 (.ok (.loops (bits w 20 3) (bits w 14 6) (bits w 0 8)))
  | 8 => rsv w 19 4 (.ok (.segb (bits w 16 3) (bits w 0 16)))
  | 9 => rsv w 0 23 (.ok (.sege lit))
  | 10 => rsv w 0 23 (.ok .endi)
  | 11 => rsv w 0 23 (.ok .kend)
  | 12 => .ok (.nexts (bits w 17 6) (bits w 12 5) (bits w 0 12))
  | 13 => .ok (.waits (bits w 0 23))
  | _ => .error .reservedCode

/-- Class 4, scalar memory, atomics, fences and waits (R148, R156, R161). -/
def decode4 (w : Nat) : Except DecodeError Instr :=
  match fld w 11 4 with
  | 0 => .ok (.ldb (bits w 21 6) (bits w 15 6) (bits w 0 11))
  | 1 => .ok (.ldbu (bits w 21 6) (bits w 15 6) (bits w 0 11))
  | 2 => .ok (.ldh (bits w 21 6) (bits w 15 6) (bits w 0 11))
  | 3 => .ok (.ldhu (bits w 21 6) (bits w 15 6) (bits w 0 11))
  | 4 => .ok (.ldw (bits w 21 6) (bits w 15 6) (bits w 0 11))
  | 5 => .ok (.ldwu (bits w 21 6) (bits w 15 6) (bits w 0 11))
  | 6 => .ok (.ldd (bits w 21 6) (bits w 15 6) (bits w 0 11))
  | 7 => .ok (.stb (bits w 21 6) (bits w 15 6) (bits w 0 11))
  | 8 => .ok (.sth (bits w 21 6) (bits w 15 6) (bits w 0 11))
  | 9 => .ok (.stw (bits w 21 6) (bits w 15 6) (bits w 0 11))
  | 10 => .ok (.std (bits w 21 6) (bits w 15 6) (bits w 0 11))
  | 11 => rsv w 15 6 (rsv w 5 6 (.ok (.lwait (bits w 21 6) (bits w 0 5))))
  | 12 => match fld w 0 5 with
    | 0 => .ok (.aadd (bits w 21 6) (bits w 15 6) (bits w 5 6))
    | 1 => .ok (.aand (bits w 21 6) (bits w 15 6) (bits w 5 6))
    | 2 => .ok (.aor (bits w 21 6) (bits w 15 6) (bits w 5 6))
    | 3 => .ok (.axor (bits w 21 6) (bits w 15 6) (bits w 5 6))
    | 4 => .ok (.amin (bits w 21 6) (bits w 15 6) (bits w 5 6))
    | 5 => .ok (.amax (bits w 21 6) (bits w 15 6) (bits w 5 6))
    | 6 => .ok (.aminu (bits w 21 6) (bits w 15 6) (bits w 5 6))
    | 7 => .ok (.amaxu (bits w 21 6) (bits w 15 6) (bits w 5 6))
    | 8 => .ok (.aswap (bits w 21 6) (bits w 15 6) (bits w 5 6))
    | 9 => .ok (.acas (bits w 21 6) (bits w 15 6) (bits w 5 6))
    | 10 => rsv w 21 6 (.ok (.afadd (bits w 15 6) (bits w 5 6)))
    | 11 => rsv w 21 6 (.ok (.acell (bits w 15 6) (bits w 5 6)))
    | 12 => rsv w 5 6 (.ok (.acrd (bits w 21 6) (bits w 15 6)))
    | 13 => .ok (.acflg (bits w 21 6) (bits w 15 6) (bits w 5 6))
    | _ => .error .reservedCode
  | 13 => match fld w 0 5 with
    | 0 => rsv w 15 12 (rsv w 5 6 (.ok .fenceAcq))
    | 1 => rsv w 15 12 (rsv w 5 6 (.ok .fenceRel))
    | 2 => rsv w 15 12 (rsv w 5 6 (.ok .fenceFull))
    | 3 => rsv w 15 12 (rsv w 5 6 (.ok .fenceAlias))
    | _ => .error .reservedCode
  | 14 => .ok (.mwait (bits w 21 6) (bits w 15 6) (bits w 5 6) (bits w 0 5))
  | 15 => rsv w 21 6 (rsv w 5 6 (.ok (.qwait (bits w 15 6) (bits w 0 5))))
  | _ => .error .reservedCode

/-- Class 5, stream and clock (R80). -/
def decode5 (w : Nat) : Except DecodeError Instr :=
  match fld w 23 4 with
  | 0 => rsv w 21 2 (.ok (.ckdef (bits w 15 6) (bits w 8 7) (bits w 4 4) (bits w 0 4)))
  | 1 => rsv w 8 15 (.ok (.ckneg (bits w 4 4) (bits w 0 4)))
  | 2 => match fld w 22 1 with
    | 0 => rsv w 0 4 (.ok (.when (bits w 15 7) (bits w 8 7) (bits w 4 4)))
    | 1 => rsv w 0 4 (.ok (.whenT (bits w 15 7) (bits w 8 7) (bits w 4 4)))
    | _ => .error .reservedCode
  | 3 => match fld w 22 1 with
    | 0 => rsv w 0 4 (.ok (.merge (bits w 15 7) (bits w 8 7) (bits w 4 4)))
    | 1 => rsv w 0 4 (.ok (.mergeT (bits w 15 7) (bits w 8 7) (bits w 4 4)))
    | _ => .error .reservedCode
  | 4 => rsv w 15 8 (.ok (.dlyi (bits w 8 7) (bits w 4 4) (bits w 0 4)))
  | 5 => rsv w 22 1 (rsv w 4 11 (.ok (.dlyr (bits w 15 7) (bits w 0 4))))
  | 6 => rsv w 15 8 (rsv w 4 4 (.ok (.dlyw (bits w 8 7) (bits w 0 4))))
  | 7 => rsv w 22 1 (rsv w 8 7 (rsv w 0 4 (.ok (.cktst (bits w 15 7) (bits w 4 4)))))
  | 8 => rsv w 22 1 (rsv w 8 7 (rsv w 0 4 (.ok (.ckstat (bits w 15 7) (bits w 4 4)))))
  | _ => .error .reservedCode

/-- Class 6, recovery (R205). -/
def decode6 (w : Nat) : Except DecodeError Instr :=
  match fld w 23 4 with
  | 0 => rsv w 5 18 (.ok (.rbegin (bits w 0 5)))
  | 1 => rsv w 0 11 (.ok (.rpresvS (bits w 17 6) (bits w 11 6)))
  | 2 => rsv w 0 9 (.ok (.rpresvT (bits w 16 7) (bits w 9 7)))
  | 3 => rsv w 0 11 (.ok (.rpresvM (bits w 17 6) (bits w 11 6)))
  | 4 => rsv w 0 15 (.ok (.rpresvC (bits w 15 8)))
  | 5 => rsv w 5 18 (.ok (.rend (bits w 0 5)))
  | 6 => rsv w 0 23 (.ok .rabort)
  | 7 => rsv w 0 17 (.ok (.rpol (bits w 17 6)))
  | 8 => rsv w 0 15 (.ok (.safept (bits w 15 8)))
  | _ => .error .reservedCode

/-- Class 7, system (R212). -/
def decode7 (w : Nat) : Except DecodeError Instr :=
  match fld w 23 4 with
  | 0 => rsv w 12 5 (.ok (.csrr (bits w 17 6) (bits w 0 12)))
  | 1 => rsv w 12 5 (.ok (.csrw (bits w 17 6) (bits w 0 12)))
  | 2 => rsv w 12 5 (.ok (.csrs (bits w 17 6) (bits w 0 12)))
  | 3 => rsv w 12 5 (.ok (.csrc (bits w 17 6) (bits w 0 12)))
  | 4 => rsv w 16 7 (.ok (.trap (bits w 0 16)))
  | 5 => rsv w 0 23 (.ok .tret)
  | 6 => rsv w 16 7 (.ok (.brk (bits w 0 16)))
  | 7 => rsv w 2 21 (.ok (.fidel (bits w 0 2)))
  | 8 => rsv w 5 18 (.ok (.clkdiv (bits w 3 2) (bits w 0 3)))
  | 9 => rsv w 0 23 (.ok .haltg)
  | 10 => rsv w 0 17 (.ok (.killc (bits w 17 6)))
  | 11 => rsv w 0 11 (.ok (.tlblk (bits w 17 6) (bits w 11 6)))
  | _ => .error .reservedCode

/-- Class 8, integer vector (R118). -/
def decode8 (w : Nat) : Except DecodeError Instr :=
  match fld w 2 4 with
  | 0 => .ok (.vadd (bits w 20 7) (bits w 13 7) (bits w 6 7) (bits w 0 2))
  | 1 => .ok (.vsub (bits w 20 7) (bits w 13 7) (bits w 6 7) (bits w 0 2))
  | 2 => .ok (.vadds (bits w 20 7) (bits w 13 7) (bits w 6 7) (bits w 0 2))
  | 3 => .ok (.vaddsu (bits w 20 7) (bits w 13 7) (bits w 6 7) (bits w 0 2))
  | 4 => .ok (.vmul (bits w 20 7) (bits w 13 7) (bits w 6 7) (bits w 0 2))
  | 5 => .ok (.vmulh (bits w 20 7) (bits w 13 7) (bits w 6 7) (bits w 0 2))
  | 6 => .ok (.vmin (bits w 20 7) (bits w 13 7) (bits w 6 7) (bits w 0 2))
  | 7 => .ok (.vmax (bits w 20 7) (bits w 13 7) (bits w 6 7) (bits w 0 2))
  | 8 => .ok (.vminu (bits w 20 7) (bits w 13 7) (bits w 6 7) (bits w 0 2))
  | 9 => .ok (.vmaxu (bits w 20 7) (bits w 13 7) (bits w 6 7) (bits w 0 2))
  | 10 => .ok (.vand (bits w 20 7) (bits w 13 7) (bits w 6 7) (bits w 0 2))
  | 11 => .ok (.vor (bits w 20 7) (bits w 13 7) (bits w 6 7) (bits w 0 2))
  | 12 => .ok (.vxor (bits w 20 7) (bits w 13 7) (bits w 6 7) (bits w 0 2))
  | 13 => .ok (.vshl (bits w 20 7) (bits w 13 7) (bits w 6 7) (bits w 0 2))
  | 14 => .ok (.vshr (bits w 20 7) (bits w 13 7) (bits w 6 7) (bits w 0 2))
  | 15 => .ok (.vsra (bits w 20 7) (bits w 13 7) (bits w 6 7) (bits w 0 2))
  | _ => .error .reservedCode

/-- Class 9, floating vector (R119). -/
def decode9 (w : Nat) : Except DecodeError Instr :=
  match fld w 2 4 with
  | 0 => .ok (.vfadd (bits w 20 7) (bits w 13 7) (bits w 6 7) (bits w 0 2))
  | 1 => .ok (.vfsub (bits w 20 7) (bits w 13 7) (bits w 6 7) (bits w 0 2))
  | 2 => .ok (.vfmul (bits w 20 7) (bits w 13 7) (bits w 6 7) (bits w 0 2))
  | 3 => .ok (.vfma (bits w 20 7) (bits w 13 7) (bits w 6 7) (bits w 0 2))
  | 4 => .ok (.vfmin (bits w 20 7) (bits w 13 7) (bits w 6 7) (bits w 0 2))
  | 5 => .ok (.vfmax (bits w 20 7) (bits w 13 7) (bits w 6 7) (bits w 0 2))
  | 6 => rsv w 6 7 (.ok (.vfabs (bits w 20 7) (bits w 13 7) (bits w 0 2)))
  | 7 => rsv w 6 7 (.ok (.vfneg (bits w 20 7) (bits w 13 7) (bits w 0 2)))
  | 8 => rsv w 6 7 (.ok (.vfrcp (bits w 20 7) (bits w 13 7) (bits w 0 2)))
  | 9 => rsv w 6 7 (.ok (.vfrsq (bits w 20 7) (bits w 13 7) (bits w 0 2)))
  | 10 => rsv w 6 7 (.ok (.vfexp2 (bits w 20 7) (bits w 13 7) (bits w 0 2)))
  | 11 => rsv w 6 7 (.ok (.vflog2 (bits w 20 7) (bits w 13 7) (bits w 0 2)))
  | 12 => rsv w 6 7 (.ok (.vfrsum (bits w 20 7) (bits w 13 7) (bits w 0 2)))
  | 13 => rsv w 6 7 (.ok (.vfrmax (bits w 20 7) (bits w 13 7) (bits w 0 2)))
  | 14 => .ok (.vfscl (bits w 20 7) (bits w 13 7) (bits w 6 7) (bits w 0 2))
  | 15 => .ok (.vfcpy (bits w 20 7) (bits w 13 7) (bits w 6 7) (bits w 0 2))
  | _ => .error .reservedCode

/-- Class 10, conversion and movement (R121-R128). -/
def decode10 (w : Nat) : Except DecodeError Instr :=
  match fld w 0 6 with
  | 0 => .ok (.vcvt (bits w 20 7) (bits w 13 7) (bits w 9 4) (bits w 7 2) (bits w 6 1))
  | 1 => (if fld w 7 6 = 4 then .ok (.vexp (bits w 20 7) (bits w 13 7) (bits w 6 1)) else .error .fieldRange)
  | 2 => rsv w 6 7 (.ok (.vmxs (bits w 20 7) (bits w 13 7)))
  | 3 => .ok (.vcmpeq (bits w 20 7) (bits w 13 7) (bits w 6 7))
  | 4 => .ok (.vcmplt (bits w 20 7) (bits w 13 7) (bits w 6 7))
  | 5 => .ok (.vcmple (bits w 20 7) (bits w 13 7) (bits w 6 7))
  | 6 => .ok (.vfcmpeq (bits w 20 7) (bits w 13 7) (bits w 6 7))
  | 7 => .ok (.vfcmplt (bits w 20 7) (bits w 13 7) (bits w 6 7))
  | 8 => .ok (.vfcmple (bits w 20 7) (bits w 13 7) (bits w 6 7))
  | 9 => .ok (.vsel (bits w 20 7) (bits w 13 7) (bits w 6 7))
  | 10 => rsv w 6 7 (.ok (.vtrn (bits w 20 7) (bits w 13 7)))
  | 11 => .ok (.vbcr (bits w 20 7) (bits w 13 7) (bits w 6 7))
  | 12 => .ok (.vshuf (bits w 20 7) (bits w 13 7) (bits w 6 7))
  | 13 => rsv w 6 7 (.ok (.vmov (bits w 20 7) (bits w 13 7)))
  | 14 => .ok (.vrot (bits w 20 7) (bits w 13 7) (bits w 6 7))
  | 15 => .ok (.vpck (bits w 20 7) (bits w 13 7) (bits w 6 7))
  | 16 => rsv w 6 7 (.ok (.vupk (bits w 20 7) (bits w 13 7)))
  | 17 => rsv w 6 14 (.ok (.viota (bits w 20 7)))
  | 18 => .ok (.vget (bits w 20 7) (bits w 13 7) (bits w 6 7))
  | 19 => .ok (.vput (bits w 20 7) (bits w 13 7) (bits w 6 7))
  | 20 => rsv w 13 7 (.ok (.vsete (bits w 20 7) (bits w 6 7)))
  | _ => .error .reservedCode

/-- Class 11, tile memory and tag table (R166). -/
def decode11 (w : Nat) : Except DecodeError Instr :=
  match fld w 10 4 with
  | 0 => .ok (.tld (bits w 20 7) (bits w 14 6) (bits w 0 10))
  | 1 => .ok (.tst (bits w 20 7) (bits w 14 6) (bits w 0 10))
  | 2 => .ok (.tlds (bits w 20 7) (bits w 14 6) (bits w 0 10))
  | 3 => .ok (.tsts (bits w 20 7) (bits w 14 6) (bits w 0 10))
  | 4 => rsv w 6 4 (.ok (.tstm (bits w 20 7) (bits w 14 6) (bits w 0 6)))
  | 5 => rsv w 0 10 (.ok (.tlook (bits w 20 7) (bits w 14 6)))
  | 6 => rsv w 6 4 (.ok (.tins (bits w 20 7) (bits w 14 6) (bits w 0 6)))
  | 7 => rsv w 0 10 (.ok (.tevt (bits w 20 7) (bits w 14 6)))
  | 8 => rsv w 0 10 (.ok (.tagrd (bits w 20 7) (bits w 14 6)))
  | _ => .error .reservedCode

/-- Class 12, matrix (R130). -/
def decode12 (w : Nat) : Except DecodeError Instr :=
  match fld w 24 3 with
  | 0 => .ok (.mma (bits w 21 3) (bits w 14 7) (bits w 10 4) (bits w 5 5) (bits w 4 1) (bits w 3 1) (bits w 0 3))
  | 1 => rsv w 21 3 (rsv w 0 3 (.ok (.mldb (bits w 14 7) (bits w 10 4) (bits w 5 5) (bits w 4 1) (bits w 3 1))))
  | 2 => rsv w 10 1 (rsv w 0 5 (.ok (.mdrn (bits w 21 3) (bits w 14 7) (bits w 11 3) (bits w 5 5))))
  | 3 => rsv w 7 14 (.ok (.mzero (bits w 21 3) (bits w 3 4) (bits w 0 3)))
  | 4 => rsv w 0 14 (.ok (.mfmt (bits w 20 4) (bits w 14 6)))
  | 5 => rsv w 0 22 (.ok (.mhst (bits w 22 2)))
  | _ => .error .reservedCode

/-- Class 13, copies and stage barriers (R186). -/
def decode13 (w : Nat) : Except DecodeError Instr :=
  match fld w 24 3 with
  | 0 => rsv w 2 6 (.ok (.cpt (bits w 18 6) (bits w 12 6) (bits w 8 4) (bits w 1 1) (bits w 0 1)))
  | 1 => rsv w 2 6 (.ok (.cpa (bits w 18 6) (bits w 12 6) (bits w 8 4) (bits w 1 1) (bits w 0 1)))
  | 2 => rsv w 2 6 (rsv w 0 1 (.ok (.cpm (bits w 18 6) (bits w 12 6) (bits w 8 4) (bits w 1 1))))
  | 3 => .ok (.cpl (bits w 18 6) (bits w 12 6) (bits w 0 12))
  | 4 => rsv w 2 6 (.ok (.cpk (bits w 18 6) (bits w 12 6) (bits w 8 4) (bits w 1 1) (bits w 0 1)))
  | 5 => rsv w 12 6 (rsv w 0 8 (.ok (.sbini (bits w 18 6) (bits w 8 4))))
  | 6 => rsv w 12 6 (rsv w 0 8 (.ok (.sbarr (bits w 18 6) (bits w 8 4))))
  | 7 => rsv w 12 12 (rsv w 6 2 (.ok (.sbwt (bits w 8 4) (bits w 1 5) (bits w 0 1))))
  | _ => .error .reservedCode

/-- Class 14, engine queues (R177). -/
def decode14 (w : Nat) (lit : Word) : Except DecodeError Instr :=
  match fld w 23 4 with
  | 0 => rsv w 0 3 (.ok (.run (bits w 21 2) (bits w 11 10) (bits w 3 8)))
  | 1 => rsv w 0 3 (.ok (.runs (bits w 21 2) (bits w 11 10) (bits w 3 8) lit))
  | 2 => .ok (.loopb (bits w 21 2) (bits w 15 6) (bits w 0 15) lit)
  | 3 => rsv w 8 13 (.ok (.pace (bits w 21 2) (bits w 0 8)))
  | 4 => rsv w 5 18 (.ok (.sigt (bits w 0 5)))
  | 5 => rsv w 10 13 (.ok (.waitt (bits w 5 5) (bits w 0 5)))
  | 6 => rsv w 0 4 (.ok (.guard (bits w 21 2) (bits w 17 4) (bits w 16 1) (bits w 11 5) (bits w 10 1) (bits w 5 5) (bits w 4 1)))
  | 7 => rsv w 21 2 (rsv w 0 11 (.ok (.pset (bits w 17 4) (bits w 11 6))))
  | 8 => rsv w 21 2 (rsv w 0 17 (.ok (.pinv (bits w 17 4))))
  | 9 => rsv w 5 16 (.ok (.qdrn (bits w 21 2) (bits w 0 5)))
  | 10 => rsv w 0 14 (.ok (.qseq (bits w 21 2) (bits w 15 6) (bits w 14 1)))
  | 11 => rsv w 0 9 (.ok (.tblw (bits w 21 2) (bits w 15 6) (bits w 9 6)))
  | _ => .error .reservedCode

/-- Class 15, fabric (R198). -/
def decode15 (w : Nat) : Except DecodeError Instr :=
  match fld w 23 4 with
  | 0 => rsv w 0 15 (.ok (.lsend (bits w 21 2) (bits w 15 6)))
  | 1 => rsv w 0 15 (.ok (.lrecv (bits w 21 2) (bits w 15 6)))
  | 2 => rsv w 0 20 (.ok (.bar (bits w 20 3)))
  | 3 => rsv w 5 15 (.ok (.barw (bits w 20 3) (bits w 0 5)))
  | 4 => rsv w 0 9 (.ok (.chwr (bits w 15 8) (bits w 9 6)))
  | 5 => rsv w 0 5 (.ok (.chrd (bits w 15 8) (bits w 9 6) (bits w 5 4)))
  | 6 => rsv w 0 15 (.ok (.chpop (bits w 15 8)))
  | 7 => rsv w 0 17 (.ok (.nodeq (bits w 17 6)))
  | 8 => rsv w 0 17 (.ok (.glnch (bits w 17 6)))
  | _ => .error .reservedCode

/-- The instruction that the low 31 bits of a word and its literal encode, its field limits not yet checked (R37, R40). -/
def decodeRaw (w : Nat) (lit : Word) : Except DecodeError Instr :=
  match fld w 27 4 with
  | 0 => decode0 w
  | 1 => decode1 w
  | 2 => decode2 w
  | 3 => decode3 w lit
  | 4 => decode4 w
  | 5 => decode5 w
  | 6 => decode6 w
  | 7 => decode7 w
  | 8 => decode8 w
  | 9 => decode9 w
  | 10 => decode10 w
  | 11 => decode11 w
  | 12 => decode12 w
  | 13 => decode13 w
  | 14 => decode14 w lit
  | _ => decode15 w

/-- The instruction of a word (and of the literal after it, where it takes one), or the reason it raises ILLEGAL (R41). -/
def decode (w : Nat) (lit : Word) : Except DecodeError Instr :=
  match decodeRaw w lit with
  | .ok i => if i.wellFormed then .ok i else .error .fieldRange
  | .error e => .error e

/-- The word that encodes an instruction, with E = 0 (R31, R37); 0 for an event, which has no encoding. -/
def encode : Instr → Nat
  | .add d a b => 0 + d.toNat * 2097152 + a.toNat * 32768 + b.toNat * 512
  | .sub d a b => 1 + d.toNat * 2097152 + a.toNat * 32768 + b.toNat * 512
  | .mul d a b => 2 + d.toNat * 2097152 + a.toNat * 32768 + b.toNat * 512
  | .mulh d a b => 3 + d.toNat * 2097152 + a.toNat * 32768 + b.toNat * 512
  | .mulhu d a b => 4 + d.toNat * 2097152 + a.toNat * 32768 + b.toNat * 512
  | .div d a b => 5 + d.toNat * 2097152 + a.toNat * 32768 + b.toNat * 512
  | .divu d a b => 6 + d.toNat * 2097152 + a.toNat * 32768 + b.toNat * 512
  | .rem d a b => 7 + d.toNat * 2097152 + a.toNat * 32768 + b.toNat * 512
  | .remu d a b => 8 + d.toNat * 2097152 + a.toNat * 32768 + b.toNat * 512
  | .andS d a b => 9 + d.toNat * 2097152 + a.toNat * 32768 + b.toNat * 512
  | .orS d a b => 10 + d.toNat * 2097152 + a.toNat * 32768 + b.toNat * 512
  | .xorS d a b => 11 + d.toNat * 2097152 + a.toNat * 32768 + b.toNat * 512
  | .andn d a b => 12 + d.toNat * 2097152 + a.toNat * 32768 + b.toNat * 512
  | .shl d a b => 13 + d.toNat * 2097152 + a.toNat * 32768 + b.toNat * 512
  | .shr d a b => 14 + d.toNat * 2097152 + a.toNat * 32768 + b.toNat * 512
  | .sra d a b => 15 + d.toNat * 2097152 + a.toNat * 32768 + b.toNat * 512
  | .rot d a b => 16 + d.toNat * 2097152 + a.toNat * 32768 + b.toNat * 512
  | .min d a b => 17 + d.toNat * 2097152 + a.toNat * 32768 + b.toNat * 512
  | .max d a b => 18 + d.toNat * 2097152 + a.toNat * 32768 + b.toNat * 512
  | .minu d a b => 19 + d.toNat * 2097152 + a.toNat * 32768 + b.toNat * 512
  | .maxu d a b => 20 + d.toNat * 2097152 + a.toNat * 32768 + b.toNat * 512
  | .seq d a b => 21 + d.toNat * 2097152 + a.toNat * 32768 + b.toNat * 512
  | .slt d a b => 22 + d.toNat * 2097152 + a.toNat * 32768 + b.toNat * 512
  | .sltu d a b => 23 + d.toNat * 2097152 + a.toNat * 32768 + b.toNat * 512
  | .sel d a b => 24 + d.toNat * 2097152 + a.toNat * 32768 + b.toNat * 512
  | .clz d a => 25 + d.toNat * 2097152 + a.toNat * 32768
  | .ctz d a => 26 + d.toNat * 2097152 + a.toNat * 32768
  | .popc d a => 27 + d.toNat * 2097152 + a.toNat * 32768
  | .addsat d a b => 28 + d.toNat * 2097152 + a.toNat * 32768 + b.toNat * 512
  | .subsat d a b => 29 + d.toNat * 2097152 + a.toNat * 32768 + b.toNat * 512
  | .bext d a b => 30 + d.toNat * 2097152 + a.toNat * 32768 + b.toNat * 512
  | .bins d a b => 31 + d.toNat * 2097152 + a.toNat * 32768 + b.toNat * 512
  | .addi d a i => 134217728 + d.toNat * 2097152 + a.toNat * 32768 + i.toNat
  | .andi d a i => 134221824 + d.toNat * 2097152 + a.toNat * 32768 + i.toNat
  | .ori d a i => 134225920 + d.toNat * 2097152 + a.toNat * 32768 + i.toNat
  | .xori d a i => 134230016 + d.toNat * 2097152 + a.toNat * 32768 + i.toNat
  | .shli d a i => 134234112 + d.toNat * 2097152 + a.toNat * 32768 + i.toNat
  | .shri d a i => 134238208 + d.toNat * 2097152 + a.toNat * 32768 + i.toNat
  | .srai d a i => 134242304 + d.toNat * 2097152 + a.toNat * 32768 + i.toNat
  | .slti d a i => 134246400 + d.toNat * 2097152 + a.toNat * 32768 + i.toNat
  | .movi d i => 268435456 + d.toNat * 2097152 + i.toNat
  | .insh d i => 268959744 + d.toNat * 2097152 + i.toNat
  | .inst d i => 269484032 + d.toNat * 2097152 + i.toNat
  | .movf d i => 270008320 + d.toNat * 2097152 + i.toNat
  | .idle n => 402653184 + n.toNat
  | .jmp t => 411041792 + t.toNat
  | .bnz a t => 419430400 + a.toNat * 131072 + t.toNat
  | .bz a t => 427819008 + a.toNat * 131072 + t.toNat
  | .call t => 436207616 + t.toNat
  | .ret => 444596224
  | .loop l c n => 452984832 + l.toNat * 1048576 + c.toNat * 256 + n.toNat
  | .loops l a n => 461373440 + l.toNat * 1048576 + a.toNat * 16384 + n.toNat
  | .segb v n => 469762048 + v.toNat * 65536 + n.toNat
  | .sege _ => 478150656
  | .endi => 486539264
  | .kend => 494927872
  | .nexts a n b => 503316480 + a.toNat * 131072 + n.toNat * 4096 + b.toNat
  | .waits s => 511705088 + s.toNat
  | .ldb d a o => 536870912 + d.toNat * 2097152 + a.toNat * 32768 + o.toNat
  | .ldbu d a o => 536872960 + d.toNat * 2097152 + a.toNat * 32768 + o.toNat
  | .ldh d a o => 536875008 + d.toNat * 2097152 + a.toNat * 32768 + o.toNat
  | .ldhu d a o => 536877056 + d.toNat * 2097152 + a.toNat * 32768 + o.toNat
  | .ldw d a o => 536879104 + d.toNat * 2097152 + a.toNat * 32768 + o.toNat
  | .ldwu d a o => 536881152 + d.toNat * 2097152 + a.toNat * 32768 + o.toNat
  | .ldd d a o => 536883200 + d.toNat * 2097152 + a.toNat * 32768 + o.toNat
  | .stb d a o => 536885248 + d.toNat * 2097152 + a.toNat * 32768 + o.toNat
  | .sth d a o => 536887296 + d.toNat * 2097152 + a.toNat * 32768 + o.toNat
  | .stw d a o => 536889344 + d.toNat * 2097152 + a.toNat * 32768 + o.toNat
  | .std d a o => 536891392 + d.toNat * 2097152 + a.toNat * 32768 + o.toNat
  | .lwait d l => 536893440 + d.toNat * 2097152 + l.toNat
  | .aadd d a b => 536895488 + d.toNat * 2097152 + a.toNat * 32768 + b.toNat * 32
  | .aand d a b => 536895489 + d.toNat * 2097152 + a.toNat * 32768 + b.toNat * 32
  | .aor d a b => 536895490 + d.toNat * 2097152 + a.toNat * 32768 + b.toNat * 32
  | .axor d a b => 536895491 + d.toNat * 2097152 + a.toNat * 32768 + b.toNat * 32
  | .amin d a b => 536895492 + d.toNat * 2097152 + a.toNat * 32768 + b.toNat * 32
  | .amax d a b => 536895493 + d.toNat * 2097152 + a.toNat * 32768 + b.toNat * 32
  | .aminu d a b => 536895494 + d.toNat * 2097152 + a.toNat * 32768 + b.toNat * 32
  | .amaxu d a b => 536895495 + d.toNat * 2097152 + a.toNat * 32768 + b.toNat * 32
  | .aswap d a b => 536895496 + d.toNat * 2097152 + a.toNat * 32768 + b.toNat * 32
  | .acas d a b => 536895497 + d.toNat * 2097152 + a.toNat * 32768 + b.toNat * 32
  | .afadd a b => 536895498 + a.toNat * 32768 + b.toNat * 32
  | .acell a b => 536895499 + a.toNat * 32768 + b.toNat * 32
  | .acrd d a => 536895500 + d.toNat * 2097152 + a.toNat * 32768
  | .acflg d a b => 536895501 + d.toNat * 2097152 + a.toNat * 32768 + b.toNat * 32
  | .fenceAcq => 536897536
  | .fenceRel => 536897537
  | .fenceFull => 536897538
  | .fenceAlias => 536897539
  | .mwait d a b l => 536899584 + d.toNat * 2097152 + a.toNat * 32768 + b.toNat * 32 + l.toNat
  | .qwait a l => 536901632 + a.toNat * 32768 + l.toNat
  | .ckdef n a k x => 671088640 + n.toNat * 32768 + a.toNat * 256 + k.toNat * 16 + x.toNat
  | .ckneg k x => 679477248 + k.toNat * 16 + x.toNat
  | .when d a k => 687865856 + d.toNat * 32768 + a.toNat * 256 + k.toNat * 16
  | .whenT d a k => 692060160 + d.toNat * 32768 + a.toNat * 256 + k.toNat * 16
  | .merge d a k => 696254464 + d.toNat * 32768 + a.toNat * 256 + k.toNat * 16
  | .mergeT d a k => 700448768 + d.toNat * 32768 + a.toNat * 256 + k.toNat * 16
  | .dlyi a k x => 704643072 + a.toNat * 256 + k.toNat * 16 + x.toNat
  | .dlyr d x => 713031680 + d.toNat * 32768 + x.toNat
  | .dlyw a x => 721420288 + a.toNat * 256 + x.toNat
  | .cktst d k => 729808896 + d.toNat * 32768 + k.toNat * 16
  | .ckstat d k => 738197504 + d.toNat * 32768 + k.toNat * 16
  | .rbegin l => 805306368 + l.toNat
  | .rpresvS f l => 813694976 + f.toNat * 131072 + l.toNat * 2048
  | .rpresvT f l => 822083584 + f.toNat * 65536 + l.toNat * 512
  | .rpresvM a b => 830472192 + a.toNat * 131072 + b.toNat * 2048
  | .rpresvC m => 838860800 + m.toNat * 32768
  | .rend l => 847249408 + l.toNat
  | .rabort => 855638016
  | .rpol a => 864026624 + a.toNat * 131072
  | .safept i => 872415232 + i.toNat * 32768
  | .csrr d c => 939524096 + d.toNat * 131072 + c.toNat
  | .csrw a c => 947912704 + a.toNat * 131072 + c.toNat
  | .csrs a c => 956301312 + a.toNat * 131072 + c.toNat
  | .csrc a c => 964689920 + a.toNat * 131072 + c.toNat
  | .trap c => 973078528 + c.toNat
  | .tret => 981467136
  | .brk c => 989855744 + c.toNat
  | .fidel n => 998244352 + n.toNat
  | .clkdiv u v => 1006632960 + u.toNat * 8 + v.toNat
  | .haltg => 1015021568
  | .killc a => 1023410176 + a.toNat * 131072
  | .tlblk a b => 1031798784 + a.toNat * 131072 + b.toNat * 2048
  | .vadd d a b t => 1073741824 + d.toNat * 1048576 + a.toNat * 8192 + b.toNat * 64 + t.toNat
  | .vsub d a b t => 1073741828 + d.toNat * 1048576 + a.toNat * 8192 + b.toNat * 64 + t.toNat
  | .vadds d a b t => 1073741832 + d.toNat * 1048576 + a.toNat * 8192 + b.toNat * 64 + t.toNat
  | .vaddsu d a b t => 1073741836 + d.toNat * 1048576 + a.toNat * 8192 + b.toNat * 64 + t.toNat
  | .vmul d a b t => 1073741840 + d.toNat * 1048576 + a.toNat * 8192 + b.toNat * 64 + t.toNat
  | .vmulh d a b t => 1073741844 + d.toNat * 1048576 + a.toNat * 8192 + b.toNat * 64 + t.toNat
  | .vmin d a b t => 1073741848 + d.toNat * 1048576 + a.toNat * 8192 + b.toNat * 64 + t.toNat
  | .vmax d a b t => 1073741852 + d.toNat * 1048576 + a.toNat * 8192 + b.toNat * 64 + t.toNat
  | .vminu d a b t => 1073741856 + d.toNat * 1048576 + a.toNat * 8192 + b.toNat * 64 + t.toNat
  | .vmaxu d a b t => 1073741860 + d.toNat * 1048576 + a.toNat * 8192 + b.toNat * 64 + t.toNat
  | .vand d a b t => 1073741864 + d.toNat * 1048576 + a.toNat * 8192 + b.toNat * 64 + t.toNat
  | .vor d a b t => 1073741868 + d.toNat * 1048576 + a.toNat * 8192 + b.toNat * 64 + t.toNat
  | .vxor d a b t => 1073741872 + d.toNat * 1048576 + a.toNat * 8192 + b.toNat * 64 + t.toNat
  | .vshl d a b t => 1073741876 + d.toNat * 1048576 + a.toNat * 8192 + b.toNat * 64 + t.toNat
  | .vshr d a b t => 1073741880 + d.toNat * 1048576 + a.toNat * 8192 + b.toNat * 64 + t.toNat
  | .vsra d a b t => 1073741884 + d.toNat * 1048576 + a.toNat * 8192 + b.toNat * 64 + t.toNat
  | .vfadd d a b t => 1207959552 + d.toNat * 1048576 + a.toNat * 8192 + b.toNat * 64 + t.toNat
  | .vfsub d a b t => 1207959556 + d.toNat * 1048576 + a.toNat * 8192 + b.toNat * 64 + t.toNat
  | .vfmul d a b t => 1207959560 + d.toNat * 1048576 + a.toNat * 8192 + b.toNat * 64 + t.toNat
  | .vfma d a b t => 1207959564 + d.toNat * 1048576 + a.toNat * 8192 + b.toNat * 64 + t.toNat
  | .vfmin d a b t => 1207959568 + d.toNat * 1048576 + a.toNat * 8192 + b.toNat * 64 + t.toNat
  | .vfmax d a b t => 1207959572 + d.toNat * 1048576 + a.toNat * 8192 + b.toNat * 64 + t.toNat
  | .vfabs d a t => 1207959576 + d.toNat * 1048576 + a.toNat * 8192 + t.toNat
  | .vfneg d a t => 1207959580 + d.toNat * 1048576 + a.toNat * 8192 + t.toNat
  | .vfrcp d a t => 1207959584 + d.toNat * 1048576 + a.toNat * 8192 + t.toNat
  | .vfrsq d a t => 1207959588 + d.toNat * 1048576 + a.toNat * 8192 + t.toNat
  | .vfexp2 d a t => 1207959592 + d.toNat * 1048576 + a.toNat * 8192 + t.toNat
  | .vflog2 d a t => 1207959596 + d.toNat * 1048576 + a.toNat * 8192 + t.toNat
  | .vfrsum d a t => 1207959600 + d.toNat * 1048576 + a.toNat * 8192 + t.toNat
  | .vfrmax d a t => 1207959604 + d.toNat * 1048576 + a.toNat * 8192 + t.toNat
  | .vfscl d a b t => 1207959608 + d.toNat * 1048576 + a.toNat * 8192 + b.toNat * 64 + t.toNat
  | .vfcpy d a b t => 1207959612 + d.toNat * 1048576 + a.toNat * 8192 + b.toNat * 64 + t.toNat
  | .vcvt d a g r s => 1342177280 + d.toNat * 1048576 + a.toNat * 8192 + g.toNat * 512 + r.toNat * 128 + s.toNat * 64
  | .vexp d a f => 1342177793 + d.toNat * 1048576 + a.toNat * 8192 + f.toNat * 64
  | .vmxs d a => 1342177282 + d.toNat * 1048576 + a.toNat * 8192
  | .vcmpeq d a b => 1342177283 + d.toNat * 1048576 + a.toNat * 8192 + b.toNat * 64
  | .vcmplt d a b => 1342177284 + d.toNat * 1048576 + a.toNat * 8192 + b.toNat * 64
  | .vcmple d a b => 1342177285 + d.toNat * 1048576 + a.toNat * 8192 + b.toNat * 64
  | .vfcmpeq d a b => 1342177286 + d.toNat * 1048576 + a.toNat * 8192 + b.toNat * 64
  | .vfcmplt d a b => 1342177287 + d.toNat * 1048576 + a.toNat * 8192 + b.toNat * 64
  | .vfcmple d a b => 1342177288 + d.toNat * 1048576 + a.toNat * 8192 + b.toNat * 64
  | .vsel d a b => 1342177289 + d.toNat * 1048576 + a.toNat * 8192 + b.toNat * 64
  | .vtrn d a => 1342177290 + d.toNat * 1048576 + a.toNat * 8192
  | .vbcr d a b => 1342177291 + d.toNat * 1048576 + a.toNat * 8192 + b.toNat * 64
  | .vshuf d a b => 1342177292 + d.toNat * 1048576 + a.toNat * 8192 + b.toNat * 64
  | .vmov d a => 1342177293 + d.toNat * 1048576 + a.toNat * 8192
  | .vrot d a b => 1342177294 + d.toNat * 1048576 + a.toNat * 8192 + b.toNat * 64
  | .vpck d a b => 1342177295 + d.toNat * 1048576 + a.toNat * 8192 + b.toNat * 64
  | .vupk d a => 1342177296 + d.toNat * 1048576 + a.toNat * 8192
  | .viota d => 1342177297 + d.toNat * 1048576
  | .vget d a b => 1342177298 + d.toNat * 1048576 + a.toNat * 8192 + b.toNat * 64
  | .vput d a b => 1342177299 + d.toNat * 1048576 + a.toNat * 8192 + b.toNat * 64
  | .vsete d v => 1342177300 + d.toNat * 1048576 + v.toNat * 64
  | .tld t a o => 1476395008 + t.toNat * 1048576 + a.toNat * 16384 + o.toNat
  | .tst t a o => 1476396032 + t.toNat * 1048576 + a.toNat * 16384 + o.toNat
  | .tlds t a o => 1476397056 + t.toNat * 1048576 + a.toNat * 16384 + o.toNat
  | .tsts t a o => 1476398080 + t.toNat * 1048576 + a.toNat * 16384 + o.toNat
  | .tstm t a m => 1476399104 + t.toNat * 1048576 + a.toNat * 16384 + m.toNat
  | .tlook d a => 1476400128 + d.toNat * 1048576 + a.toNat * 16384
  | .tins d a b => 1476401152 + d.toNat * 1048576 + a.toNat * 16384 + b.toNat
  | .tevt d a => 1476402176 + d.toNat * 1048576 + a.toNat * 16384
  | .tagrd d a => 1476403200 + d.toNat * 1048576 + a.toNat * 16384
  | .mma c a b s z x m => 1610612736 + c.toNat * 2097152 + a.toNat * 16384 + b.toNat * 1024 + s.toNat * 32 + z.toNat * 16 + x.toNat * 8 + m.toNat
  | .mldb a b s z x => 1627389952 + a.toNat * 16384 + b.toNat * 1024 + s.toNat * 32 + z.toNat * 16 + x.toNat * 8
  | .mdrn c d q s => 1644167168 + c.toNat * 2097152 + d.toNat * 16384 + q.toNat * 2048 + s.toNat * 32
  | .mzero c k m => 1660944384 + c.toNat * 2097152 + k.toNat * 8 + m.toNat
  | .mfmt n a => 1677721600 + n.toNat * 1048576 + a.toNat * 16384
  | .mhst b => 1694498816 + b.toNat * 4194304
  | .cpt a b s g h => 1744830464 + a.toNat * 262144 + b.toNat * 4096 + s.toNat * 256 + g.toNat * 2 + h.toNat
  | .cpa a b s g h => 1761607680 + a.toNat * 262144 + b.toNat * 4096 + s.toNat * 256 + g.toNat * 2 + h.toNat
  | .cpm a b s g => 1778384896 + a.toNat * 262144 + b.toNat * 4096 + s.toNat * 256 + g.toNat * 2
  | .cpl a b l => 1795162112 + a.toNat * 262144 + b.toNat * 4096 + l.toNat
  | .cpk a b s g h => 1811939328 + a.toNat * 262144 + b.toNat * 4096 + s.toNat * 256 + g.toNat * 2 + h.toNat
  | .sbini a s => 1828716544 + a.toNat * 262144 + s.toNat * 256
  | .sbarr a s => 1845493760 + a.toNat * 262144 + s.toNat * 256
  | .sbwt s l p => 1862270976 + s.toNat * 256 + l.toNat * 2 + p.toNat
  | .run g b c => 1879048192 + g.toNat * 2097152 + b.toNat * 2048 + c.toNat * 8
  | .runs g b c _ => 1887436800 + g.toNat * 2097152 + b.toNat * 2048 + c.toNat * 8
  | .loopb g a n _ => 1895825408 + g.toNat * 2097152 + a.toNat * 32768 + n.toNat
  | .pace g p => 1904214016 + g.toNat * 2097152 + p.toNat
  | .sigt t => 1912602624 + t.toNat
  | .waitt l t => 1920991232 + l.toNat * 32 + t.toNat
  | .guard g p h w v s u => 1929379840 + g.toNat * 2097152 + p.toNat * 131072 + h.toNat * 65536 + w.toNat * 2048 + v.toNat * 1024 + s.toNat * 32 + u.toNat * 16
  | .pset p a => 1937768448 + p.toNat * 131072 + a.toNat * 2048
  | .pinv p => 1946157056 + p.toNat * 131072
  | .qdrn g l => 1954545664 + g.toNat * 2097152 + l.toNat
  | .qseq g d s => 1962934272 + g.toNat * 2097152 + d.toNat * 32768 + s.toNat * 16384
  | .tblw g a b => 1971322880 + g.toNat * 2097152 + a.toNat * 32768 + b.toNat * 512
  | .lsend r a => 2013265920 + r.toNat * 2097152 + a.toNat * 32768
  | .lrecv r d => 2021654528 + r.toNat * 2097152 + d.toNat * 32768
  | .bar b => 2030043136 + b.toNat * 1048576
  | .barw b l => 2038431744 + b.toNat * 1048576 + l.toNat
  | .chwr c a => 2046820352 + c.toNat * 32768 + a.toNat * 512
  | .chrd c d k => 2055208960 + c.toNat * 32768 + d.toNat * 512 + k.toNat * 32
  | .chpop c => 2063597568 + c.toNat * 32768
  | .nodeq a => 2071986176 + a.toNat * 131072
  | .glnch a => 2080374784 + a.toNat * 131072
  | .heldBundleIssue => 0
  | .waitEnd => 0
  | .waitexp => 0
  | .queueEntryStart => 0
  | .entryCompletion => 0
  | .untimedResultLand => 0
  | .timedCopyPerform _ => 0
  | .multicastPerform _ => 0
  | .cplPerform _ => 0
  | .sequenceStampPerform _ => 0
  | .instantStart => 0
  | .instantCommit => 0
  | .swapComplete => 0
  | .preemptResume => 0
  | .stagedWriteApply => 0
  | .barrierRelease _ => 0
  | .recoveryRegionOpen => 0
  | .recoveryRegionClose => 0
  | .tlbWalkComplete _ _ _ => 0
  | .tlbInvalidate _ _ => 0
  | .freeze => 0
  | .regionStop => 0
  | .rollbackRestart => 0
  | .nodeRequeue => 0
  | .killDrainComplete => 0
  | .killDrainTimeout => 0
  | .heartbeatMissed => 0
  | .quantumExpiry => 0
  | .graphCheck => 0
  | .nodeReady _ _ => 0
  | .gangLaunch _ _ => 0
  | .nodeCompletion => 0
  | .coalescingWindowClose => 0
  | .powerStateChange _ _ => 0
  | .powerDeadlineExpiry => 0
  | .twilightWindowEnd => 0
  | .energyUpdate => 0
  | .thrrsn _ => 0
  | .enlo _ => 0
  | .pwrack => 0
  | .errinj _ => 0
  | .undoa _ => 0
  | .errcnt _ _ => 0
  | .quota _ => 0
  | .powercap _ => 0
  | .resetreq _ => 0
  | .fwctl _ => 0
  | .firmwareHeartbeat => 0
  | .updateHeartbeatTimeout => 0
  | .hopen _ _ => 0
  | .hflags _ _ => 0
  | .submit _ _ => 0
  | .kill _ _ => 0
  | .hcmdMap _ _ => 0
  | .hcmdUnmap _ _ => 0
  | .hcmdAllocateMap _ _ => 0
  | .hcmdRegisterKey _ _ => 0
  | .registerWrite _ _ => 0
  | .hostMemoryAccess _ _ _ _ => 0
  | .getMeasurements => 0
  | .linkTraining _ _ _ => 0
  | .flitReceive _ _ _ _ _ _ _ _ => 0
  | .routeDown _ => 0
  | .ptmExchange _ => 0
  | .dawn => 0
  | .stampGloballyVisible _ => 0
  | .updateSignatureCheck => 0
  | .routingTableWrite _ _ => 0

/-- The literal word that follows a literal-taking instruction (R35); 0 for the others, which have none. -/
def Instr.literal : Instr → Word
  | .sege lit => lit
  | .runs _ _ _ lit => lit
  | .loopb _ _ _ lit => lit
  | _ => 0

/-- The word's code is that of a literal-taking instruction: SEGE, RUNS or LOOPB (R35). -/
def takesLiteral (w : Nat) : Bool := fld w 23 8 = 57 ∨ fld w 23 8 = 225 ∨ fld w 23 8 = 226

/-- The slot group of a word: 0 S, 1 M, 2 Q (R32). -/
def slotGroup (w : Nat) : Nat :=
  match fld w 27 4 with
  | 4 => 1 | 11 => 1 | 12 => 1 | 13 => 1
  | 8 => 2 | 9 => 2 | 10 => 2 | 14 => 2 | 15 => 2
  | _ => 0

/-- The host's question: what the decoder reads from an instruction whose bits are w, the first word in bits 31 to 0 and
the literal, where there is one, in bits 63 to 32. -/
def decodeTableWord (nbits w : Nat) : Option Instr :=
  let v := w % 2 ^ nbits
  match decode (v % 2 ^ 32) (BitVec.ofNat 32 (v / 2 ^ 32)) with
  | .ok i => some i
  | .error _ => none

end Sys2Proof
end

