-- ==== Sys2Proof/Config.lean ====
section
/-! DEFINITION. What timing model 0x0100 and the KX1536 fix, and the free values the spec leaves open. -/

namespace Sys2Proof.Config

/-- Words of the control-stream memory (R36). -/
def codeWords : Nat := 8192
/-- Words of the firmware's trap handler (R374; assumptions 62). -/
def handlerLen : Nat := 77
/-- Words of the micro-order table of engine e: 0 MX, 1 VX, 2 CP (R43). -/
def tableWords (e : Nat) : Nat := if e = 1 then 1024 else 256
/-- Bytes of one scratchpad (R220). -/
def spadBytes : Nat := 0x50000
/-- First offset of the trap save area (R220). -/
def saveArea : Nat := 0x4FE00
/-- Offset of the launch block (R276). -/
def launchBlock : Nat := 0x4FD00
/-- Entries of one queue (R18). -/
def queueDepth : Nat := 32
/-- Entries of the staging buffer (R223). -/
def stagingEntries : Nat := 1024
/-- Outstanding untimed loads and atomics (R152). -/
def untimedMax : Nat := 16
/-- Entries of a core TLB, and how many may be locked (R219, R235). -/
def tlbEntries : Nat := 64
def tlbLockMax : Nat := 48
/-- Entries of a die TLB, walks at once, merged accesses per die (R236). -/
def dieTlbEntries : Nat := 8192
def walkMax : Nat := 256
def mergeMax : Nat := 4096
/-- Entries of a neighbour inbox (R199). -/
def inboxDepth : Nat := 8
/-- Release delay of the barrier tree, of the commit and of the freeze (R29, R292). -/
def treeDelay : Nat := 48
/-- Resynchronisation margin after a rollback or a handler (R29, R312, R315). -/
def resyncMargin : Nat := 64
/-- Visibility bound on HBM and LPDDR 6 (R259). -/
def visibleBound : Nat := 20000
/-- Divider latency and occupancy (R59). -/
def divCycles : Nat := 18
/-- Graphs held by the firmware (R264). -/
def graphMax : Nat := 256
/-- Package grid (R1). -/
def gridW : Nat := 48
def gridH : Nat := 32
/-- The one timing model the KX1536 lists (R29). -/
def tmid : Nat := 0x0100
/-- Highest host ABI and Wyrex Link versions (R347). -/
def abiVersion : Nat := 0x0102
def linkVersion : Nat := 0x0102
/-- Fixed bytes of a save image per core, and bytes of one open snapshot (R322). -/
def saveFixed : Nat := 73728
def saveSnapshot : Nat := 1024
/-- Bytes of one core's save image with every item at its largest size (R322). -/
def saveMax : Nat := saveFixed + 4 * saveSnapshot + 0x10000 + 16 * stagingEntries + 16 * 64 + 4368 * 96 + 2048 * 8 + spadBytes
/-- Reset value of VCTL: SFMT 6, MXF 1, EW 2 (R114). -/
def vctlReset : Nat := 0x6110
/-- Fractional units of one nanosecond in the DTIME accumulator: a slew is counted in ppm (R352). -/
def dtUnit : Nat := 1000000
/-- Entries of one die's journal ring kept by the model (R357; assumptions 10). -/
def journalRing : Nat := 1024

/-- FREE VALUES: the n-th value the spec leaves open (a duration, a Twilight band output, an energy
amount, a calibrated code). No body: nothing can evaluate it or prove a value of it (assumptions 3). -/
opaque freeNat : Nat → Nat

/-- What the n-th VOF image that the loader reads holds: the number at a field, an index and an index in it. The layout of an image is
not given, so what stands in one is free (R50; assumptions 7). -/
opaque freeImage : Nat → Nat → Nat → Nat → Nat
/-- What the n-th firmware image that the host stages holds (R359; assumptions 5). -/
opaque freeFirmware : Nat → Nat → Nat
/-- Word n of the firmware's trap handler past what it does on TRAP 0xE010 (R374; assumptions 62). -/
opaque handlerWord : Nat → BitVec 32
/-- The ring of a die's event journal in HBM (R357; assumptions 10). -/
opaque journalBase : Nat → Nat
/-- The version of the body of a capability entry (R346; assumptions 61). -/
opaque capVersion : Nat → Nat
/-- Measurement i, of what it measures as a number (R354; assumptions 5). -/
opaque measure : Nat → Nat → Nat

end Sys2Proof.Config
end

