-- ==== Sys2Proof/Machine/SMap.lean ====
section
/-! DEFINITION. Sparse maps in one canonical form: keys strictly rising, and no entry equal to the value an unlisted
key reads as. Every register file and every memory of the machine is one. -/

namespace Sys2Proof.Machine

/-- A sparse map from numbers to values; memories are SMap Byte, that is, lists of Host.Cell. -/
abbrev SMap (α : Type) := List (Nat × α)

/-- The value at key k, or the value d that an unlisted key reads as. -/
def SMap.get {α : Type} (d : α) : SMap α → Nat → α
  | [], _ => d
  | (a, v) :: m, k => if a = k then v else SMap.get d m k

/-- Put v at key k, before the first larger key. -/
def SMap.insert {α : Type} (k : Nat) (v : α) : SMap α → SMap α
  | [] => [(k, v)]
  | (a, b) :: m => if k < a then (k, v) :: (a, b) :: m else if k = a then (k, v) :: m else (a, b) :: SMap.insert k v m

/-- Drop every entry of key k. -/
def SMap.erase {α : Type} (k : Nat) : SMap α → SMap α
  | [] => []
  | (a, b) :: m => if a = k then SMap.erase k m else (a, b) :: SMap.erase k m

/-- Write v at key k: the value an unlisted key reads as removes the entry. -/
def SMap.set {α : Type} [DecidableEq α] (d : α) (m : SMap α) (k : Nat) (v : α) : SMap α :=
  if v = d then SMap.erase k m else SMap.insert k v m

/-- Every key of the map is above b, and each is above the one before it. -/
def SMap.sortedAbove {α : Type} (b : Nat) : SMap α → Bool
  | [] => true
  | (a, _) :: m => decide (b < a) && SMap.sortedAbove a m

/-- The keys rise strictly. -/
def SMap.sorted {α : Type} : SMap α → Bool
  | [] => true
  | (a, _) :: m => SMap.sortedAbove a m

/-- No entry holds the value that an unlisted key reads as. -/
def SMap.noDefault {α : Type} [DecidableEq α] (d : α) : SMap α → Bool
  | [] => true
  | (_, v) :: m => decide (v ≠ d) && SMap.noDefault d m

/-- The canonical form: strictly rising keys and no default entry. -/
def SMap.wf {α : Type} [DecidableEq α] (d : α) (m : SMap α) : Bool := SMap.sorted m && SMap.noDefault d m

/-- Write every pair of a list, first to last. -/
def SMap.setAll {α : Type} [DecidableEq α] (d : α) (m : SMap α) : List (Nat × α) → SMap α
  | [] => m
  | (k, v) :: l => SMap.setAll d (SMap.set d m k v) l

/-- The map that holds a list's pairs, in canonical form. -/
def SMap.ofList {α : Type} [DecidableEq α] (d : α) (l : List (Nat × α)) : SMap α := SMap.setAll d [] l

/-- The canonical form of a memory: what an unlisted byte reads as is 0 (R275; assumptions 4). -/
def Memory.wf (m : SMap Byte) : Bool := SMap.wf 0 m

end Sys2Proof.Machine
end

