-- ==== Sys2Proof/Machine/State.lean ====
section
/-! DEFINITION. The whole state of the KX1536 as plain data: every core, every region, the package and its host interface,
and the reset state. -/

namespace Sys2Proof.Machine

/-- Reasons a step stops with a fault. Every trap of the spec is a next state (R304 to R325), so no step raises one. -/
inductive Fault where
  /-- Raised by no meaning and by no step: it only closes the type. Safe: a stop where the hardware goes on. -/
  | noFault
  deriving DecidableEq, Repr

/-- Reasons a step refuses. -/
inductive Refusal where
  /-- Raised by an arm of exec whose instruction has no meaning yet; none is left. Safe: nothing is claimed of it. -/
  | notModelled (mnemonic : String)
  deriving DecidableEq, Repr

/-- A scalar register: value, clock tag, uncorrectable-error mark (R8, R10, R321). -/
structure Reg where
  val : DWord := 0
  tag : Tag := 0
  bad : Bool := false
  deriving DecidableEq, Repr

/-- A clock register (R14, R82, R89). -/
structure Clock where
  defined : Bool := false
  present : Bool := false
  parent : Tag := 0
  partner : Tag := 0
  pv : Bool := false
  neg : Bool := false
  deriving DecidableEq, Repr

/-- A predicate slot (R15). -/
structure Pred where
  value : Bool := false
  written : Bool := false
  deriving DecidableEq, Repr

/-- A delay register; launch has it on clock k1 (R8, R16). -/
structure Delay where
  committed : DWord := 0
  staged : DWord := 0
  has : Bool := false
  clk : Tag := 1
  deriving DecidableEq, Repr

/-- One accumulator element: special state (0 none, 1 NaN, 2 +Inf, 3 -Inf), exponent, window (R13), uncorrectable-error mark (R221). -/
structure AccElem where
  spec : BitVec 2 := 0
  exp : BitVec 10 := 0
  win : BitVec 48 := 0
  bad : Bool := false
  deriving DecidableEq, Repr

/-- A stage barrier (R20, R196). -/
structure StageBar where
  expected : Word := 0
  delivered : Word := 0
  phase : Bool := false
  deriving DecidableEq, Repr

/-- A running loop: level, body words [first, stop), trip count, iteration, bundles of the body (R68 to R70). -/
structure LoopRun where
  level : Nat
  first : Nat
  stop : Nat
  count : Nat
  iter : Nat
  len : Nat
  deriving DecidableEq, Repr

/-- An open timed segment: SEGB's cycle, declared length and divisor, running CRC, address of the SEGB (R73 to R75, R295). -/
structure Seg where
  start : Nat
  len : Nat
  div : Nat
  crc : Word
  pc : Nat
  deriving DecidableEq, Repr

/-- What a held control stream waits for (R155, R162 to R164, R79, R182, R184, R197, R200, R206, R208, R219). -/
inductive WaitKind where
  | lwait (d : Nat)
  | mwait (d : Nat) (addr : Nat) (target : DWord) (tag : Tag) (keys : List Nat) (ord : Nat)
  | qwait (ch : Nat)
  | waitt (tok : Nat)
  | qdrn (eng : Nat)
  | sbwt (sb : Nat) (phase : Bool)
  | barw (bt : Nat)
  | rbegin (arrived : Bool)
  | rend (arrived : Bool)
  | fence
  | tlblk (lo : Nat) (len : Nat)
  deriving DecidableEq, Repr

/-- A wait in progress: issue cycle and expiry as CYC; no expiry for a fence, TLBLK and the REND that KEND performs. -/
structure Wait where
  kind : WaitKind
  since : Nat
  due : Option Nat
  deriving DecidableEq, Repr

/-- A queue entry (R172, R293); word holds the word of a one-step entry (R42); faulted marks a timed one whose start has raised SCHED
(R173). -/
structure QEntry where
  stamp : Nat
  base : Nat
  count : Nat
  reps : Nat
  guard : Option Nat
  wtok : Option Nat
  stok : Option Nat
  timed : Bool
  instant : Nat
  word : Option Word
  faulted : Bool := false
  deriving DecidableEq, Repr

/-- An entry whose steps have all dequeued and that has not completed: its latest fixed landing, its untimed copies
still out, the token it signals, and whether it is timed (R175). -/
structure Finishing where
  serial : Nat
  seq : Word
  doneAt : Nat
  copies : Nat
  stok : Option Nat
  timed : Bool
  deriving DecidableEq, Repr

/-- A TLB entry: virtual base and size of the page, context, leaf entry, lock (R235, R238). -/
structure TlbEnt where
  base : Nat
  size : Nat
  ctx : Nat
  pte : DWord
  locked : Bool
  deriving DecidableEq, Repr

/-- One engine: queue, running entry's step and remaining passes, pacing, sequence number, next dequeue cycle, h of the
entry before, pending GUARD attributes, entries finishing, stop marks of a freeze, and the translations that the copy step at
its head has collected, with the addresses whose walk found none (R18, R172 to R181, R235, R236, R304). -/
structure Engine where
  queue : List QEntry := []
  running : Bool := false
  step : Nat := 0
  rep : Nat := 0
  due : Nat := 0
  headSeq : Word := 0
  doneAt : Nat := 0
  copies : Nat := 0
  pace : Nat := 0
  seq : Word := 0
  freeAt : Nat := 0
  lastH : Option Nat := none
  aGuard : Option Nat := none
  aWait : Option Nat := none
  aSig : Option Nat := none
  finishing : List Finishing := []
  serial : Nat := 0
  blocked : Bool := false
  stopped : Bool := false
  xl : List TlbEnt := []
  xm : List Nat := []
  deriving DecidableEq, Repr

/-- The part of an untimed access that lies in one page: its first byte's place in the access, its physical bytes, the page's
ordering kind (0 S, 1 R, 2 U), and its value and error mark once memory has served it (R154, R242, R261). -/
structure UPart where
  off : Nat
  keys : List Nat
  ord : Nat
  got : Option (Nat × Bool)
  deriving DecidableEq, Repr

/-- An untimed load or atomic in flight (R152): destination, tag, size, sign, address, parts, bytes forwarded, atomic code and
operands; what it lands once every part is served; its issue cycle; the serial below which every access precedes it (R246).
op 0 is a load, n + 1 is AMO sub n. -/
structure Untimed where
  serial : Nat
  d : Nat
  tag : Tag
  size : Nat
  signed : Bool
  va : Nat
  parts : List UPart
  fwd : List (Nat × Byte × Bool)
  op : Nat
  b : DWord
  cmp : DWord
  served : Option (DWord × Bool × Nat)
  issue : Nat
  after : Nat
  deriving DecidableEq, Repr

/-- One byte of a staged write: virtual address, key of the physical byte, value (R153, R223). -/
structure StByte where
  va : Nat
  key : Nat
  val : Byte
  deriving DecidableEq, Repr

/-- What a staging entry holds (R223, R162). -/
inductive StKind where
  | store
  | afadd (x : Word)
  | acell
  | nodeq (rec : Nat)
  | glnch (rec : Nat)
  | mark
  deriving DecidableEq, Repr

/-- A staging entry: kind, bytes, the recovery level it is held for (0 none), uncorrectable-error mark (R221, R223). Entries stand in
the order in which they were staged. -/
structure StEntry where
  kind : StKind
  bytes : List StByte
  level : Nat
  bad : Bool := false
  deriving DecidableEq, Repr

/-- A tag-table entry (R170). -/
structure TagEnt where
  valid : Bool := false
  pend : Bool := false
  slot : BitVec 10 := 0
  key : BitVec 48 := 0
  deriving DecidableEq, Repr

/-- A record of the undo arena (R224, R225): its level, kind, first and last, offset in scratchpad and payload bytes. -/
structure UndoRec where
  level : Nat
  kind : Nat
  first : Nat
  last : Nat
  off : Nat
  len : Nat
  deriving DecidableEq, Repr

/-- The open snapshot of a recovery level (R313). -/
structure Snapshot where
  sOpen : Nat
  instant : Nat
  clocks : SMap Clock
  preds : SMap Pred
  delays : SMap Delay
  loops : List LoopRun
  tokens : SMap Nat
  bars : SMap StageBar
  btPhase : SMap Bool
  safept : Option Nat := none
  deriving DecidableEq, Repr

/-- A recovery level of one core: restart address, engine step counters, arena top at the open, retries and limit,
open snapshot (R206, R210, R313). -/
structure Level where
  restart : Nat
  stepMx : Nat
  stepVx : Nat
  stepCp : Nat
  top : Nat
  retries : Nat
  limit : Nat
  snap : Snapshot
  deriving DecidableEq, Repr

/-- The modes of R204. -/
inductive Mode where
  | user
  | system
  deriving DecidableEq, Repr

/-- One core: its program-visible state (R8, R215, R220, R223, R170, R235, R299) and the control core's own (R36 to R79). -/
structure Core where
  regs : SMap Reg := []
  rows : SMap Row := []
  rowBad : SMap Word := []
  sides : SMap Row := []
  sideBad : SMap Word := []
  tileTag : SMap Tag := []
  tileFull : SMap Bool := []
  accs : SMap AccElem := []
  accTag : SMap Tag := []
  slotCols : SMap Row := []
  slotSides : SMap Row := []
  slotBad : SMap Bool := []
  slotTag : SMap Tag := []
  clocks : SMap Clock := []
  preds : SMap Pred := []
  delays : SMap Delay := []
  delaySnap : SMap Delay := []
  loops : List LoopRun := []
  loopsOld : List LoopRun := []
  tokens : SMap Nat := []
  bars : SMap StageBar := []
  btPhase : SMap Bool := []
  btArr : SMap Bool := []
  btOwed : SMap Bool := []
  fmt : SMap Word := []
  hist : SMap Word := []
  csrs : SMap DWord := []
  errRem : Nat := 0
  enhi : Word := 0
  mode : Mode := .user
  inHandler : Bool := false
  pc : Nat := 0
  issPc : Nat := 0
  npc : Nat := 0
  ncost : Nat := 1
  xfer : Nat := 0
  instPc : Nat := 0
  nextAt : Nat := 0
  held : Bool := false
  missed : List Nat := []
  trapped : Bool := false
  waits : List Wait := []
  waitsSaved : List Wait := []
  nextSaved : Nat := 0
  pcSaved : Nat := 0
  issSaved : Nat := 0
  seg : Option Seg := none
  segSaved : Option Seg := none
  segBuf : List (Nat × Nat) := []
  divFree : Nat := 0
  div : SMap Nat := []
  divNext : SMap Nat := []
  untimed : List Untimed := []
  serial : Nat := 0
  fencedAt : Nat := 0
  arrived : Bool := false
  arrCyc : Nat := 0
  kend : Bool := false
  kendPend : Bool := false
  ended : Bool := false
  safept : Option Nat := none
  mx : Engine := {}
  vx : Engine := {}
  cp : Engine := {}
  tables : SMap Word := []
  pendAcc : SMap Nat := []
  pendSlot : SMap Nat := []
  copyCount : DWord := 0
  spad : SMap Byte := []
  spadBad : SMap Bool := []
  staging : List StEntry := []
  aliased : Bool := false
  chStaged : List (Nat × Nat × DWord) := []
  chPops : SMap Nat := []
  tagTab : SMap TagEnt := []
  tlb : List TlbEnt := []
  inboxN : List DWord := []
  inboxE : List DWord := []
  inboxS : List DWord := []
  inboxW : List DWord := []
  undo : List UndoRec := []
  undoTop : Nat := 0
  levels : List Level := []
  pendLimit : Nat := 0
  deriving DecidableEq, Repr

/-- A place a byte lives in: a core's scratchpad, or a tier byte by its key tier·2^51 + address (R226, R241). -/
inductive Loc where
  | sp (core : Nat) (off : Nat)
  | gm (key : Nat)
  deriving DecidableEq, Repr

/-- Where a moved element comes from (R98, R99, R189): bits from a bit on, of the bytes listed; a constant; an element
expanded or folded to E4M3, the fold with the place of its scale byte; or nowhere, as the route to it went down (R351). -/
inductive MvSrc where
  | elem (bytes : List Loc) (bit : Nat)
  | const (v : Nat)
  | expand (fmt : Nat) (bytes : List Loc) (bit width : Nat)
  | fold (fmt : Nat) (bytes : List Loc) (bit width : Nat) (scale : Option Loc)
  | lost
  deriving DecidableEq, Repr

/-- One element of a copy: where it comes from, and the bits it lands in, counted in the bytes listed (R189, R190). -/
structure Mv where
  src : MvSrc
  dst : List Loc
  bit : Nat
  width : Nat
  deriving DecidableEq, Repr

/-- A value ready to land: bytes, bit position, width, value, error mark, flags of a fold (R190, R321). -/
structure MvVal where
  dst : List Loc
  bit : Nat
  width : Nat
  val : Nat
  bad : Bool
  flags : Nat
  deriving DecidableEq, Repr

/-- A copy in flight (R186 to R195): its dequeue cycle, whether it writes outside its cluster, moves, sampled values, delivered
bytes, barriers credited, stamp address, the translations of its bytes, node record; of an untimed one, whether its payload has its place
(taken) and has performed (paid), whether it reads an S page, whether its stamp was lost with a route (R351), the moves that come after
those that take effect ahead of a timed copy (rest), and whether it does so now (rush; R245). -/
structure Copy where
  serial : Nat
  core : Nat
  seq : Word
  since : Nat
  outside : Bool
  paid : Bool
  readsS : Bool
  moves : List Mv
  vals : List MvVal
  credits : List (Nat × Nat)
  sb : Nat
  stampTo : List Loc
  stampVal : DWord
  pages : List TlbEnt
  nodeRec : Option Nat
  late : Bool
  timed : Bool
  taken : Bool := false
  lost : Bool := false
  rest : List Mv := []
  rush : Bool := false
  deriving DecidableEq, Repr

/-- What a trap reports (R307, R309): code, core, engine (0 MX, 1 VX, 2 CP, 3 control core, 4 none) and the named values. -/
structure FaultInfo where
  code : Nat
  core : Nat := 0
  eng : Nat := 3
  info : Nat := 0
  next : Bool := false
  wobj : Nat := 0
  wval1 : Nat := 0
  wval2 : Nat := 0
  faddr : Nat := 0
  fseq : Nat := 0
  timed : Bool := false
  deriving DecidableEq, Repr

/-- The first fault of a region, its cycle and context values at F, and the count of the window (R302, R305, R307). -/
structure FaultWin where
  first : FaultInfo
  cyc : Nat
  count : Nat
  other : DWord
  ibase : Nat
  instant : Nat
  dtime : Nat
  rdepth : Nat
  pseg : Bool
  inh : Bool
  deriving DecidableEq, Repr

/-- Who a step acts for: the control core or an engine of the current core (R42). -/
inductive Actor where
  | control
  | engine (e : Nat)
  deriving DecidableEq, Repr

/-- One plain update of one core. Every change a meaning makes to a core is one of these. -/
inductive CAct where
  | reg (r : Nat) (v : DWord) (tag : Tag) (bad : Bool)
  | row (t i : Nat) (v : Row) (bad : Word)
  | side (t : Nat) (v : Row) (bad : Word)
  | rowPart (t i lo n v : Nat)
  | sidePart (t lo n v : Nat)
  | rowMark (t i : Nat) (bad : Word)
  | sideMark (t : Nat) (bad : Word)
  | tileTag (t : Nat) (tag : Tag)
  | tileFull (t : Nat) (full : Bool)
  | acc (c i j : Nat) (e : AccElem)
  | accTag (c : Nat) (tag : Tag)
  | slotCol (b j : Nat) (v : Row)
  | slotRow (b i w : Nat) (v : Row) (bad : Bool)
  | slotSide (b : Nat) (v : Row) (bad : Bool)
  | slotTag (b : Nat) (tag : Tag)
  | clock (k : Nat) (v : Clock)
  | clocksClear
  | pred (p : Nat) (v : Pred)
  | predUnwrite (p : Nat)
  | delayInit (x : Nat) (v : DWord) (k : Tag)
  | delayStage (x : Nat) (v : DWord)
  | delayCommit
  | delaySnap
  | delayRestore
  | loops (l : List LoopRun)
  | loopsOld (l : List LoopRun)
  | segBuf (l : List (Nat × Nat))
  | tokenSub (t : Nat)
  | token (t : Nat) (n : Nat)
  | bar (b : Nat) (v : StageBar)
  | btPhase (b : Nat) (v : Bool)
  | btArr (b : Nat) (v : Bool)
  | btOwed (b : Nat) (v : Bool)
  | fmt (n : Nat) (v : Word)
  | hist (n : Nat) (v : Word)
  | csr (n : Nat) (v : DWord)
  | orFlags (v : Nat)
  | errRem (n : Nat)
  | enhi (v : Word)
  | mode (m : Mode)
  | inHandler (v : Bool)
  | pc (v : Nat)
  | issPc (v : Nat)
  | npc (v : Nat) (cost : Nat)
  | xfer (v : Nat)
  | instPc (v : Nat)
  | nextAt (v : Nat)
  | held (v : Bool)
  | missed (va : Nat)
  | trapped (v : Bool)
  | stepDone (e occ done copies : Nat)
  | wait (w : Wait)
  | waits (l : List Wait)
  | saved (w : List Wait) (next pc iss : Nat)
  | seg (v : Option Seg)
  | segSaved (v : Option Seg)
  | crc (bytes : List Nat)
  | divFree (v : Nat)
  | div (u n : Nat)
  | divNext (u n : Nat)
  | untimedPush (u : Untimed)
  | untimedSet (l : List Untimed)
  | fencedAt (n : Nat)
  | arrived (v : Bool) (cyc : Nat)
  | kend (v : Bool)
  | kendPend (v : Bool)
  | ended (v : Bool)
  | safept (v : Option Nat)
  | engPush (e : Nat) (q : QEntry)
  | engAttr (e : Nat) (g w t : Option Nat)
  | engPace (e : Nat) (gap : Nat)
  | eng (e : Nat) (v : Engine)
  | table (e i : Nat) (w : Word)
  | pendAcc (c : Nat) (until_ : Nat)
  | pendSlot (b : Nat) (until_ : Nat)
  | copyCount (v : DWord)
  | spad (off : Nat) (bytes : List Byte)
  | spadBad (off : Nat) (n : Nat) (v : Bool)
  | stagePush (e : StEntry)
  | staging (l : List StEntry)
  | aliased (v : Bool)
  | chStage (ch cyc : Nat) (v : DWord)
  | chStagedClear
  | chPop (ch : Nat)
  | chPopsClear
  | tagEnt (i : Nat) (v : TagEnt)
  | tlb (l : List TlbEnt)
  | inboxPush (dir : Nat) (v : DWord)
  | inboxPop (dir : Nat)
  | inboxClear
  | undoPush (r : UndoRec) (top : Nat)
  | undo (l : List UndoRec) (top : Nat)
  | levels (l : List Level)
  | pendLimit (n : Nat)
  | bumpSerial
  | clear
  deriving DecidableEq, Repr

/-- Something due in a region's own time (R23): a landing of fixed updates, or work that reads state in its cycle. -/
inductive Item where
  /-- Results that land (R24). -/
  | land (core : Nat) (acts : List CAct)
  /-- A timed load or atomic of an address samples (R150); op as in Untimed. -/
  | sample (core target off addr size : Nat) (signed : Bool) (d : Nat) (tag : Tag) (op : Nat) (b cmp : DWord) (land : Nat)
      (timed : Bool)
  /-- A scratchpad store performs (R150, R151); bad marks a source that carried an error. -/
  | perform (core target off : Nat) (bytes : List Byte) (bad : Bool)
  /-- A tile row is sampled from scratchpad (R167). -/
  | tldRow (core t off r : Nat) (sidecar : Bool) (land : Nat)
  /-- A tile row is read for a tile store: bytes start to start + n of row r, to scratchpad offset off (R167, R168). -/
  | tstRow (core t off r start n : Nat) (sidecar : Bool) (land : Nat)
  /-- Row i of a vector step is read and its result scheduled (R112). -/
  | vxRow (core : Nat) (i : Instr) (row : Nat) (bsel ctl : DWord) (land : Nat)
  /-- A step that reads its whole source at once (R112): row i lands at land + i·mul. -/
  | vxWhole (core : Nat) (i : Instr) (bsel ctl : DWord) (rowen land mul : Nat)
  /-- VGET reads bits [lo + n - 1 : lo] of a row into scalar d (R127). -/
  | vget (core t row lo n d : Nat) (tag : Tag) (land : Nat)
  /-- Row i of an MLDB or MDRN is read (R134, R138); hist is the cycle of the histogram's counts. -/
  | mxRow (core : Nat) (i : Instr) (row : Nat) (fe : Word) (land hist : Nat)
  /-- An MMA adds its sums (position, special result, sum, adder exponent, error seen, free value) into its accumulator
  (R135, R144), for an entry of a sequence number; width is the adder's, 0 for INT8. -/
  | mmaLand (core c : Nat) (zero : Bool) (sums : List (Nat × Nat × Int × Int × Bool × Nat)) (width fid : Nat) (tag : Tag)
      (invalid : Bool) (seq : Nat) (timed : Bool)
  /-- Detections and band operations are counted after the CSR writes of the cycle (R330). -/
  | errCount (core fid ops det : Nat)
  /-- The drain histogram counts (R138), or a bank clears (R141). -/
  | histCount (core bank : Nat) (bins : List Nat)
  | histClear (core bank : Nat)
  /-- The tag table acts (R171). -/
  | tagAct (core : Nat) (fn d : Nat) (key b : DWord) (tag : Tag) (land : Nat)
  /-- A credit for a stage barrier lands (R196): owner, barrier, bytes, issuing core, engine, sequence number, timed. -/
  | sbInit (core b : Nat) (n : Nat)
  | credit (owner b bytes issuer eng seq : Nat) (timed : Bool)
  /-- A token increment (R175, R182). -/
  | tokenAdd (core t eng seq : Nat) (timed : Bool)
  /-- A link word arrives (R199). -/
  | linkWord (core dir : Nat) (v : DWord)
  /-- A copy samples its source (R191, R193). -/
  | copySample (core serial : Nat)
  /-- An untimed copy's payload performs (R192, R195). -/
  | payload (core serial : Nat)
  /-- A poisoned result of a load or atomic at an address falls due: UECC, and after the freeze the landing (R305, R321). -/
  | uecc (core addr d : Nat) (v : DWord) (tag : Tag) (timed : Bool)
  /-- A coupled tile's bit changes (R116, R145, R169). -/
  | full (core t : Nat) (v : Bool)
  /-- A CSR write lands field by field: kind 0 write, 1 set, 2 clear (R213). -/
  | csrWrite (core n kind : Nat) (v : DWord)
  /-- A retry limit is set (R210). -/
  | rpol (core n : Nat)
  /-- A row of the opcode table that falls due: the event, and the core and unit it acts for. -/
  | ev (core : Nat) (actor : Actor) (i : Instr)
  deriving DecidableEq, Repr

/-- The order of things due in one region: cycle, phase, issue cycle, CORENUM order, unit, word (R24, R34, R151, R192). -/
structure Key where
  due : Nat
  phase : Nat := 0
  issue : Nat := 0
  core : Nat := 0
  unit : Nat := 0
  word : Nat := 0
  deriving DecidableEq, Repr

/-- A timed copy's claim of links (R298): its place in the order of R192, its beats, the links of its route with the cycle from which it
holds each, and whether it has waited for one. -/
structure Claim where
  core : Nat
  serial : Nat
  key : Key
  beats : Nat
  legs : List (Nat × Nat)
  late : Bool := false
  deriving DecidableEq, Repr

/-- Something due in device cycles: a table event, or the untimed service of a load, a copy or a command. -/
inductive GItem where
  | ev (core : Nat) (i : Instr)
  | serve (core serial part : Nat)
  | result (core : Nat)
  | payload (core serial : Nat)
  | stamp (core serial : Nat)
  | hcmd (h op blk : Nat)
  | hcmdEnd (h status lo n : Nat)
  | write (l : List (Nat × Byte))
  deriving DecidableEq, Repr

/-- A value of a channel with its logical time (R286, R287). -/
structure ChVal where
  t : Nat
  c : Nat
  v : DWord
  deriving DecidableEq, Repr

/-- The phases of a region (R26, R302, R304, R311, R312, R315, R322, R325). -/
inductive RPhase where
  | none
  | loading
  | run
  | stopping
  | handler (core : Nat)
  | restoring (base : Nat)
  | resuming (at_ : Nat)
  | saving
  | out
  | killed
  | drained
  deriving DecidableEq, Repr

/-- A liveness descriptor (R50, R322). -/
structure Live where
  s : BitVec 64
  t : BitVec 96
  c : BitVec 8
  m : List (Nat × Nat)
  deriving DecidableEq, Repr

/-- A VOF image as the loader reads it (R49, R50, R267, R290, R296; assumptions 7). loops holds (kind, count) for levels 0 to
5: kind 0 absent, 1 T, 2 C, 3 D; tmaps holds each tensor map's offset in 256-byte units (R50); globals holds a buffer's address and bytes, and
whether it holds a cell (R373). -/
structure Vof where
  isaMajor : Nat := 1
  isaMinor : Nat := 0
  tmid : Nat := 0x0100
  w : Nat := 1
  h : Nat := 1
  dies : Nat := 1
  fidmax : Nat := 0
  rollback : Bool := false
  clkSrc : Nat := 1
  clkCh : Nat := 0
  period : Nat := 0
  loops : List (Nat × Nat) := []
  segs : List (Nat × Nat × Nat) := []
  code : List Word := []
  tabMx : List (Nat × List Word) := []
  tabVx : List (Nat × List Word) := []
  tabCp : List (Nat × List Word) := []
  fmt : List Word := []
  tmaps : List (Nat × List Byte) := []
  live : List Live := []
  locals : List (Nat × List Byte) := []
  globals : List (Nat × List Byte × Bool) := []
  signedBy : List Nat := []
  deriving DecidableEq, Repr

/-- A region: one context running one node (R25, R26, R267 to R281, R300 to R325, R334 to R341). -/
structure Region where
  phase : RPhase := .none
  ctx : Nat := 0
  gid : Nat := 0
  node : Nat := 0
  handle : Nat := 0
  w : Nat := 1
  h : Nat := 1
  dies : Nat := 1
  x0 : Nat := 0
  y0 : Nat := 0
  code : SMap Word := []
  fw : SMap Word := []
  fwAt : Nat := 0
  loopTab : List (Nat × Nat) := []
  segs : List (Nat × Nat × Nat) := []
  live : List Live := []
  tmaps : List Nat := []
  fidmax : Nat := 0
  rollback : Bool := false
  rst : Bool := false
  requeued : Bool := false
  cyc : Nat := 0
  ibase : Nat := 0
  instant : Nat := 0
  ltime : Nat := 0
  ltimeDone : Nat := 0
  between : Bool := true
  readyAt : Nat := 0
  commitDue : Option Nat := none
  clkSrc : Nat := 1
  clkCh : Nat := 0
  period : Nat := 0
  d0 : Nat := 0
  nextDue : Nat := 0
  seen : Nat := 0
  btDue : SMap Nat := []
  rdvDue : Option (Bool × Nat) := none
  fault : Option FaultWin := none
  frz : Nat := 0
  frozen : Bool := false
  retried : Bool := false
  action : Nat := 0
  swapPend : Bool := false
  ps : Bool := false
  deadline : Option Nat := none
  skip : Nat := 0
  skipCnt : Nat := 0
  energy : Nat := 0
  esat : Bool := false
  exh : Bool := false
  overE : Nat := 0
  quota : Nat := 0
  quant : Nat := 0
  baseAt : Nat := 0
  ranFrom : Nat := 0
  quantExp : Bool := false
  treca : Nat := 0
  imageAt : Nat := 0
  chSnap : List (Nat × List ChVal) := []
  qwaited : List Nat := []
  links : List Claim := []
  copies : List Copy := []
  agenda : List (Key × Item) := []
  released : List StEntry := []
  visibleAt : Nat := 0
  status : Nat := 0
  killAt : Nat := 0
  images : List Core := []
  saveEnd : Nat := 0
  deriving DecidableEq, Repr

/-- The state of a node in the firmware's table (R267 to R283). -/
inductive NState where
  | waiting
  | ready (t : Nat)
  | running (ctx : Nat)
  | done
  | failed
  deriving DecidableEq, Repr

/-- A node record's copy (R267) with its count (R268) the carry of a re-queue (R318, R340), and the DTIME at which its count reached 0
(R269). -/
structure Node where
  recp : Nat
  image : Nat
  kptr : Nat
  w : Nat
  h : Nat
  dies : Nat
  pred : Nat
  succs : List Nat
  argp : Nat
  quota : Nat
  release : Nat
  clkSrc : Nat
  clkCh : Nat
  period : Nat
  prio : Nat
  fidmax : Nat
  policy : Nat
  rst : Bool
  count : Nat
  st : NState
  requeued : Bool
  energy : Nat
  exh : Bool
  esat : Bool
  swapped : Nat
  zeroAt : Nat
  deriving DecidableEq, Repr

/-- A channel (R266): kind 0 SAMPLE, 1 QUEUE, its committed values in order, and the count of values committed. -/
structure Chan where
  kind : Nat
  cap : Nat
  wnode : Nat
  rnode : Nat
  vals : List ChVal
  deriving DecidableEq, Repr

/-- A submitted graph (R263 to R266, R283). -/
structure Graph where
  gid : Nat
  handle : Nat
  hdr : Nat
  no : Nat
  wake : Nat
  vec : Nat
  coal : Nat
  checked : Bool
  nodes : List Node
  chans : List Chan
  status : Nat
  deriving DecidableEq, Repr

/-- A handle page (R348, R349, R355). st: 0 closed, 1 open, 2 refused; owned are the addresses of its node-owned pages (R230), buffers
the global buffers that the loader has placed, by image and address (R377). -/
structure Handle where
  st : Nat := 0
  ver : Nat := 0
  signReq : Bool := false
  status : Nat := 0
  busy : Bool := false
  keys : List Nat := []
  root : Nat := 0
  closing : Bool := false
  owned : List Nat := []
  buffers : List (Nat × Nat) := []
  deriving DecidableEq, Repr

/-- A cluster's Twilight regulator and throttle reasons (R327, R331, R337). ops and det are per fidelity 1 to 3; setBits are
the reasons set at device cycle setAt. -/
structure Cluster where
  code : Nat := 0
  factor : Nat := 0
  ops1 : Nat := 0
  ops2 : Nat := 0
  ops3 : Nat := 0
  det1 : Nat := 0
  det2 : Nat := 0
  det3 : Nat := 0
  thrrsn : BitVec 5 := 0
  setBits : BitVec 5 := 0
  setAt : Nat := 0
  deriving DecidableEq, Repr

/-- A single-bit error that stands in a protected word until a read corrects it (R221, R228): the die, what holds the word (0
scratchpad, 1 tile, 2 B-slot, 3 accumulator, 4 staging buffer, 5 HBM or LPDDR 6), the core, and the word or the block. -/
structure Soft where
  die : Nat
  kind : Nat
  core : Nat
  word : Nat
  deriving DecidableEq, Repr

/-- A page walk in progress, with those that wait for it: core, unit, address (R236). -/
structure Walk where
  die : Nat
  ctx : Nat
  va : Nat
  started : Bool
  waiters : List (Nat × Nat × Nat)
  deriving DecidableEq, Repr

/-- A journal entry (R357). -/
structure JEnt where
  dtime : Nat
  instant : Nat
  ctx : Nat
  kind : Nat
  core : Nat
  data : Nat
  deriving DecidableEq, Repr

/-- A firmware slot: version, build, whether its signature verifies, and the version of the handover structure that its image writes
and the major versions that it reads (R353, R359). -/
structure FwSlot where
  version : Nat := 0
  build : Nat := 0
  good : Bool := true
  writes : Nat := 0x0100
  reads : List Nat := [1]
  deriving DecidableEq, Repr

/-- The handover structure of an update: version, body and the CRC-32C of the body (R359). -/
structure Handover where
  version : Nat
  body : List Nat
  crc : Nat
  deriving DecidableEq, Repr

/-- An update in progress (R359): 0 none, 1 signature check, 2 new image running, and the structure that the old image has written. -/
structure Update where
  phase : Nat := 0
  deadline : Nat := 0
  oldMeas : Nat := 0
  hand : Option Handover := none
  deriving DecidableEq, Repr

/-- A Wyrex port: up, agreed version, next sequence number expected, flits to be replayed, and the answers it has sent: module, value and
error mark (R351). -/
structure Port where
  up : Bool := false
  version : Nat := 0
  expect : Nat := 0
  replays : Nat := 0
  answers : List (Nat × Nat × Bool) := []
  deriving DecidableEq, Repr

/-- A vector's coalescing window and the messages sent (R285). -/
structure MsiVec where
  open_ : Bool := false
  closeAt : Nat := 0
  pending : Nat := 0
  sent : Nat := 0
  deriving DecidableEq, Repr

/-- The turns of one device cycle. -/
inductive Turn where
  | inputs
  | due
  | agenda (ctx : Nat)
  | engine (core e : Nat)
  | control (core : Nat) (early : Bool)
  | region (ctx : Nat)
  | settle (ctx : Nat)
  | sched
  | tick
  deriving DecidableEq, Repr

/-- The whole machine. -/
structure State where
  now : Nat
  dtAcc : Nat
  slew : Int
  todo : List Turn
  inputs : List (Nat × Nat × Instr)
  agenda : List (Nat × GItem)
  freeCtr : Nat
  cur : Nat
  actor : Actor
  word : Nat
  booted : Bool
  recovery : Bool
  cores : SMap Core
  regions : SMap Region
  mem : SMap Byte
  memBad : SMap Bool
  soft : List Soft
  fuse : SMap Bool
  owner : SMap Nat
  handles : SMap Handle
  graphs : List Graph
  nextGid : Nat
  nextCtx : Nat
  ctxBusy : List Nat
  hbmNext : Nat
  lpdNext : Nat
  memOwner : List (Nat × Nat × Nat)
  nodePages : List (Nat × Nat × Nat)
  dieTlb : SMap (List TlbEnt)
  walks : List Walk
  hbmUse : List (Nat × Nat × Nat)
  clusters : SMap Cluster
  powercap : Nat
  mwTier : Nat
  mwBase : Nat
  mwSize : Nat
  modNo : Nat
  timeOfs : DWord
  fwStage : DWord
  fwStatus : Nat
  fwActive : Nat
  fwGo : Bool
  slots : SMap FwSlot
  update : Update
  dusk : Bool
  heldWork : List (Nat × Instr)
  journal : List (Nat × JEnt)
  jhead : SMap Nat
  jlost : SMap Nat
  msi : SMap MsiVec
  ports : SMap Port
  routes : SMap Nat
  timePeer : Nat
  meas : SMap Nat
  report : List Nat
  hostRead : Nat
  hostBad : Bool
  vofs : SMap (Option Vof)
  dawnCold : Bool
  kept : List Nat
  keptUntil : Nat
  dawnAt : Nat
  reserved : Option (Nat × Nat × Nat × Nat)
  jdone : SMap Nat
  deriving DecidableEq, Repr

/-- The machine at the start of a cold Dawn: DTIME is 0 (R352), nothing has booted, nothing is held, and the device control
block reads its reset values (R345). What a step does first is Dawn (R356; assumptions 1). -/
def State.reset : State :=
  { now := 0, dtAcc := 0, slew := 0, todo := [.inputs], inputs := [(0, 0, .dawn)], agenda := [], freeCtr := 0, cur := 0,
    actor := .control, word := 0, booted := false, recovery := false, cores := [], regions := [], mem := [], memBad := [], soft := [],
    fuse := [], owner := [], handles := [], graphs := [], nextGid := 1, nextCtx := 1, ctxBusy := [], hbmNext := 0x7000000000, lpdNext := 0xC000000000, memOwner := [], nodePages := [],
    dieTlb := [], walks := [], hbmUse := [], clusters := [], powercap := 2400, mwTier := 0, mwBase := 0, mwSize := 2 ^ 28, modNo := 0, timeOfs := 0, fwStage := 0,
    fwStatus := 0, fwActive := 0, fwGo := false, slots := [], update := { }, dusk := false, heldWork := [],
    journal := [], jhead := [], jlost := [], msi := [], ports := [], routes := [], timePeer := 0, meas := [], report := [],
    hostRead := 0, hostBad := false, vofs := [], dawnCold := true, kept := [], keptUntil := 0,
    dawnAt := 0, reserved := none, jdone := [] }

end Sys2Proof.Machine
end

