-- ==== Sys2Proof/Machine/Act.lean ====
section
/-! DEFINITION. The primitive updates. A meaning computes a list of these on one state, and applying the list is the only
way a state changes; so what a step can do at all is read off this file. -/

namespace Sys2Proof.Machine

/-- Updates of one region. -/
inductive RAct where
  | sched (k : Key) (it : Item)
  | agenda (l : List (Key × Item))
  | raise (f : FaultInfo)
  | put (r : Region)
  | copyPush (c : Copy)
  | copies (l : List Copy)
  | released (l : List StEntry)
  | taken (core serial : Nat)
  | hold (links : List Claim)
  | visible (n : Nat)
  | qwaited (ch : Nat)
  | reaction
  | kill (status : Nat)
  | launchAt (now : Nat)
  | resume (d at_ : Nat)
  | rdv (v : Option (Bool × Nat))
  | btDue (t : Nat) (c : Nat)
  | swapPend (v : Bool)
  | ps (v : Bool) (deadline : Option Nat)
  | skip (k : Nat)
  | skipCnt (n : Nat)
  | tickCyc
  | quota (v : Nat) (clear : Bool)
  | quant (v : Nat)
  deriving DecidableEq, Repr

/-- Updates of the package. -/
inductive GAct where
  | now (n : Nat)
  | time (acc : Nat)
  | slew (v : Int)
  | todo (l : List Turn)
  | inputs (l : List (Nat × Nat × Instr))
  | agenda (l : List (Nat × GItem))
  | later (at_ : Nat) (g : GItem)
  | takeFree (n : Nat)
  | cur (c : Nat) (a : Actor)
  | word (w : Nat)
  | booted (b r : Bool)
  | mem (key : Nat) (v : Byte)
  | memClear (lo n : Nat)
  | memBad (blk : Nat) (v : Bool)
  | soft (l : List Soft)
  | fuse (p : Nat) (off : Bool)
  | owner (p ctx : Nat)
  | handle (h : Nat) (v : Handle)
  | graphs (l : List Graph)
  | graph (g : Graph)
  | nextGid (n : Nat)
  | nextCtx (n : Nat)
  | ctxBusy (l : List Nat)
  | hbmNext (n : Nat)
  | lpdNext (n : Nat)
  | memOwner (l : List (Nat × Nat × Nat))
  | nodePages (l : List (Nat × Nat × Nat))
  | dieTlb (d : Nat) (l : List TlbEnt)
  | walks (l : List Walk)
  | hbmUse (l : List (Nat × Nat × Nat))
  | cluster (c : Nat) (v : Cluster)
  | thrClear (c : Nat) (v : BitVec 5)
  | thrSet (c : Nat) (v : BitVec 5)
  | twCount (c fid ops det : Nat)
  | powercap (n : Nat)
  | mw (tier base : Nat)
  | timeOfs (v : DWord)
  | fwStage (v : DWord)
  | fw (status active : Nat) (go : Bool)
  | slot (n : Nat) (v : FwSlot)
  | update (u : Update)
  | dusk (b : Bool)
  | heldWork (l : List (Nat × Instr))
  | journal (die : Nat) (e : JEnt)
  | journalClear
  | msi (v : Nat) (m : MsiVec)
  | port (p : Nat) (v : Port)
  | route (peer port : Nat)
  | timePeer (n : Nat)
  | meas (n v : Nat)
  | report (l : List Nat)
  | hostRead (n : Nat) (bad : Bool)
  | vof (k : Nat) (v : Option Vof)
  | dawnCold (b : Bool)
  | kept (l : List Nat) (until_ : Nat)
  | dawnAt (n : Nat)
  | reserved (v : Option (Nat × Nat × Nat × Nat))
  | jdone (d n : Nat)
  | mwSize (n : Nat)
  | dropCores (ctx n : Nat)
  deriving DecidableEq, Repr

/-- One primitive update. Cores are named by context·2048 + virtual index, regions by context number. -/
inductive Act where
  | core (id : Nat) (a : CAct)
  | reg (ctx : Nat) (a : RAct)
  | pkg (a : GAct)
  | restore (id : Nat) (c : Core)
  deriving DecidableEq, Repr

/-- GRIDX and GRIDY of a virtual index (R272). -/
def Region.gx (r : Region) (v : Nat) : Nat := v % r.w
def Region.gy (r : Region) (v : Nat) : Nat := v / r.w
/-- DIEIDX of the package (R271). -/
def Region.dieidx (r : Region) (v : Nat) : Nat :=
  (if 24 ≤ r.x0 + r.gx v then 1 else 0) + (if 16 ≤ r.y0 + r.gy v then 2 else 0)

/-- The core named id, as at launch when no context holds it (R8). -/
def State.core (s : State) (id : Nat) : Core := SMap.get {} s.cores id
/-- The region of a context. -/
def State.region (s : State) (ctx : Nat) : Region := SMap.get {} s.regions ctx
/-- Device time in ns (R25, R352). -/
def State.dtime (s : State) : Nat := s.dtAcc / Config.dtUnit

/-- Scalar r; s0 reads 0 with tag k0 (R9). -/
def Core.reg (c : Core) (r : Nat) : Reg := if r = 0 then {} else SMap.get {} c.regs r
/-- Clock register k; k0 and k1 are fixed (R14). -/
def Core.clock (c : Core) (k : Nat) : Clock :=
  if k = 0 then { defined := true, present := true, parent := 0 }
  else if k = 1 then { defined := true, present := true, parent := 1 }
  else SMap.get {} c.clocks k
/-- The reset value of a stored CSR (R215). -/
def csrReset (n : Nat) : DWord := if n = 0x018 then 0xFFFF else if n = 0x01C then BitVec.ofNat 64 Config.vctlReset else 0
/-- The stored value of a CSR the core itself holds (R215). -/
def Core.csr (c : Core) (n : Nat) : DWord := SMap.get (csrReset n) c.csrs n
/-- Engine e: 0 MX, 1 VX, 2 CP. -/
def Core.eng (c : Core) (e : Nat) : Engine := if e = 0 then c.mx else if e = 1 then c.vx else c.cp
/-- The core with engine e replaced. -/
def Core.setEng (c : Core) (e : Nat) (v : Engine) : Core :=
  if e = 0 then { c with mx := v } else if e = 1 then { c with vx := v } else { c with cp := v }
/-- The inbox of direction d: 0 n, 1 e, 2 s, 3 w (R199). -/
def Core.inbox (c : Core) (d : Nat) : List DWord :=
  if d = 0 then c.inboxN else if d = 1 then c.inboxE else if d = 2 then c.inboxS else c.inboxW
/-- The core with one inbox replaced. -/
def Core.setInbox (c : Core) (d : Nat) (l : List DWord) : Core :=
  if d = 0 then { c with inboxN := l } else if d = 1 then { c with inboxE := l }
  else if d = 2 then { c with inboxS := l } else { c with inboxW := l }

/-- One byte into a reflected CRC-32C register, polynomial 0x82F6_3B78 (R75). -/
def crcByte (crc : Nat) (b : Nat) : Nat :=
  let rec go : Nat → Nat → Nat
    | 0, x => x
    | n + 1, x => go n (if x % 2 = 1 then (x / 2) ^^^ 0x82F63B78 else x / 2)
  go 8 (crc ^^^ (b % 256))

/-- Fold bytes into a CRC register. -/
def crcBytes (crc : Nat) : List Nat → Nat
  | [] => crc
  | b :: l => crcBytes (crcByte crc b) l

/-- The pairs (off + i, byte i) of a byte list. -/
def indexed (off : Nat) : List Byte → List (Nat × Byte)
  | [] => []
  | b :: l => (off, b) :: indexed (off + 1) l

/-- Word addresses off/8 that n bytes from off touch. -/
def dwordsOf (off n : Nat) : List Nat := if n = 0 then [] else (List.range ((off + n - 1) / 8 - off / 8 + 1)).map (off / 8 + ·)

/-- A row with bits [lo + n - 1 : lo] replaced. -/
def putBits (r : Row) (lo n v : Nat) : Row :=
  BitVec.ofNat 2048 (r.toNat % 2 ^ lo + (v % 2 ^ n) * 2 ^ lo + r.toNat / 2 ^ (lo + n) * 2 ^ (lo + n))
/-- Error marks of a row after bits [lo + n - 1 : lo] are written: a wholly written 64-bit word loses its mark (R221). -/
def clearMarks (b : Word) (lo n : Nat) : Word :=
  BitVec.ofNat 32 (((List.range 32).map fun w => if b.getLsbD w && !(decide (lo ≤ w * 64) && decide (w * 64 + 64 ≤ lo + n)) then 2 ^ w else 0).sum)

/-- Tile row i of an MLDB with X as it enters the slot: column n takes, at each element 16β + i of width w, the row's element
16β + n; with w = 0 column i is the row (R134). -/
def columnWith (w i n : Nat) (v old : Row) : Row :=
  if w = 0 then v else ((List.range (2048 / w / 16)).foldl (fun r b => putBits r ((16 * b + i) * w) w (fld v.toNat ((16 * b + n) * w) w)) old)
def putColumns (b i w : Nat) (v : Row) : List Nat → SMap Row → SMap Row
  | [], m => m
  | n :: ns, m => putColumns b i w v ns <| if w = 0 ∧ n ≠ i then m else (SMap.set 0 m (b * 16 + n) (columnWith w i n v (SMap.get 0 m (b * 16 + n))))

/-- The effect of one core update. -/
def CAct.apply (c : Core) : CAct → Core
  | .reg r v t b => if r = 0 then c else { c with regs := SMap.set {} c.regs r ⟨v, t, b⟩ }
  | .row t i v b => { c with rows := SMap.set 0 c.rows (t * 16 + i) v, rowBad := SMap.set 0 c.rowBad (t * 16 + i) b }
  | .side t v b => { c with sides := SMap.set 0 c.sides t v, sideBad := SMap.set 0 c.sideBad t b }
  | .rowPart t i lo n v =>
    { c with
      rows := SMap.set 0 c.rows (t * 16 + i) (putBits (SMap.get 0 c.rows (t * 16 + i)) lo n v)
      rowBad := SMap.set 0 c.rowBad (t * 16 + i) (clearMarks (SMap.get 0 c.rowBad (t * 16 + i)) lo n) }
  | .sidePart t lo n v =>
    { c with
      sides := SMap.set 0 c.sides t (putBits (SMap.get 0 c.sides t) lo n v)
      sideBad := SMap.set 0 c.sideBad t (clearMarks (SMap.get 0 c.sideBad t) lo n) }
  | .rowMark t i b => { c with rowBad := SMap.set 0 c.rowBad (t * 16 + i) (SMap.get 0 c.rowBad (t * 16 + i) ||| b) }
  | .sideMark t b => { c with sideBad := SMap.set 0 c.sideBad t (SMap.get 0 c.sideBad t ||| b) }
  | .tileTag t v => { c with tileTag := SMap.set 0 c.tileTag t v }
  | .tileFull t v => { c with tileFull := SMap.set false c.tileFull t v }
  | .acc a i j e => { c with accs := SMap.set {} c.accs (a * 256 + i * 16 + j) e }
  | .accTag a t => { c with accTag := SMap.set 0 c.accTag a t }
  | .slotCol b j v => { c with slotCols := SMap.set 0 c.slotCols (b * 16 + j) v }
  | .slotRow b i w v e =>
    { c with
      slotCols := putColumns b i w v (List.range 16) c.slotCols
      slotBad := (if w = 0 then [i] else List.range 16).foldl (fun m n => SMap.set false m (b * 17 + n) (e || (w ≠ 0 && decide (0 < i) && SMap.get false m (b * 17 + n)))) c.slotBad }
  | .slotSide b v e => { c with slotSides := SMap.set 0 c.slotSides b v, slotBad := SMap.set false c.slotBad (b * 17 + 16) e }
  | .slotTag b t => { c with slotTag := SMap.set 0 c.slotTag b t }
  | .clock k v => if k < 2 then c else { c with clocks := SMap.set {} c.clocks k v }
  | .clocksClear => { c with clocks := [] }
  | .pred p v => { c with preds := SMap.set {} c.preds p v }
  | .predUnwrite p => { c with preds := SMap.set {} c.preds p { SMap.get {} c.preds p with written := false } }
  | .delayInit x v k => { c with delays := SMap.set {} c.delays x ⟨v, (SMap.get {} c.delays x).staged, false, k⟩ }
  | .delayStage x v => { c with delays := SMap.set {} c.delays x { SMap.get {} c.delays x with staged := v, has := true } }
  | .delayCommit => { c with delays := c.delays.map fun p => (p.1, if p.2.has then { p.2 with committed := p.2.staged, has := false } else p.2) }
  | .delaySnap => { c with delaySnap := c.delays }
  | .delayRestore => { c with delays := c.delaySnap.map fun p => (p.1, { p.2 with has := false }) }
  | .loops l => { c with loops := l }
  | .loopsOld l => { c with loopsOld := l }
  | .segBuf l => { c with segBuf := l }
  | .tokenSub t => { c with tokens := SMap.set 0 c.tokens t (SMap.get 0 c.tokens t - 1) }
  | .token t n => { c with tokens := SMap.set 0 c.tokens t n }
  | .bar b v => { c with bars := SMap.set {} c.bars b v }
  | .btPhase b v => { c with btPhase := SMap.set false c.btPhase b v }
  | .btArr b v => { c with btArr := SMap.set false c.btArr b v }
  | .btOwed b v => { c with btOwed := SMap.set false c.btOwed b v }
  | .fmt n v => { c with fmt := SMap.set 0 c.fmt n v }
  | .hist n v => { c with hist := SMap.set 0 c.hist n v }
  | .csr n v => { c with csrs := SMap.set (csrReset n) c.csrs n v }
  | .orFlags v => { c with csrs := SMap.set 0 c.csrs 0x010 ((SMap.get 0 c.csrs 0x010) ||| BitVec.ofNat 64 (v % 16)) }
  | .errRem n => { c with errRem := n }
  | .enhi v => { c with enhi := v }
  | .mode m => { c with mode := m }
  | .inHandler v => { c with inHandler := v }
  | .pc v => { c with pc := v }
  | .issPc v => { c with issPc := v }
  | .npc v n => { c with npc := v, ncost := n }
  | .xfer v => { c with xfer := v }
  | .instPc v => { c with instPc := v }
  | .nextAt v => { c with nextAt := v }
  | .held v => { c with held := v, missed := if v then c.missed else [] }
  | .missed va => { c with missed := va :: c.missed }
  | .trapped v => { c with trapped := v }
  | .stepDone e free done n =>
    let g := c.eng e
    c.setEng e { g with freeAt := free, due := free, doneAt := max g.doneAt done, copies := g.copies + n }
  | .wait w => { c with waits := c.waits ++ [w] }
  | .waits l => { c with waits := l }
  | .saved w n p i => { c with waitsSaved := w, nextSaved := n, pcSaved := p, issSaved := i }
  | .seg v => { c with seg := v }
  | .segSaved v => { c with segSaved := v }
  | .crc l => { c with seg := c.seg.map fun g => { g with crc := BitVec.ofNat 32 (crcBytes g.crc.toNat l) } }
  | .divFree v => { c with divFree := v }
  | .div u n => { c with div := SMap.set 1 c.div u n }
  | .divNext u n => { c with divNext := SMap.set 0 c.divNext u n }
  | .untimedPush u => { c with untimed := c.untimed ++ [u] }
  | .untimedSet l => { c with untimed := l }
  | .fencedAt n => { c with fencedAt := n }
  | .arrived v n => { c with arrived := v, arrCyc := n }
  | .kend v => { c with kend := v }
  | .kendPend v => { c with kendPend := v }
  | .ended v => { c with ended := v }
  | .safept v => { c with safept := v }
  | .engPush e q => c.setEng e { c.eng e with queue := (c.eng e).queue ++ [q] }
  | .engAttr e g w t => c.setEng e { c.eng e with aGuard := g, aWait := w, aSig := t }
  | .engPace e g => c.setEng e { c.eng e with pace := g }
  | .eng e v => c.setEng e v
  | .table e i w => { c with tables := SMap.set 0 c.tables (e * 1024 + i) w }
  | .pendAcc a n => { c with pendAcc := SMap.set 0 c.pendAcc a n }
  | .pendSlot b n => { c with pendSlot := SMap.set 0 c.pendSlot b n }
  | .copyCount v => { c with copyCount := v }
  | .spad off l => { c with spad := SMap.setAll 0 c.spad (indexed off l) }
  | .spadBad off n v => { c with spadBad := SMap.setAll false c.spadBad ((dwordsOf off n).map fun w => (w, v)) }
  | .stagePush e => { c with staging := c.staging ++ [e] }
  | .staging l => { c with staging := l }
  | .aliased v => { c with aliased := v }
  | .chStage ch n v => { c with chStaged := c.chStaged ++ [(ch, n, v)] }
  | .chStagedClear => { c with chStaged := [] }
  | .chPop ch => { c with chPops := SMap.set 0 c.chPops ch (SMap.get 0 c.chPops ch + 1) }
  | .chPopsClear => { c with chPops := [] }
  | .tagEnt i v => { c with tagTab := SMap.set {} c.tagTab i v }
  | .tlb l => { c with tlb := l }
  | .inboxPush d v => c.setInbox d (c.inbox d ++ [v])
  | .inboxPop d => c.setInbox d ((c.inbox d).drop 1)
  | .inboxClear => { c with inboxN := [], inboxE := [], inboxS := [], inboxW := [] }
  | .undoPush r top => { c with undo := c.undo ++ [r], undoTop := top }
  | .undo l top => { c with undo := l, undoTop := top }
  | .levels l => { c with levels := l }
  | .pendLimit n => { c with pendLimit := n }
  | .bumpSerial => { c with serial := c.serial + 1 }
  | .clear => {}

/-- k comes before k' in a region's agenda (R24, R34, R151, R192). -/
def Key.before (k k' : Key) : Bool :=
  if k.due ≠ k'.due then decide (k.due < k'.due)
  else if k.phase ≠ k'.phase then decide (k.phase < k'.phase)
  else if k.issue ≠ k'.issue then decide (k.issue < k'.issue)
  else if k.core ≠ k'.core then decide (k.core < k'.core)
  else if k.unit ≠ k'.unit then decide (k.unit < k'.unit)
  else decide (k.word < k'.word)

/-- Put an item into an agenda, after every item that does not come after it. -/
def agendaInsert (k : Key) (it : Item) : List (Key × Item) → List (Key × Item)
  | [] => [(k, it)]
  | (a, b) :: l => if k.before a then (k, it) :: (a, b) :: l else (a, b) :: agendaInsert k it l

/-- Put an item into the package's agenda, after every item due no later. -/
def laterInsert (n : Nat) (g : GItem) : List (Nat × GItem) → List (Nat × GItem)
  | [] => [(n, g)]
  | (a, b) :: l => if n < a then (n, g) :: (a, b) :: l else (a, b) :: laterInsert n g l

/-- The window of the region's fault has closed: a fault condition that arises now is only journaled (R305). -/
def Region.closed (r : Region) : Bool :=
  r.frozen || (match r.fault with | some w => decide (w.cyc + Config.treeDelay ≤ r.cyc) | none => false)
/-- The rank of an engine among faults of one core: the control core first, then MX, VX, CP (R305). -/
def engRank (e : Nat) : Nat := if e = 3 then 0 else e + 1

/-- A code joins OTHER (R307). -/
def otherBit (o : DWord) (code : Nat) : DWord := o ||| (1#64 <<< code)

/-- A fault raised in a region (R302, R305): the first one opens the window and sets the freeze 48 cycles later; others of
the same cycle compete by core and unit; later ones up to F + 47 are counted; after the freeze none is. One raised while
the handler runs, on whichever core, kills the context (R204, R311). -/
def Region.raise (r : Region) (f : FaultInfo) (dt rd : Nat) (pseg inh : Bool) : Region :=
  if inh then
    { r with fault := some ⟨f, r.cyc, 1, 0, r.ibase, r.instant, dt, rd, pseg, true⟩, frozen := true, phase := .stopping, action := 4, status := if r.action = 4 then r.status else 1 }
  else match r.fault with
  | none =>
    if r.frozen then r else
    { r with fault := some ⟨f, r.cyc, 1, 0, r.ibase, r.instant, dt, rd, pseg, false⟩, frz := r.cyc + Config.treeDelay,
             agenda := agendaInsert { due := r.cyc + Config.treeDelay, phase := 3 } (.ev (r.ctx * 2048) .control .freeze) r.agenda }
  | some w =>
    if r.cyc = w.cyc then
      let better : Bool := f.core < w.first.core ∨ (f.core = w.first.core ∧ engRank f.eng < engRank w.first.eng)
      { r with fault := some { w with first := if better then f else w.first, count := min 255 (w.count + 1),
                                      other := otherBit w.other (if better then w.first.code else f.code),
                                      rdepth := if better then rd else w.rdepth, pseg := if better then pseg else w.pseg } }
    else if r.cyc < w.cyc + Config.treeDelay then
      { r with fault := some { w with count := min 255 (w.count + 1), other := otherBit w.other f.code } }
    else r

/-- The kill of a context starts (R325), at a depth of open levels: a running region freezes with code KILL; one that is stopped already drains when its
stop is complete. The first kill's completion status stands. -/
def Region.kill (r : Region) (status dt rd : Nat) : Region :=
  let k := if r.action = 4 then r else { r with action := 4, status := status }
  match r.phase with
  | .none => r
  | .killed => r
  | .drained => r
  | .run => if r.action = 4 then r else k.raise { code := 0x17, core := r.ctx * 2048, eng := 4 } dt rd false false
  | .stopping => k
  | _ => { k with phase := .stopping, frozen := true }

/-- The index of the first timer due time after a device time, and not before the next one to be used (R286). -/
def Region.dueAfter (r : Region) (dt : Nat) : Nat :=
  if r.clkSrc = 3 ∧ 0 < r.period ∧ r.d0 ≤ dt then max r.nextDue ((dt - r.d0) / r.period + 1) else r.nextDue
/-- The index of the first timer due time at or after a device time, RELEASE being none where it is 0 (R26, R286). -/
def Region.firstDue (r : Region) (dt : Nat) : Nat :=
  if r.d0 = 0 ∨ r.period = 0 then r.nextDue else max r.nextDue ((dt - r.d0 + r.period - 1) / r.period)
/-- A kill raises KILL in this region now (R325). -/
def Region.killRaises (r : Region) : Bool := decide (r.phase = .run) && r.action ≠ 4

/-- The effect of one region update. -/
def RAct.apply (s : State) (r : Region) : RAct → Region
  | .sched k it => { r with agenda := agendaInsert k it r.agenda }
  | .agenda l => { r with agenda := l }
  | .raise f =>
    let c := s.core f.core
    r.raise f s.dtime c.levels.length c.seg.isSome (match r.phase with | .handler _ => true | _ => false)
  | .put r' => r'
  | .copyPush c => { r with copies := r.copies ++ [c] }
  | .copies l => { r with copies := l }
  | .released l => { r with released := l }
  | .taken n k => { r with copies := r.copies.map fun c => if c.core = n ∧ c.serial = k then { c with taken := true } else c }
  | .hold l => { r with links := l }
  | .visible n => { r with visibleAt := max r.visibleAt n }
  | .qwaited ch => { r with qwaited := ch :: r.qwaited }
  | .reaction => { r with deadline := match r.deadline with
      | some d => if s.dtime ≤ d then none else some d
      | none => none }
  | .kill st => r.kill st s.dtime (s.core (r.ctx * 2048)).levels.length
  | .launchAt n => { r with phase := .run, nextDue := if r.instant = 0 then r.firstDue s.dtime else r.nextDue, cyc := if r.instant = 0 then 0 else r.cyc, ranFrom := s.dtime, quantExp := false, d0 := if r.d0 = 0 then s.dtime else r.d0, baseAt := n }
  | .resume d n => { r with ibase := r.ibase + d, phase := .resuming n }
  | .rdv v => { r with rdvDue := v }
  | .btDue t c => { r with btDue := SMap.set 0 r.btDue t c }
  | .swapPend v => { r with swapPend := v }
  | .ps v d => { r with ps := v, deadline := d, skip := if v then r.skip else 0, skipCnt := if v then r.skipCnt else 0 }
  | .skip k => { r with skip := k, deadline := none, skipCnt := 0 }
  | .skipCnt n => { r with skipCnt := n }
  | .tickCyc => { r with cyc := r.cyc + 1 }
  | .quota v cl =>
    if cl then { r with quota := v, exh := false, overE := 0, readyAt := if r.exh ∧ r.between then max r.readyAt (r.cyc + 1) else r.readyAt
                        nextDue := if r.exh ∧ r.between then r.dueAfter s.dtime else r.nextDue }
    else { r with quota := v }
  | .quant v => { r with quant := v }

/-- Drop the oldest journal entry of die d (R357). -/
def dropOldest (d : Nat) : List (Nat × JEnt) → List (Nat × JEnt)
  | [] => []
  | (a, e) :: l => if a = d then l else (a, e) :: dropOldest d l

/-- A cluster with o band operations and d detections more at fidelity f (R331). -/
def Cluster.addBand (k : Cluster) (f o d : Nat) : Cluster :=
  if f = 1 then { k with ops1 := k.ops1 + o, det1 := k.det1 + d }
  else if f = 2 then { k with ops2 := k.ops2 + o, det2 := k.det2 + d }
  else { k with ops3 := k.ops3 + o, det3 := k.det3 + d }

/-- Add an entry to a die's journal (R357). -/
def State.journaled (s : State) (d : Nat) (e : JEnt) : State :=
  let n := SMap.get 0 s.jhead d
  let full := decide (Config.journalRing ≤ n)
  { s with
    journal := (if full then dropOldest d s.journal else s.journal) ++ [(d, e)]
    jhead := SMap.set 0 s.jhead d (n + 1)
    jlost := if full then SMap.set 0 s.jlost d (SMap.get 0 s.jlost d + 1) else s.jlost }

/-- The entries of a map whose keys lie outside [lo, hi). -/
def outside {α : Type} (lo hi : Nat) (m : SMap α) : SMap α := m.filter fun p => decide (p.1 < lo) || decide (hi ≤ p.1)

/-- The effect of one package update. -/
def GAct.apply (s : State) : GAct → State
  | .now n => { s with now := n }
  | .time a => { s with dtAcc := a }
  | .slew v => { s with slew := v }
  | .todo l => { s with todo := l }
  | .inputs l => { s with inputs := l }
  | .agenda l => { s with agenda := l }
  | .later n g => { s with agenda := laterInsert n g s.agenda }
  | .takeFree n => { s with freeCtr := s.freeCtr + n }
  | .cur c a => { s with cur := c, actor := a }
  | .word w => { s with word := w }
  | .booted b r => { s with booted := b, recovery := r }
  | .mem k v => { s with mem := SMap.set 0 s.mem k v }
  | .memClear lo n => { s with mem := outside lo (lo + n) s.mem, memBad := outside (lo / 64) ((lo + n) / 64) s.memBad }
  | .memBad b v => { s with memBad := SMap.set false s.memBad b v }
  | .soft l => { s with soft := l }
  | .fuse p v => { s with fuse := SMap.set false s.fuse p v }
  | .owner p c => { s with owner := SMap.set 0 s.owner p c }
  | .handle h v => { s with handles := SMap.set {} s.handles h v }
  | .graphs l => { s with graphs := l }
  | .graph g => { s with graphs := s.graphs.map fun x => if x.gid = g.gid then g else x }
  | .nextGid n => { s with nextGid := n }
  | .nextCtx n => { s with nextCtx := n }
  | .ctxBusy l => { s with ctxBusy := l }
  | .hbmNext n => { s with hbmNext := n }
  | .lpdNext n => { s with lpdNext := n }
  | .memOwner l => { s with memOwner := l }
  | .nodePages l => { s with nodePages := l }
  | .dieTlb d l => { s with dieTlb := SMap.set [] s.dieTlb d l }
  | .walks l => { s with walks := l }
  | .hbmUse l => { s with hbmUse := l }
  | .cluster c v => { s with clusters := SMap.set {} s.clusters c v }
  | .thrClear c v =>
    let k := SMap.get {} s.clusters c
    let keep : BitVec 5 := if k.setAt = s.now then k.setBits else 0
    { s with clusters := SMap.set {} s.clusters c { k with thrrsn := k.thrrsn &&& (~~~v ||| keep) } }
  | .thrSet c v =>
    let k := SMap.get {} s.clusters c
    let old : BitVec 5 := if k.setAt = s.now then k.setBits else 0
    { s with clusters := SMap.set {} s.clusters c { k with thrrsn := k.thrrsn ||| v, setBits := old ||| v, setAt := s.now } }
  | .twCount c f o d => { s with clusters := SMap.set {} s.clusters c ((SMap.get {} s.clusters c).addBand f o d) }
  | .powercap n => { s with powercap := n }
  | .mw t b => { s with mwTier := t, mwBase := b }
  | .timeOfs v => { s with timeOfs := v }
  | .fwStage v => { s with fwStage := v }
  | .fw st a g => { s with fwStatus := st, fwActive := a, fwGo := g }
  | .slot n v => { s with slots := SMap.set {} s.slots n v }
  | .update u => { s with update := u }
  | .dusk b => { s with dusk := b }
  | .heldWork l => { s with heldWork := l }
  | .journal d e => s.journaled d e
  | .journalClear => { s with journal := [], jhead := [], jlost := [], jdone := [] }
  | .msi v m => { s with msi := SMap.set {} s.msi v m }
  | .port p v => { s with ports := SMap.set {} s.ports p v }
  | .route p v => { s with routes := SMap.set 0 s.routes p v }
  | .timePeer n => { s with timePeer := n }
  | .meas n v => { s with meas := SMap.set 0 s.meas n v }
  | .report l => { s with report := l }
  | .hostRead n b => { s with hostRead := n, hostBad := b }
  | .vof k v => { s with vofs := SMap.set none s.vofs k v }
  | .dawnCold b => { s with dawnCold := b }
  | .kept l n => { s with kept := l, keptUntil := n }
  | .dawnAt n => { s with dawnAt := n }
  | .reserved v => { s with reserved := v }
  | .jdone d n => { s with jdone := SMap.set 0 s.jdone d n }
  | .mwSize n => { s with mwSize := n }
  | .dropCores ctx n => { s with cores := (List.range n).foldl (fun m v => SMap.erase (ctx * 2048 + v) m) s.cores }

/-- A core rebuilt with its scratchpad and scalars in canonical form, as a save image restores it (R323). -/
def Core.canon (c : Core) : Core :=
  { c with spad := SMap.ofList 0 c.spad, regs := SMap.erase 0 (SMap.ofList {} c.regs) }

/-- The effect of one primitive update. -/
def Act.apply (s : State) : Act → State
  | .core id a => { s with cores := SMap.set {} s.cores id (CAct.apply (s.core id) a) }
  | .reg ctx a =>
    let s' := { s with regions := SMap.set {} s.regions ctx (RAct.apply s (s.region ctx) a) }
    match a with
    | .raise f =>
      let r := s.region ctx
      s'.journaled (r.dieidx (f.core % 2048)) ⟨s.dtime, r.instant, ctx, 3, f.core % 2048, f.code⟩
    | .kill _ =>
      let r := s.region ctx
      if r.killRaises then s'.journaled (r.dieidx 0) ⟨s.dtime, r.instant, ctx, 3, 0, 0x17⟩ else s'
    | _ => s'
  | .pkg a => GAct.apply s a
  | .restore id c => { s with cores := SMap.set {} s.cores id c.canon }

/-- Apply a list of updates, first to last. -/
def State.applyAll (s : State) : List Act → State
  | [] => s
  | a :: l => (Act.apply s a).applyAll l

end Sys2Proof.Machine
end

