-- ==== Sys2Proof/Machine/Ops.lean ====
section
/-! DEFINITION. The named operations every meaning is written over: who acts, tags and clocks, landings, traps and the
handler, addresses and translation, memory, scratchpad writes with their line captures. -/

namespace Sys2Proof.Machine

/-! ## Who acts -/

/-- The context a step acts for. -/
def State.ctx (s : State) : Nat := s.cur / 2048
/-- The virtual index GRIDY·W + GRIDX of the acting core. -/
def State.vidx (s : State) : Nat := s.cur % 2048
/-- The acting core. -/
def State.cc (s : State) : Core := s.core s.cur
/-- The acting region. -/
def State.rr (s : State) : Region := s.region s.ctx
/-- CYC of the acting region (R25). -/
def State.cyc (s : State) : Nat := s.rr.cyc
/-- The id of virtual core v of a context. -/
def coreId (ctx v : Nat) : Nat := ctx * 2048 + v
/-- The ids of a region's cores, by virtual index. -/
def Region.ids (r : Region) : List Nat := (List.range (r.w * r.h)).map (coreId r.ctx)
/-- The cores of a region whose group has not ended. -/
def State.live (s : State) (r : Region) : List Nat := r.ids.filter fun id => !(s.core id).ended
/-- CORENUM at the region's placement (R271). -/
def Region.corenum (r : Region) (v : Nat) : Nat := ((r.y0 + r.gy v) % 4) * 4 + (r.x0 + r.gx v) % 4
/-- The physical cluster, numbered row by row over the package grid (R1, R271). -/
def Region.cluster (r : Region) (v : Nat) : Nat := ((r.y0 + r.gy v) / 4) * 12 + (r.x0 + r.gx v) / 4
/-- XB and YB of R272. -/
def Region.xb (r : Region) : Nat := 4 * ((r.w + 7) / 8)
def Region.yb (r : Region) : Nat := 4 * ((r.h + 7) / 8)
/-- The region's die index of R274. -/
def Region.rdie (r : Region) (v : Nat) : Nat :=
  (if 2 ≤ r.dies ∧ r.xb ≤ r.gx v then 1 else 0) + (if r.dies = 4 ∧ r.yb ≤ r.gy v then 2 else 0)
/-- The virtual index of the region's core with CORENUM n in the cluster of core v, if there is one (R146, R234). -/
def Region.inCluster (r : Region) (v n : Nat) : Option Nat :=
  (List.range (r.w * r.h)).find? fun u => r.cluster u = r.cluster v ∧ r.corenum u = n

/-- The divisor in force of a unit: 0 control core, 1 MX, 2 VX, 3 CP (R218). -/
def Core.divisor (c : Core) (u : Nat) : Nat := SMap.get 1 c.div u
/-- A timed segment is open at the acting core. -/
def State.inSeg (s : State) : Bool := s.cc.seg.isSome
/-- The engine number of the acting unit; 3 for the control core (R307). -/
def State.unit (s : State) : Nat := match s.actor with | .control => 3 | .engine e => e
/-- The queue entry at the head of the acting engine. -/
def State.head (s : State) : Option QEntry := match s.actor with | .control => none | .engine e => (s.cc.eng e).queue.head?
/-- The acting word is timed: in an open segment, or a step of a timed entry (R172, R307). -/
def State.timed (s : State) : Bool := match s.actor with
  | .control => s.inSeg
  | .engine _ => (s.head.map QEntry.timed).getD false
/-- The divisor that stretches the acting unit's figures (R294, R295). -/
def State.mul (s : State) : Nat := match s.actor with | .control => s.cc.divisor 0 | .engine e => s.cc.divisor (e + 1)

/-! ## Plans -/

/-- What a word does on one state: its updates, the trap it raises, or that its bundle or step is held (R33, R47, R116). -/
inductive Plan where
  | acts (l : List Act)
  | trap (f : FaultInfo)
  | hold (l : List Act)
  deriving DecidableEq, Repr

/-- One update of the acting core. -/
def State.upd (s : State) (a : CAct) : Act := .core s.cur a

/-- The sequence number a fault of the acting unit names (R307). -/
def State.fseq (s : State) : Nat := match s.actor with
  | .control => 0
  | .engine e => let g := s.cc.eng e; if g.running then g.headSeq.toNat else g.seq.toNat

/-- A trap of the acting unit with a code (R311). -/
def State.fault (s : State) (code : Nat) : FaultInfo :=
  { code := code, core := s.cur, eng := s.unit, timed := s.timed, fseq := s.fseq }

/-- The trap codes of R311. -/
def ILLEGAL : Nat := 0x01
def PRIV : Nat := 0x02
def CLOCK : Nat := 0x03
def SCHED : Nat := 0x04
def SEGLEN : Nat := 0x05
def SEGSIG : Nat := 0x06
def WAITEXP : Nat := 0x07
def XLATE : Nat := 0x08
def SCOPE : Nat := 0x09
def ALIGN : Nat := 0x0A
def STRADDLE : Nat := 0x0B
def STAGEOVF : Nat := 0x0C
def RDEPTH : Nat := 0x0D
def UNDOOVF : Nat := 0x0E
def FIDERR : Nat := 0x0F
def UECC : Nat := 0x10
def OVERCNT : Nat := 0x11
def TRETX : Nat := 0x12
def BADSTAT : Nat := 0x13
def BREAKC : Nat := 0x14
def SWTRAP : Nat := 0x15
def TIMING : Nat := 0x16
def KILLED : Nat := 0x17

/-- A plan that raises a trap. -/
def State.trap (s : State) (code : Nat) : Plan := .trap (s.fault code)
/-- A plan that raises a trap at an address (R309). -/
def State.trapAt (s : State) (code addr : Nat) : Plan := .trap { s.fault code with faddr := addr }
/-- SCHED with its cause, the stamp due as CYC and the object (R309). -/
def State.sched (s : State) (cause obj : Nat) : Plan :=
  .trap { s.fault SCHED with wobj := cause, wval1 := s.cyc, wval2 := obj }
/-- A condition that holds elastic work and raises SCHED in timed work (R47, R116, R143, R169, R176). -/
def State.unless (s : State) (ok : Bool) (cause obj : Nat) (p : Plan) : Plan :=
  if ok then p else if s.timed then s.sched cause obj else .hold []
/-- A condition that holds elastic work does so before any other check of it is made; in timed work the condition is checked in
its place (R33, R47, R85, R116, R169, R176, R235). -/
def State.holdFirst (s : State) (ok : Bool) (p : Plan) : Plan := if !ok && !s.timed then .hold [] else p

/-! ## Tags and clocks -/

/-- defined(k) and present(k) (R7, R14). -/
def Core.defined (c : Core) (k : Tag) : Bool := (c.clock k.toNat).defined
def Core.present (c : Core) (k : Tag) : Bool := (c.clock k.toNat).defined && (c.clock k.toNat).present

/-- common(): the result tag of a list of source tags; none where two differ and neither is k0, or one names an undefined
clock (R7, R10, R14, R28). -/
def Core.commonFrom (c : Core) : Tag → List Tag → Option Tag
  | t, [] => some t
  | t, x :: l =>
    if !c.defined x then none
    else if t = 0 then c.commonFrom x l
    else if x = 0 ∨ x = t then c.commonFrom t l
    else none
def Core.common (c : Core) (l : List Tag) : Option Tag := c.commonFrom 0 l

/-- A tag that may steer control or reach untagged state: k0 or k1 (R54). -/
def steer (t : Tag) : Bool := t = 0 ∨ t = 1

/-- Tag and full/empty bit of a tile, tags of an accumulator and a slot. -/
def Core.ttag (c : Core) (t : Nat) : Tag := SMap.get 0 c.tileTag t
def Core.tfull (c : Core) (t : Nat) : Bool := SMap.get false c.tileFull t
def Core.atag (c : Core) (a : Nat) : Tag := SMap.get 0 c.accTag a
def Core.btag (c : Core) (b : Nat) : Tag := SMap.get 0 c.slotTag b
/-- Row i of tile t, its error marks, and its sidecar (R11, R221). -/
def Core.row (c : Core) (t i : Nat) : Row := SMap.get 0 c.rows (t * 16 + i)
def Core.rowErr (c : Core) (t i : Nat) : Word := SMap.get 0 c.rowBad (t * 16 + i)
def Core.side (c : Core) (t : Nat) : Row := SMap.get 0 c.sides t
def Core.sideErr (c : Core) (t : Nat) : Word := SMap.get 0 c.sideBad t
/-- An element of accumulator a among those listed carries an uncorrectable error (R221, R321). -/
def Core.accErr (c : Core) (a : Nat) (l : List Nat) : Bool := l.any fun p => (SMap.get ({} : AccElem) c.accs (a * 256 + p)).bad
/-- A tile carries an uncorrectable error in a row; in a row or in its sidecar (R321). -/
def Core.rowsErr (c : Core) (t : Nat) : Bool := (List.range 16).any fun i => c.rowErr t i ≠ 0
def Core.tileErr (c : Core) (t : Nat) : Bool := c.rowsErr t || c.sideErr t ≠ 0
/-- The coupling value of tile t (R12, R215). -/
def Core.coupling (c : Core) (t : Nat) : Nat := fld (c.csr (0x019 + t / 32)).toNat (2 * (t % 32)) 2
/-- A coupled tile must have its bit at a value; an uncoupled one always may (R12). -/
def Core.tileOk (c : Core) (t : Nat) (full : Bool) : Bool := c.coupling t = 0 || c.tfull t = full

/-- lc[level]: the iteration of the loop running there, or the constant of a C or D level (R17, R68, R274). The loops are those of the
bundle issued last, which stand until the next one issues. -/
def spatialIndex (kind : Nat) (tab : List (Nat × Nat)) (v level : Nat) : Nat :=
  let below := ((List.range level).map fun j => (tab.getD j (0, 0))).foldl (fun a p => if p.1 = kind then a * p.2 else a) 1
  let n := (tab.getD level (0, 0)).2
  if below = 0 ∨ n = 0 then 0 else v / below % n
def lcOf (r : Region) (c : Core) (v level : Nat) : Nat :=
  match (r.loopTab.getD level (0, 0)).1 with
  | 2 => spatialIndex 2 r.loopTab v level
  | 3 => spatialIndex 3 r.loopTab (r.rdie v) level
  | _ => ((c.loopsOld.find? fun l => l.level = level).map LoopRun.iter).getD 0

/-! ## Landings -/

/-- The place of a result of the acting unit in its landing cycle: issue cycle, CORENUM, unit and word order (R24, R34, R151). -/
def State.key (s : State) (due : Nat) (grp : Nat) : Key :=
  { due := due, issue := s.cyc, core := s.rr.corenum s.vidx
    unit := match s.actor with | .control => 0 | .engine e => e + 1, word := grp }
/-- Something due n reference figures after this cycle, stretched by the unit's divisor. -/
def State.after (s : State) (n grp : Nat) (it : Item) : Act := .reg s.ctx (.sched (s.key (s.cyc + n * s.mul) grp) it)
/-- Updates of the acting core that land n figures after this cycle (R23). -/
def State.lands (s : State) (n grp : Nat) (l : List CAct) : Act := s.after n grp (.land s.cur l)
/-- As after, in a later phase of its cycle. -/
def State.afterPhase (s : State) (n grp ph : Nat) (it : Item) : Act :=
  .reg s.ctx (.sched { s.key (s.cyc + n * s.mul) grp with phase := ph } it)

/-- The value of scalar r at the acting core. -/
def State.val (s : State) (r : Nat) : DWord := (s.cc.reg r).val
/-- The tag of scalar r at the acting core. -/
def State.tag (s : State) (r : Nat) : Tag := (s.cc.reg r).tag
/-- Scalar r carries an uncorrectable error (R321). -/
def State.bad (s : State) (r : Nat) : Bool := (s.cc.reg r).bad

/-! ## Scalar results -/

/-- The shape of every scalar result (R53): sources' tags checked, absent clock ends it, an erroneous source raises UECC
(R321), and value and tag land L figures later. -/
def State.scalar (s : State) (srcs : List Nat) (d L grp : Nat) (v : DWord) (flags : Nat) : Plan :=
  let c := s.cc
  match c.common (srcs.map fun r => (c.reg r).tag) with
  | none => s.trap CLOCK
  | some tg =>
    if !c.present tg then .acts []
    else if srcs.any fun r => (c.reg r).bad then s.trap UECC
    else .acts [s.lands L grp (.reg d v tg false :: if flags = 0 then [] else [.orFlags flags])]

/-- The n-th free value from here on, below the bound that the spec states; of any size where bound is 0 (assumptions 3). -/
def State.free (s : State) (n bound : Nat) : Nat :=
  let x := Config.freeNat (s.freeCtr + n)
  if bound = 0 then x else x % bound

/-! ## Addresses (R146) -/

/-- What an address names. -/
inductive Addr where
  | sp (target : Nat) (off : Nat) (far : Bool)
  | global (va : Nat)
  | scope
  | xlate
  deriving DecidableEq, Repr

/-- Decode a 64-bit address for core v of region r (R146). far marks the cluster path. -/
def decodeAddr (r : Region) (v : Nat) (a : DWord) : Addr :=
  let n := a.toNat
  let top := n / 2 ^ 56
  let low := n % 2 ^ 56
  if n / 2 ^ 52 = 0 then .global n
  else if top = 0x80 then if low < Config.spadBytes then .sp (coreId r.ctx v) low false else .scope
  else if top = 0x81 then
    if low / 2 ^ 24 = 0 ∧ low % 2 ^ 20 < Config.spadBytes then
      match r.inCluster v (low / 2 ^ 20) with
      | some u => .sp (coreId r.ctx u) (low % 2 ^ 20) true
      | none => .scope
    else .scope
  else .xlate

/-- The scratchpad address of an offset in the local form of R146, as FADDR reports it. -/
def spAddr (off : Nat) : Nat := 0x80 * 2 ^ 56 + off

/-! ## Page-table entries (R230) -/

def pteV (p : Nat) : Bool := fld p 63 1 = 1
def pteW (p : Nat) : Bool := fld p 62 1 = 1
def pteTE (p : Nat) : Bool := fld p 61 1 = 1
def pteCA (p : Nat) : Bool := fld p 59 1 = 1
def pteScope (p : Nat) : Nat := fld p 56 3
def pteOrd (p : Nat) : Nat := fld p 54 2
def pteTier (p : Nat) : Nat := fld p 52 2
def pteLeaf (p : Nat) : Nat := fld p 50 2
def pteOwner (p : Nat) : Nat := fld p 39 11
def pteFrame (p : Nat) : Nat := fld p 0 39 * 4096
/-- Bytes of the page a leaf maps at a level (R229). -/
def pageSize (level : Nat) : Nat := if level = 0 then 2 ^ 16 else if level = 1 then 2 ^ 21 else 2 ^ 30
/-- The first address past a tier (R226). -/
def tierSize (t : Nat) : Nat := if t = 0 then 2 ^ 39 else if t = 1 then 2 ^ 40 else 2 ^ 51
/-- The key of a physical byte: tier and address (R226). -/
def memKey (tier pa : Nat) : Nat := tier * 2 ^ 51 + pa

/-- One byte of a tier; an unlisted byte reads 0 (assumptions 4). -/
def State.byte (s : State) (key : Nat) : Byte := SMap.get 0 s.mem key
/-- n bytes from a key, little-endian (R5). -/
def State.bytesAt (s : State) (key : Nat) : Nat → Nat
  | 0 => 0
  | n + 1 => (s.byte key).toNat + 256 * s.bytesAt (key + 1) n
/-- The 64-byte block of a byte carries an uncorrectable error (R228). -/
def State.memErr (s : State) (key : Nat) : Bool := SMap.get false s.memBad (key / 64)

/-- A leaf entry is legal at its level (R231). -/
def leafOk (p level : Nat) : Bool :=
  pteLeaf p = level + 1 && decide (level ≤ 2) && decide (pteScope p ≤ 5) && decide (pteOrd p ≤ 2)
    && pteFrame p % pageSize level = 0 && decide (pteFrame p + pageSize level ≤ tierSize (pteTier p))
    && !(pteTE p && pteTier p ≠ 0) && !(pteCA p && decide (2 ≤ pteTier p))

/-- Walk the tables from a level's table down (R229, R231): the leaf and its level, or nothing where the walk fails, or meets a poisoned
entry (R228; assumptions 48). -/
def State.walkFrom (s : State) (va : Nat) : Nat → Nat → Option (Nat × Nat)
  | 0, tab =>
    let p := s.bytesAt (memKey 0 (tab + 8 * fld va 16 5)) 8
    if pteV p && leafOk p 0 && !s.memErr (memKey 0 (tab + 8 * fld va 16 5)) then some (p, 0) else none
  | l + 1, tab =>
    let idx := if l + 1 = 3 then fld va 39 13 else if l + 1 = 2 then fld va 30 9 else fld va 21 9
    let p := s.bytesAt (memKey 0 (tab + 8 * idx)) 8
    if !pteV p || s.memErr (memKey 0 (tab + 8 * idx)) then none
    else if pteLeaf p = 0 then
      if p = 2 ^ 63 + fld p 0 39 then s.walkFrom va l (pteFrame p) else none
    else if leafOk p (l + 1) then some (p, l + 1) else none

/-- The translation of an address for a context (R229). -/
def State.walk (s : State) (ctx va : Nat) : Option TlbEnt :=
  let root := (SMap.get {} s.handles (s.region ctx).handle).root
  (s.walkFrom va 3 root).map fun p => ⟨va / pageSize p.2 * pageSize p.2, pageSize p.2, ctx, BitVec.ofNat 64 p.1, false⟩

/-- An entry covers an address. -/
def TlbEnt.covers (e : TlbEnt) (ctx va : Nat) : Bool := e.ctx = ctx && decide (e.base ≤ va) && decide (va < e.base + e.size)
/-- The core TLB entry for an address (R235). -/
def Core.tlbHit (c : Core) (ctx va : Nat) : Option TlbEnt := c.tlb.find? fun e => e.covers ctx va
/-- The physical key of an address under an entry. -/
def TlbEnt.key (e : TlbEnt) (va : Nat) : Nat := memKey (pteTier e.pte.toNat) (pteFrame e.pte.toNat + (va - e.base))
/-- The entries with the one used put first: least recently used last (R235). -/
def touchTlb (e : TlbEnt) (l : List TlbEnt) : List TlbEnt := e :: l.filter (· ≠ e)
/-- Fill: the least recently used unlocked entry is replaced when 64 stand (R235). -/
def fillTlb (e : TlbEnt) (l : List TlbEnt) : List TlbEnt :=
  if l.length < Config.tlbEntries then e :: l
  else match l.reverse.findIdx? (fun x => !x.locked) with
    | some i => e :: (l.reverse.eraseIdx i).reverse
    | none => l

/-- The issuer lies in the page's scope (R233). -/
def scopeOk (r : Region) (v p : Nat) : Bool :=
  match pteScope p with
  | 0 => pteOwner p = v
  | 1 => r.cluster v = r.cluster (pteOwner p)
  | 3 => r.rdie v = pteOwner p
  | _ => true

/-- The page a walk is for: the page the tables give, or the 64 KiB granule where they give none. -/
def State.pageOf (s : State) (ctx va : Nat) : Nat := ((s.walk ctx va).map TlbEnt.base).getD (va / 2 ^ 16 * 2 ^ 16)
/-- The walks of a list that can start: no die runs more than its walker holds, and the oldest start first (R236). -/
def startable (l : List Walk) : List Nat :=
  (List.range l.length).filter fun i => match l[i]? with
    | some w => !w.started && decide ((l.filter fun x => x.die = w.die ∧ x.started).length +
        ((l.take i).filter fun x => x.die = w.die ∧ !x.started).length < Config.walkMax)
    | none => false
/-- The walks become this list, of which all that can start do. How long a walk takes is a free value (R236; assumptions 3). -/
def startWalks (s : State) (l : List Walk) : List Act :=
  let new := startable l
  .pkg (.walks ((l.zip (List.range l.length)).map fun p => if new.contains p.2 then { p.1 with started := true } else p.1)) ::
    if new = [] then []
    else (((new.zip (List.range new.length)).filterMap fun p => l[p.1]?.map fun w =>
      Act.pkg (.later (s.now + 1 + s.free p.2 0) (.ev (coreId w.ctx 0) (.tlbWalkComplete w.die w.ctx w.va))))) ++ [.pkg (.takeFree new.length)]
/-- Ask for a walk (R236): join the walk of the page, or start one, or wait in age order; beyond the merge buffer the access
is held at its core. -/
def State.walkReq (s : State) (va : Nat) : List Act :=
  let die := s.rr.dieidx s.vidx
  let page := s.pageOf s.ctx va
  let mine := s.walks.filter fun w => w.die = die
  if (mine.any fun w => w.waiters.any (fun x => x.1 = s.cur && x.2.1 = s.unit) && w.ctx = s.ctx && w.va = page) ||
      decide (Config.mergeMax ≤ ((mine.map fun w => w.waiters.length).sum)) then []
  else if mine.any fun w => w.ctx = s.ctx && w.va = page then
    [.pkg (.walks (s.walks.map fun w =>
      if w.die = die ∧ w.ctx = s.ctx ∧ w.va = page then { w with waiters := w.waiters ++ [(s.cur, s.unit, va)] } else w))]
  else
    startWalks s (s.walks ++ [⟨die, s.ctx, page, false, [(s.cur, s.unit, va)]⟩])
/-- A miss: in timed work XLATE at once, never retried; otherwise the access is held while the miss is served (R235). -/
def State.miss (s : State) (va : Nat) : Plan := if s.timed then s.trapAt XLATE va else .hold (s.walkReq va)

/-- What an access does to a page, for the checks of R232. -/
structure Access where
  write : Bool := false
  locked : Bool := false
  cell : Bool := false
  amo : Option Nat := none
  deriving DecidableEq, Repr
/-- The feature of the peer's route is there: a port is up, and 1.1 or later for an atomic (R351). -/
def State.peerOk (s : State) (pa : Nat) (atomic : Bool) : Bool :=
  let p := SMap.get 0 s.routes (fld pa 43 8)
  p ≠ 0 && (SMap.get {} s.ports (p - 1)).up && decide ((if atomic then 0x0101 else 0x0100) ≤ (SMap.get {} s.ports (p - 1)).version)
/-- A byte of a peer whose route is down (R351). -/
def State.peerDown (s : State) (key : Nat) : Bool := decide (3 * 2 ^ 51 ≤ key) && !s.peerOk (key % 2 ^ 51) false
/-- The first failing check of a leaf (R232, R233, R237, R351): its trap code, or 0. -/
def State.leafFault (s : State) (e : TlbEnt) (acc : Access) : Nat :=
  let p := e.pte.toNat
  if !scopeOk s.rr s.vidx p then SCOPE
  else if acc.write && !pteW p then XLATE
  else if acc.locked && !e.locked then XLATE
  else if acc.cell && !pteCA p then XLATE
  else match acc.amo with
    | some sub =>
      if pteTier p = 2 ∧ sub ≠ 0 ∧ sub ≠ 8 ∧ sub ≠ 9 then XLATE
      else if pteTier p = 3 ∧ !s.peerOk (pteFrame p) true then XLATE else 0
    | none => if pteTier p = 3 ∧ !s.peerOk (pteFrame p) false then XLATE else 0

/-- The result of translating a byte range. -/
inductive XRes where
  | ok (keys : List Nat) (used : List TlbEnt)
  | miss (va : Nat)
  | fault (code va : Nat)
  deriving DecidableEq, Repr
/-- A page that the core's TLB lacks: a miss, or XLATE where the walk that the held bundle asked for has found none (R147, R235, R236). -/
def Core.unmapped (c : Core) (va : Nat) : XRes := if c.missed.contains va then .fault XLATE va else .miss va
/-- Translate n bytes from va, at most two pages (R154, R235). -/
def State.translate (s : State) (va n : Nat) (acc : Access) : XRes :=
  let c := s.cc
  match c.tlbHit s.ctx va with
  | none => c.unmapped va
  | some e =>
    if s.leafFault e acc ≠ 0 then .fault (s.leafFault e acc) va
    else if e.covers s.ctx (va + n - 1) then .ok ((List.range n).map fun i => e.key (va + i)) [e]
    else
      let va' := e.base + e.size
      if 2 ^ 52 ≤ va' then .fault XLATE va'
      else match c.tlbHit s.ctx va' with
        | none => c.unmapped va'
        | some e' =>
          if s.leafFault e' acc ≠ 0 then .fault (s.leafFault e' acc) va'
          else .ok ((List.range n).map fun i => if va + i < va' then e.key (va + i) else e'.key (va + i)) [e, e']
/-- Go on with the keys of a translated range; the entries used become the most recent (R235). -/
def State.withKeys (s : State) (va n : Nat) (acc : Access) (k : List Nat → List TlbEnt → List Act → Plan) : Plan :=
  match s.translate va n acc with
  | .ok keys used => k keys used [s.upd (.tlb (used.foldr touchTlb s.cc.tlb))]
  | .miss a => s.miss a
  | .fault code a => s.trapAt code a

/-! ## Scratchpad -/

/-- n scratchpad bytes of a core from an offset, little-endian. -/
def Core.spNat (c : Core) (off : Nat) : Nat → Nat
  | 0 => 0
  | n + 1 => (SMap.get 0 c.spad off).toNat + 256 * c.spNat (off + 1) n
/-- A byte range touches a scratchpad word that carries an error (R221). -/
def Core.spErr (c : Core) (off n : Nat) : Bool := (dwordsOf off n).any fun w => SMap.get false c.spadBad w
/-- n bytes of a number, low byte first. -/
def bytesOf (v : Nat) : Nat → List Byte
  | 0 => []
  | n + 1 => BitVec.ofNat 8 v :: bytesOf (v / 256) n

/-- The undo arena: base offset and size in bytes (R215, R224). -/
def Core.arena (c : Core) : Nat × Nat := (fld (c.csr 0x062).toNat 6 13 * 64, fld (c.csr 0x062).toNat 32 11 * 64)
/-- A byte range meets the undo arena while a level is open (R215). -/
def Core.inArena (c : Core) (off n : Nat) : Bool :=
  c.levels.length > 0 && decide (n > 0) && decide (c.arena.2 > 0) && decide (off < c.arena.1 + c.arena.2) && decide (c.arena.1 < off + n)
/-- A software write to core t at an offset raises SCOPE: the arena of an open level, or the save area from user mode (R215, R220). -/
def writeBarred (t : Core) (m : Mode) (off n : Nat) : Bool :=
  t.inArena off n || (m = .user && decide (n > 0) && decide (Config.saveArea < off + n))

/-- The 64-byte header of an undo record (R225). -/
def undoHeader (kind level len first last cyc : Nat) : List Byte :=
  bytesOf (kind + level * 2 ^ 16 + len * 2 ^ 32 + first * 2 ^ 64 + last * 2 ^ 128 + cyc * 2 ^ 192) 64
/-- The next free arena byte, relative to the arena's base. -/
def roundUp64 (n : Nat) : Nat := (n + 63) / 64 * 64

/-- The levels whose .M ranges name a line and that have not captured it, outermost first (R207). -/
def Core.levelsToCapture (c : Core) (line : Nat) : List Nat :=
  (List.range (c.levels.length + 1)).filter fun lv =>
    c.undo.any (fun r => r.kind = 4 ∧ r.level = lv ∧ r.first < line + 64 ∧ line < r.first + r.last) &&
      !c.undo.any fun r => r.kind = 5 ∧ r.level = lv ∧ r.first = line

/-- Capture one line before a write performs on it, in one record for each level that names it (R207, R225); UNDOOVF where a
record does not fit, and the write stands. -/
def captureLine (s : State) (id line : Nat) : List Act :=
  let c := s.core id
  let base := c.arena.1
  let cyc := (s.region (id / 2048)).cyc
  let rec go : Nat → List Nat → List Act
    | _, [] => []
    | top, lv :: ls =>
      if c.arena.2 < top + 128 then
        let f : FaultInfo := { code := UNDOOVF, core := id, eng := 3, timed := c.seg.isSome, wobj := lv, wval1 := 128 }
        .reg (id / 2048) (.raise { f with wval2 := c.arena.2 - top, faddr := spAddr line }) :: go top ls
      else
        [.core id (.spad (base + top) (undoHeader 5 lv 64 line 0 cyc ++ bytesOf (c.spNat line 64) 64)),
         .core id (.spadBad (base + top) 64 false)] ++
          ((List.range 8).map fun w => .core id (.spadBad (base + top + 64 + 8 * w) 8 (c.spErr (line + 8 * w) 8))) ++
        [.core id (.undoPush ⟨lv, 5, line, 0, base + top, 64⟩ (top + 128))] ++ go (top + 128) ls
  go c.undoTop (c.levelsToCapture line)

/-- A write of bytes performs on a core's scratchpad: lines captured first, then the bytes; a whole word written clears its
error mark, a part keeps it (R207, R221). bad marks data written with an uncorrectable code (R321). -/
def spWrite (s : State) (id off : Nat) (l : List Byte) (bad : Bool) : List Act :=
  if l = [] then [] else
  let n := l.length
  let lines := (List.range ((off + n - 1) / 64 - off / 64 + 1)).map fun i => (off / 64 + i) * 64
  let rec caps : State → List Nat → List Act
    | _, [] => []
    | s, x :: xs => let a := captureLine s id x; a ++ caps (s.applyAll a) xs
  let whole := (dwordsOf off n).filter fun w => off ≤ w * 8 ∧ w * 8 + 8 ≤ off + n
  caps s lines ++ [.core id (.spad off l)] ++
    (if bad then [.core id (.spadBad off n true)] else whole.map fun w => .core id (.spadBad (w * 8) 8 false))

/-! ## Memory writes -/

/-- Write bytes at keys; a wholly rewritten 64-byte block loses its error mark, a part keeps it (R228). -/
def memWrite (l : List (Nat × Byte)) (bad : Bool) : List Act :=
  let blocks := (l.map fun p => p.1 / 64).eraseDups
  l.map (fun p => .pkg (.mem p.1 p.2)) ++
    (if bad then blocks.map fun b => .pkg (.memBad b true)
     else (blocks.filter fun b => (l.filter fun p => p.1 / 64 = b).length = 64).map fun b => .pkg (.memBad b false))

/-- A journal entry of the acting region on a die (R357). The kind numbers are the model's (assumptions 10). -/
def State.log (s : State) (kind data : Nat) : Act :=
  .pkg (.journal (s.rr.dieidx s.vidx) ⟨s.dtime, s.rr.instant, s.ctx, kind, s.vidx, data⟩)

/-- A journal entry on a die (R357; kind numbers, assumptions 10). -/
def State.note (s : State) (die kind ctx core data : Nat) : Act :=
  .pkg (.journal die ⟨s.dtime, (s.region ctx).instant, ctx, kind, core, data⟩)

/-! ## Taking an exception and returning from one -/

/-- Entry to the handler on the faulting core (R214, R216): TRAPC, TRAPST and TRAPPC are written, the mode becomes system,
and the next bundle issues at TVEC one cycle after the stop. The open segment, the waits the stream was held in and the cycle
of its next bundle are kept for the resume, with the address of the bundle issued last (R312). -/
def enterHandler (f : FaultInfo) (pseg : Bool) (c : Core) (cyc : Nat) : List CAct :=
  let nx := if f.next then 4 else 0
  let sg := if pseg then 2 else 0
  let pm := if c.mode = .system then 1 else 0
  [.csr 0x050 (BitVec.ofNat 64 (f.info * 2 ^ 16 + f.code)), .csr 0x051 (BitVec.ofNat 64 (nx + sg + pm)),
   .csr 0x052 (BitVec.ofNat 64 (c.pc % 2 ^ 13)), .mode .system, .inHandler true, .trapped false, .held false, .segSaved c.seg, .seg none,
   .saved c.waits c.nextAt (c.pc % 2 ^ 13) c.issPc, .waits [],
   .pc (fld (c.csr 0x054).toNat 0 13), .nextAt (cyc + 1)]

/-- Length in words of the bundle at an address (R32, R35). -/
def bundleLen (code : SMap Word) (pc : Nat) : Nat :=
  let w0 := (SMap.get 0 code pc).toNat
  if takesLiteral (w0 % 2 ^ 31) then 2
  else if w0 / 2 ^ 31 = 1 then 1
  else if (SMap.get 0 code (pc + 1)).toNat / 2 ^ 31 = 1 then 2
  else 3

/-- The memory that a core reads its bundle from: the image's, or in the handler, within the handler's words, the firmware's (R36, R214, R374;
assumptions 62). -/
def Region.codeAt (r : Region) (c : Core) : SMap Word :=
  if c.inHandler && decide (r.fwAt ≤ c.pc) && decide (c.pc < r.fwAt + Config.handlerLen) then r.fw else r.code

/-- Return from the handler (R217): the mode becomes PMODE and the stream resumes at TRAPPC, or after its bundle. -/
def leaveHandler (r : Region) (c : Core) : List CAct :=
  let st := (c.csr 0x051).toNat
  let pc := fld (c.csr 0x052).toNat 0 13
  let tgt := if fld st 2 1 = 1 then pc + bundleLen r.code pc else pc
  [.mode (if fld st 0 1 = 1 then .system else .user), .inHandler false, .pc tgt, .npc tgt 1, .seg c.segSaved, .segSaved none]

/-- Move every stamp that a freeze left due forward by d (R312). -/
def Wait.shift (d : Nat) (w : Wait) : Wait := { w with since := w.since + d, due := w.due.map (· + d) }

/-- A control-core word that may not stand in a timed segment (R65, R147, R155, R161, R177, R198, R205, R212). -/
def State.notTimed (s : State) (p : Plan) : Plan := if s.inSeg then s.trap TIMING else p

/-! ## Issuing -/

/-- A word placed by the control core as stored, its E bit included (R31, R42). -/
def State.rawOf (s : State) (i : Instr) : Word :=
  let e := encode i
  let a := s.word % 2 ^ 32
  let b := s.word / 2 ^ 32 % 2 ^ 32
  let c := s.word / 2 ^ 64 % 2 ^ 32
  BitVec.ofNat 32 (if a % 2 ^ 31 = e then a else if b % 2 ^ 31 = e then b else if c % 2 ^ 31 = e then c else e)

/-- A one-step entry (R42): no guard, tokens, repeats or skew; its stamp is the stamp of its bundle. In SEGB's own bundle, in which no
segment is open yet, it is placed as elastic (R73 does not say; the model's choice; assumptions 74). -/
def State.oneStep (s : State) (i : Instr) : QEntry :=
  { stamp := s.cyc - s.rr.ibase, base := 0, count := 1, reps := 0, guard := none, wtok := none, stok := none
    timed := s.inSeg, instant := s.rr.instant, word := some (s.rawOf i) }

/-- Queue e of the acting core has a free position (R18). -/
def queueFree (c : Core) (e : Nat) : Bool := decide ((c.eng e).queue.length < Config.queueDepth)
/-- The acting unit can place an entry on queue e now; a step of an engine places none (R33, R176). -/
def State.placeable (s : State) (e : Nat) : Bool := match s.actor with | .control => queueFree s.cc e | .engine _ => true
/-- Place a one-step entry, once the word's issue check has passed (R33, R42, R176). A one-step word carries no guard and no tokens
(R42), so it neither takes nor clears the attributes that GUARD left pending (the model's choice; assumptions 59). At a full queue in a timed
segment SCHED comes before the CLOCK of its tags (R33 and R176 give no order; the model's choice; assumptions 74). -/
def State.place (s : State) (e : Nat) (i : Instr) (tags : List Tag) : Plan :=
  s.unless (queueFree s.cc e) 2 e
    (match s.cc.common tags with
     | none => s.trap CLOCK
     | some _ => .acts [s.upd (.engPush e (s.oneStep i))])

/-- A step of the acting engine dequeues: its occupancy and its last landing, in figures from here, and the untimed copies
it starts (R112, R142, R175, R291, R294). -/
def State.stepDone (s : State) (occ land copies : Nat) : Act :=
  s.upd (.stepDone s.unit (s.cyc + occ * s.mul) (s.cyc + land * s.mul) copies)

/-- Where the control stream goes on after a bundle has issued: the loops that the transfer leaves end, and a loop whose
last bundle issued without a taken transfer goes round or ends, also under an inner loop that a CALL or a RET left open, which ends
with it (R68 to R71; assumptions 55). A LOOP of count 0 whose body ends this one is this one's last bundle (the model's choice;
assumptions 55). xfer: 0 none, 1 a jump or branch, 2 CALL or RET, and 3 TRET, which end no loop and go round none (R71, R217). -/
def loopsAfter (xfer iss next : Nat) : List LoopRun → List LoopRun × Nat × Nat
  | [] => ([], next, 0)
  | l :: ls =>
    if 2 ≤ xfer then (l :: ls, next, 0)
    else if xfer = 1 then
      if l.first ≤ next ∧ next < l.stop then (l :: ls, next, 0) else loopsAfter xfer iss next ls
    else if next = l.stop ∧ l.first ≤ iss ∧ iss < l.stop then
      if l.iter + 1 < l.count then ({ l with iter := l.iter + 1 } :: ls, l.first, if 64 < l.len then 1 else 0)
      else loopsAfter xfer iss next ls
    else
      let o := loopsAfter xfer iss next ls
      if o.1.length < ls.length then o else (l :: o.1, o.2)

/-- One byte after another of a stored word, least significant first (R75). -/
def wordBytes (w : Nat) : List Nat := [w % 256, w / 256 % 256, w / 65536 % 256, w / 16777216 % 256]
/-- The bytes that the bundle issuing adds to a signature: its words as stored, and the literal of RUNS or LOOPB (R75). The
packed words end at the first whose E bit is 1. -/
def bundleBytes (w : Nat) : List Nat :=
  let a := w % 2 ^ 32
  let b := w / 2 ^ 32 % 2 ^ 32
  let c := w / 2 ^ 64 % 2 ^ 32
  if takesLiteral (a % 2 ^ 31) then wordBytes a ++ wordBytes b
  else if a / 2 ^ 31 = 1 then wordBytes a
  else if b / 2 ^ 31 = 1 then wordBytes a ++ wordBytes b
  else wordBytes a ++ wordBytes b ++ wordBytes c

/-- How the bundle that has issued leaves the loops: as its transfer says; a word of the handler that lies over the image's own words is in
no body, and ends no loop (assumptions 62). -/
def Core.leave (c : Core) (fwAt : Nat) : Nat :=
  if c.inHandler && decide (fwAt ≤ c.issPc) && decide (Config.codeWords ≤ fwAt + Config.handlerLen) then 2 else c.xfer
/-- What retires a bundle of the control core: the pc moves on, loops turn, the next issue cycle is set, and an open segment's
signature takes its words (R55, R66, R70, R75). The idle cycle of a back edge follows the cycle that WAITS names, too, where WAITS
stands in the last bundle of a long body; any other wait that the bundle begins absorbs it, as does the instant that follows an ENDI
(R70, R79; the model's choice; assumptions 55). TRET's own word is none of the interrupted segment's (R75, R217). A handler that stands in place of
an image's words is in none of its loops (assumptions 62). -/
def retire (s : State) : List Act :=
  let c := s.cc
  let d := c.divisor 0
  let (ls, pc, extra) := loopsAfter (c.leave s.rr.fwAt) c.issPc c.npc c.loops
  [s.upd (.loopsOld c.loops), s.upd (.loops ls), s.upd (.pc pc), s.upd (.nextAt (s.cyc + c.ncost + extra * d)), s.upd (.held false), s.upd (.xfer 0)] ++
    if s.inSeg && c.xfer ≠ 3 then [s.upd (.crc (bundleBytes s.word))] else []

/-- The stored word of the step at an engine's head (R42, R43). -/
def Core.micro (c : Core) (e : Nat) : Word :=
  let g := c.eng e
  match g.queue.head?.bind QEntry.word with
  | some w => w
  | none => SMap.get 0 c.tables (e * 1024 + g.step)
/-- The entry at the head has taken its sequence number, at its first dequeue (R172). -/
def Engine.taken (g : Engine) : Bool := g.running && decide (g.seq ≠ g.headSeq)
/-- The step counter after a step has dequeued: the next step, the next pass, or the end of the entry, which then finishes
(R172, R173, R175). -/
def Engine.advance (g : Engine) : Engine :=
  match g.queue with
  | [] => { g with blocked := false, xl := [], xm := [] }
  | q :: rest =>
    if g.step + 1 < q.base + q.count then { g with step := g.step + 1, blocked := false, xl := [], xm := [], seq := g.headSeq + 1 }
    else if 0 < g.rep then { g with step := q.base, rep := g.rep - 1, blocked := false, xl := [], xm := [], seq := g.headSeq + 1 }
    else { g with queue := rest, seq := g.headSeq + 1, running := false, blocked := false, xl := [], xm := [], serial := g.serial + 1, doneAt := 0, copies := 0
                  finishing := g.finishing ++ [⟨g.serial, g.headSeq, g.doneAt, g.copies, q.stok, q.timed⟩] }
/-- An engine with its queue and the queue's pending attributes emptied and its step counter set (R314, R317); an entry
that had taken its sequence number keeps it, and the other discarded entries take none (R306). -/
def Engine.emptied (g : Engine) (step at_ : Nat) : Engine :=
  { g with queue := [], running := false, step := step, rep := 0, due := 0, doneAt := 0, copies := 0, freeAt := at_, lastH := none
           finishing := [], blocked := false, stopped := false, xm := [], aGuard := none, aWait := none, aSig := none }
/-- What retires a step: the step counter moves on, and the micro-order is kept for a signature (R75, R173). -/
def retireStep (s : State) (e : Nat) : List Act :=
  let c := s.cc
  [s.upd (.segBuf (c.segBuf ++ [(e, (c.micro e).toNat)])), s.upd (.eng e (c.eng e).advance)]

/-- The updates a plan makes: its own and the retirement; a trap stops the stream at the trapping bundle, whose words no signature takes,
also where NEXT = 1 passes over it (R75 does not say; the model's choice; assumptions 75), or its engine at the faulting step; a hold marks
the bundle or step. A step of MX or VX that is blocked after the freeze stops there, and a step that would fault stops its entry and raises nothing; a copy step goes on waiting for its translations (R235, R304). -/
def Plan.run (s : State) : Plan → List Act
  | .acts l =>
    match s.actor with
    | .control => l ++ retire (s.applyAll l)
    | .engine e => l ++ retireStep (s.applyAll l) e
  | .trap f =>
    match s.actor with
    | .control => [.reg s.ctx (.raise f), s.upd (.trapped true), s.upd (.pc s.cc.issPc)]
    | .engine e =>
      if s.rr.phase = .stopping then [s.upd (.eng e { s.cc.eng e with stopped := true })]
      else [.reg s.ctx (.raise f), s.upd (.eng e { s.cc.eng e with stopped := true })]
  | .hold l =>
    match s.actor with
    | .control => l ++ [s.upd (.held true), s.upd (.pc s.cc.issPc), s.upd (.nextAt (s.cyc + 1))]
    | .engine e => l ++ [s.upd (.eng e { s.cc.eng e with blocked := true, stopped := decide (s.rr.phase = .stopping) && e ≠ 2 })]

/-- A fault that a step raises as it lands or performs, after its dequeue: its entry, if it still runs, stops; from the freeze on the fault
is neither raised nor recorded (R304). -/
def lateFault (s : State) (f : FaultInfo) : List Act :=
  let g := (s.core f.core).eng f.eng
  (if g.running ∧ g.headSeq.toNat = f.fseq then [.core f.core (.eng f.eng { g with stopped := true })] else []) ++
    if (s.region (f.core / 2048)).closed then [] else [.reg (f.core / 2048) (.raise f)]
/-- Every meaning ends here: its plan's updates give the next state. -/
def resolve (s : State) (p : Plan) : Host.Outcome State Fault Refusal := .next (s.applyAll (p.run s))

/-- An event's updates give the next state; an event retires no bundle. -/
def settle (s : State) (l : List Act) : Host.Outcome State Fault Refusal := .next (s.applyAll l)

end Sys2Proof.Machine
end

