-- ==== Sys2Proof/Machine/Control.lean ====
section
/-! DEFINITION. Class 3: idling, transfers, loops, timed segments, instants (R64 to R79). -/

namespace Sys2Proof.Machine

/-- A word that reads one steering scalar (R54) and may not stand in a timed segment (R65). -/
def steered (s : State) (a : Nat) (p : Plan) : Plan :=
  if !steer (s.tag a) then s.trap CLOCK else s.notTimed (if s.bad a then s.trap UECC else p)
/-- Go to a word address: kind 1 a jump or branch, 2 CALL or RET (R55, R67, R71). -/
def goTo (s : State) (t kind : Nat) : List Act := [s.upd (.npc t (s.cc.divisor 0)), s.upd (.xfer kind)]

/-- The first word past n bundles from pc (R68). -/
def bodyEnd (code : SMap Word) (pc : Nat) : Nat → Nat
  | 0 => pc
  | n + 1 => bodyEnd code (pc + bundleLen code pc) n

/-- Start a loop (R68, R69). -/
def startLoop (s : State) (level count len : Nat) : Plan :=
  let c := s.cc
  let first := c.npc
  let stop := bodyEnd (s.rr.codeAt s.cc) first len
  let kind := (s.rr.loopTab.getD level (0, 0)).1
  if c.loops.any (fun l => l.level = level) ∨ kind = 2 ∨ kind = 3 ∨ Config.codeWords < stop
      ∨ c.loops.any (fun l => first < l.first ∨ l.stop < stop) then s.trap ILLEGAL
  else if count = 0 then .acts [s.upd (.npc stop (c.divisor 0))]
  else .acts [s.upd (.loops (⟨level, first, stop, count, 0, len⟩ :: c.loops))]

/-- The index in the segment table of the SEGB at an address (R74, R309), and 0 where no entry holds that address (the model's choice;
assumptions 75). -/
def segIndex (r : Region) (pc : Nat) : Nat := (r.segs.findIdx? fun e => e.1 = pc).getD 0

/-- The bytes that an engine's dequeues of this cycle add to a signature, in engine order (R75). -/
def engBytes (l : List (Nat × Nat)) : List Nat :=
  ([0, 1, 2].map fun e => (l.filter fun p => p.1 = e).map fun p =>
    [e, p.2 % 256, p.2 / 256 % 256, p.2 / 65536 % 256, p.2 / 16777216 % 256]).flatten.flatten

def planIdle (n : BitVec 16) (s : State) : Plan := .acts [s.upd (.npc s.cc.npc (n.toNat * s.cc.divisor 0))]
def planJmp (t : BitVec 13) (s : State) : Plan := .acts (goTo s t.toNat 1)
def planBnz (a : BitVec 6) (t : BitVec 13) (s : State) : Plan :=
  steered s a.toNat (.acts (if s.val a.toNat ≠ 0 then goTo s t.toNat 1 else []))
def planBz (a : BitVec 6) (t : BitVec 13) (s : State) : Plan :=
  steered s a.toNat (.acts (if s.val a.toNat = 0 then goTo s t.toNat 1 else []))
def planCall (t : BitVec 13) (s : State) : Plan :=
  s.notTimed (.acts (s.lands 1 0 [.reg 63 (BitVec.ofNat 64 s.cc.npc) 0 false] :: goTo s t.toNat 2))
def planRet (s : State) : Plan := steered s 63 (.acts (goTo s (fld (s.val 63).toNat 0 13) 2))
def planLoop (l : BitVec 3) (c : BitVec 12) (n : BitVec 8) (s : State) : Plan := startLoop s l.toNat c.toNat n.toNat
/-- LOOPS (R68, R69). Its tag, the timed segment and an error of its source come before R69's ILLEGAL (CLOCK, TIMING, UECC, ILLEGAL: the
model's choice; assumptions 27). -/
def planLoops (l : BitVec 3) (a : BitVec 6) (n : BitVec 8) (s : State) : Plan :=
  steered s a.toNat (startLoop s l.toNat (fld (s.val a.toNat).toNat 0 32) n.toNat)
/-- SEGB opens a segment written for the divisor in force (R73, R295). -/
def planSegb (v : BitVec 3) (n : BitVec 16) (s : State) : Plan :=
  let c := s.cc
  s.notTimed (
    if v.toNat + 1 ≠ c.divisor 0 then
      .trap { s.fault SEGLEN with wobj := segIndex s.rr c.issPc, wval1 := v.toNat + 1, wval2 := c.divisor 0 }
    else .acts [s.upd (.seg (some ⟨s.cyc, n.toNat, v.toNat + 1, BitVec.ofNat 32 0xFFFFFFFF, c.issPc⟩))])
/-- SEGE compares the length, then the signature (R73, R75). -/
def planSege (lit : Word) (s : State) : Plan :=
  match s.cc.seg with
  | none => s.trap ILLEGAL
  | some g =>
    let n := s.cyc - g.start + 1
    let crc := crcBytes g.crc.toNat (wordBytes (s.rawOf (.sege lit)).toNat ++ engBytes s.cc.segBuf) ^^^ 0xFFFFFFFF
    if n ≠ g.len then .trap { s.fault SEGLEN with wobj := segIndex s.rr g.pc, wval1 := g.len, wval2 := n }
    else if crc ≠ lit.toNat then .trap { s.fault SEGSIG with wobj := segIndex s.rr g.pc, wval1 := lit.toNat, wval2 := crc }
    else .acts [s.upd (.seg none)]
/-- ENDI is the core's arrival at the commit; the arrival counts when its entries have completed (R26, R76). -/
def planEndi (s : State) : Plan := s.notTimed (.acts [s.upd (.arrived true 0)])
/-- KEND first performs REND on each open level, then acts as ENDI, and ends the group at the commit (R77). -/
def planKend (s : State) : Plan :=
  s.notTimed (
    if s.cc.levels.length > 0 then .acts [s.upd (.kendPend true), s.upd (.wait ⟨.rend true, s.cyc, none⟩)]
    else .acts [s.upd (.kend true), s.upd (.arrived true 0)])
/-- NEXTS chooses among n consecutive segments (R78). Past the table it raises ILLEGAL, before a tag raises CLOCK and an open segment
TIMING (the model's choice; assumptions 27). -/
def planNexts (a : BitVec 6) (n : BitVec 5) (b : BitVec 12) (s : State) : Plan :=
  if s.rr.segs.length < b.toNat + n.toNat then s.trap ILLEGAL
  else steered s a.toNat
    (.acts (goTo s (s.rr.segs.getD (b.toNat + min (s.val a.toNat).toNat (n.toNat - 1)) (0, 0, 1)).1 1))
/-- WAITS holds the stream until IBASE + stamp (R79). -/
def planWaits (st : BitVec 23) (s : State) : Plan :=
  let at_ := s.rr.ibase + st.toNat
  s.notTimed (
    if at_ < s.cyc + 1 then .trap { s.fault SCHED with wobj := 12, wval1 := at_ }
    else .acts [s.upd (.npc s.cc.npc (at_ - s.cyc))])

-- The meanings: one for each instruction of this file.
/-- IDLE (R66). -/
def execIdle (n : BitVec 16) (s : State) : Host.Outcome State Fault Refusal := resolve s (planIdle n s)
/-- JMP (R67). -/
def execJmp (t : BitVec 13) (s : State) : Host.Outcome State Fault Refusal := resolve s (planJmp t s)
/-- BNZ (R67). -/
def execBnz (a : BitVec 6) (t : BitVec 13) (s : State) : Host.Outcome State Fault Refusal := resolve s (planBnz a t s)
/-- BZ (R67). -/
def execBz (a : BitVec 6) (t : BitVec 13) (s : State) : Host.Outcome State Fault Refusal := resolve s (planBz a t s)
/-- CALL (R67). -/
def execCall (t : BitVec 13) (s : State) : Host.Outcome State Fault Refusal := resolve s (planCall t s)
/-- RET (R67). -/
def execRet (s : State) : Host.Outcome State Fault Refusal := resolve s (planRet s)
/-- LOOP (R68). -/
def execLoop (l : BitVec 3) (c : BitVec 12) (n : BitVec 8) (s : State) : Host.Outcome State Fault Refusal := resolve s (planLoop l c n s)
/-- LOOPS (R68). -/
def execLoops (l : BitVec 3) (a : BitVec 6) (n : BitVec 8) (s : State) : Host.Outcome State Fault Refusal := resolve s (planLoops l a n s)
/-- SEGB (R73). -/
def execSegb (v : BitVec 3) (n : BitVec 16) (s : State) : Host.Outcome State Fault Refusal := resolve s (planSegb v n s)
/-- SEGE (R73). -/
def execSege (lit : Word) (s : State) : Host.Outcome State Fault Refusal := resolve s (planSege lit s)
/-- ENDI (R76). -/
def execEndi (s : State) : Host.Outcome State Fault Refusal := resolve s (planEndi s)
/-- KEND (R77). -/
def execKend (s : State) : Host.Outcome State Fault Refusal := resolve s (planKend s)
/-- NEXTS (R78). -/
def execNexts (a : BitVec 6) (n : BitVec 5) (b : BitVec 12) (s : State) : Host.Outcome State Fault Refusal := resolve s (planNexts a n b s)
/-- WAITS (R79). -/
def execWaits (s : BitVec 23) (σ : State) : Host.Outcome State Fault Refusal := resolve σ (planWaits s σ)

end Sys2Proof.Machine
end

