-- ==== Sys2Proof/Machine/Arith.lean ====
section
/-! DEFINITION. Number formats and exact arithmetic: element formats, one rounding, expansion and fold, command sums and
the accumulator (R91 to R104, R110). Flags are numbers: 8 invalid, 4 overflow, 2 underflow, 1 inexact. -/

namespace Sys2Proof.Machine

/-- A value exactly: NaN, an infinity, or (-1)^neg · m · 2^e, both zeros included (R91, R92). -/
inductive FVal where
  | nan
  | inf (neg : Bool)
  | fin (neg : Bool) (m : Nat) (e : Int)
  deriving DecidableEq, Repr

/-- Rounding modes by their codes: 0 RNE, 1 RZ, 2 RU, 3 RD (R96). -/
abbrev Rnd := Nat

/-- Parameters of a floating format: exponent bits, mantissa bits, bias, and its kind: 0 with infinities, 1 E4M3, 2 finite
only (R91). -/
structure Fmt where
  eb : Nat
  mb : Nat
  bias : Nat
  kind : Nat
  deriving DecidableEq, Repr

/-- The floating format of a code (R22, R91). -/
def fmtOf (code : Nat) : Option Fmt :=
  match code with
  | 1 => some ⟨4, 3, 7, 1⟩
  | 2 => some ⟨5, 2, 15, 0⟩
  | 3 => some ⟨2, 1, 1, 2⟩
  | 4 => some ⟨8, 7, 127, 0⟩
  | 5 => some ⟨5, 10, 15, 0⟩
  | 6 => some ⟨8, 23, 127, 0⟩
  | 9 => some ⟨2, 3, 1, 2⟩
  | 10 => some ⟨3, 2, 3, 2⟩
  | _ => none
/-- Width in bits of an element of a format code (R5, R22, R93). -/
def fmtBits (code : Nat) : Nat :=
  match code with
  | 3 => 4 | 11 => 4 | 9 => 6 | 10 => 6 | 0 => 8 | 1 => 8 | 2 => 8 | 12 => 8 | 4 => 16 | 5 => 16 | 8 => 16 | _ => 32
/-- An integer format code (R93). -/
def isInt (code : Nat) : Bool := code = 0 ∨ code = 7 ∨ code = 8 ∨ code = 11

/-- Two's-complement value of the low w bits. -/
def toSigned (w x : Nat) : Int := if x % 2 ^ w < 2 ^ (w - 1) then (x % 2 ^ w : Nat) else (x % 2 ^ w : Nat) - (2 ^ w : Nat)
/-- The low w bits of an integer. -/
def ofSigned (w : Nat) (x : Int) : Nat := (x % (2 ^ w : Nat)).toNat

/-- The value of a floating encoding (R91). -/
def decodeF (f : Fmt) (x : Nat) : FVal :=
  let neg := fld x (f.eb + f.mb) 1 = 1
  let e := fld x f.mb f.eb
  let m := fld x 0 f.mb
  if f.kind = 0 ∧ e = 2 ^ f.eb - 1 then if m = 0 then .inf neg else .nan
  else if f.kind = 1 ∧ e = 15 ∧ m = 7 then .nan
  else if e = 0 then .fin neg m (1 - (f.bias : Int) - f.mb)
  else .fin neg (2 ^ f.mb + m) ((e : Int) - f.bias - f.mb)
/-- The value of an element of any format code (R91, R93). -/
def decodeElem (code x : Nat) : FVal :=
  match fmtOf code with
  | some f => decodeF f x
  | none => let v := toSigned (fmtBits code) x; .fin (decide (v < 0)) v.natAbs 0

/-- Canonical NaN (R92). -/
def nanOf (f : Fmt) : Nat :=
  if f.kind = 1 then 0x7F else (2 ^ f.eb - 1) * 2 ^ f.mb + 2 ^ (f.mb - 1)
/-- Infinity, largest finite and sign of a format. -/
def infOf (f : Fmt) (neg : Bool) : Nat := (if neg then 2 ^ (f.eb + f.mb) else 0) + (2 ^ f.eb - 1) * 2 ^ f.mb
def maxMag (f : Fmt) : Nat :=
  if f.kind = 0 then (2 ^ f.eb - 1) * 2 ^ f.mb - 1 else if f.kind = 1 then 0x7E else 2 ^ (f.eb + f.mb) - 1
def signBit (f : Fmt) (neg : Bool) : Nat := if neg then 2 ^ (f.eb + f.mb) else 0

/-- Whether a magnitude n with a remainder rounds up: twice the remainder against the unit (R96). -/
def roundUp (mode : Rnd) (neg odd : Bool) (rem unit : Nat) : Bool :=
  rem ≠ 0 && match mode with
  | 0 => decide (unit < 2 * rem) || (2 * rem = unit && odd)
  | 1 => false
  | 2 => !neg
  | _ => neg
/-- m·2^k rounded to an integer magnitude by a mode, and whether it was inexact. -/
def shiftRound (mode : Rnd) (neg : Bool) (m : Nat) (k : Int) : Nat × Bool :=
  if 0 ≤ k then (m * 2 ^ k.toNat, false)
  else
    let u := 2 ^ (-k).toNat
    let n := m / u
    (if roundUp mode neg (n % 2 = 1) (m % u) u then n + 1 else n, m % u ≠ 0)

/-- Overflow of a floating target (R97). -/
def overflowTo (f : Fmt) (mode : Rnd) (sat neg : Bool) : Nat :=
  let toInf := !sat && (mode = 0 ∨ (mode = 2 ∧ !neg) ∨ (mode = 3 ∧ neg))
  if f.kind = 2 ∨ !toInf then signBit f neg + maxMag f
  else if f.kind = 1 then nanOf f
  else infOf f neg

/-- A finite exact value rounded once to a format, with its flags (R96, R97). -/
def roundF (f : Fmt) (mode : Rnd) (sat neg : Bool) (m : Nat) (e : Int) : Nat × Nat :=
  if m = 0 then (signBit f neg, 0)
  else
    let top : Int := (m.log2 : Int) + e
    let mn : Int := 1 - (f.bias : Int)
    let ulp : Int := max top mn - f.mb
    let (n, inex) := shiftRound mode neg m (e - ulp)
    let (n, ulp) := if n = 2 ^ (f.mb + 1) then (2 ^ f.mb, ulp + 1) else (n, ulp)
    let mag : Int := if n < 2 ^ f.mb then (n : Int) else (ulp + f.mb + f.bias) * 2 ^ f.mb + ((n : Int) - 2 ^ f.mb)
    if (maxMag f : Int) < mag then (overflowTo f mode sat neg, 5)
    else (signBit f neg + mag.toNat, (if inex then 1 else 0) + (if inex ∧ top < mn then 2 else 0))

/-- A finite exact value rounded once to an integer of w bits (R96, R97). -/
def roundI (w : Nat) (mode : Rnd) (neg : Bool) (m : Nat) (e : Int) : Nat × Nat :=
  let (n, inex) := shiftRound mode neg m e
  let v : Int := if neg then -(n : Int) else n
  if v < -(2 ^ (w - 1) : Int) then (2 ^ (w - 1), 5)
  else if (2 ^ (w - 1) : Int) - 1 < v then (2 ^ (w - 1) - 1, 5)
  else (ofSigned w v, if inex then 1 else 0)

/-- Convert a value to a format code (R96, R97). -/
def convert (code : Nat) (mode : Rnd) (sat : Bool) (v : FVal) : Nat × Nat :=
  match fmtOf code, v with
  | some f, .fin neg m e => roundF f mode sat neg m e
  | some f, .nan => if f.kind = 2 then (0, 8) else (nanOf f, 0)
  | some f, .inf neg =>
    if f.kind = 0 then (if sat then signBit f neg + maxMag f else infOf f neg, 0)
    else if f.kind = 1 then (if sat then signBit f neg + maxMag f else nanOf f, 8)
    else (signBit f neg + maxMag f, 8)
  | none, .fin neg m e => roundI (fmtBits code) mode neg m e
  | none, .nan => (0, 8)
  | none, .inf neg => (if neg then 2 ^ (fmtBits code - 1) else 2 ^ (fmtBits code - 1) - 1, 8)

/-- A value times 2^k. -/
def FVal.scale (k : Int) : FVal → FVal
  | .fin n m e => .fin n m (e + k)
  | v => v
/-- An element under an E8M0 scale byte (R94). -/
def scaled (z : Nat) (v : FVal) : FVal := if z = 255 then .nan else v.scale ((z : Int) - 127)

/-- Sign-carrying integer mantissas at a common exponent. -/
def FVal.sInt : FVal → Int → Int
  | .fin n m e, k => (if n then -1 else 1) * (m * 2 ^ (e - k).toNat : Nat)
  | _, _ => 0
def FVal.neg : FVal → FVal
  | .fin n m e => .fin (!n) m e
  | .inf n => .inf (!n)
  | .nan => .nan
def FVal.isNan : FVal → Bool
  | .nan => true
  | _ => false
def FVal.isZero : FVal → Bool
  | .fin _ 0 _ => true
  | _ => false
def FVal.sign : FVal → Bool
  | .fin n _ _ => n
  | .inf n => n
  | .nan => false
/-- a + b exactly, with the invalid flag (R119). -/
def addV (a b : FVal) : FVal × Nat :=
  match a, b with
  | .nan, _ => (.nan, 0)
  | _, .nan => (.nan, 0)
  | .inf x, .inf y => if x = y then (.inf x, 0) else (.nan, 8)
  | .inf x, _ => (.inf x, 0)
  | _, .inf y => (.inf y, 0)
  | .fin n m e, .fin n' m' e' =>
    let k := min e e'
    let v := (FVal.fin n m e).sInt k + (FVal.fin n' m' e').sInt k
    if v = 0 then (.fin (if m = 0 ∧ m' = 0 then n && n' else false) 0 0, 0) else (.fin (decide (v < 0)) v.natAbs k, 0)
/-- a × b exactly, with the invalid flag (R119). -/
def mulV (a b : FVal) : FVal × Nat :=
  match a, b with
  | .nan, _ => (.nan, 0)
  | _, .nan => (.nan, 0)
  | .fin n m e, .fin n' m' e' => (.fin (n != n') (m * m') (e + e'), 0)
  | a, b => if a.isZero ∨ b.isZero then (.nan, 8) else (.inf (a.sign != b.sign), 0)
/-- a < b for values that are not NaN; -0 is below +0 when zeros are told apart (R119, R124). -/
def ltV (zeros : Bool) (a b : FVal) : Bool :=
  match a, b with
  | .nan, _ => false
  | _, .nan => false
  | .inf n, .inf n' => n && !n'
  | .inf n, _ => n
  | _, .inf n => !n
  | .fin n m e, .fin n' m' e' =>
    let k := min e e'
    let x := (FVal.fin n m e).sInt k
    let y := (FVal.fin n' m' e').sInt k
    decide (x < y) || (zeros && m = 0 && m' = 0 && n && !n')
def eqV (a b : FVal) : Bool := !a.isNan && !b.isNan && !ltV false a b && !ltV false b a

/-- Integer square root, bit by bit from bit n - 1 down. -/
def isqrtGo (x : Nat) : Nat → Nat → Nat
  | 0, r => r
  | n + 1, r => isqrtGo x n (if (r + 2 ^ n) * (r + 2 ^ n) ≤ x then r + 2 ^ n else r)
def isqrt (x : Nat) : Nat := isqrtGo x (x.log2 / 2 + 1) 0

/-- 1/a for a finite nonzero value: 128 quotient bits and a sticky bit (R119). -/
def rcpV (neg : Bool) (m : Nat) (e : Int) : FVal :=
  let k := m.log2 + 128
  let q := 2 ^ k / m
  .fin neg (2 * q + if q * m = 2 ^ k then 0 else 1) (-(k : Int) - 1 - e)
/-- 1/√a for a finite positive value (R119). -/
def rsqV (m : Nat) (e : Int) : FVal :=
  let odd := e % 2 ≠ 0
  let m := if odd then 2 * m else m
  let h : Int := (if odd then e - 1 else e) / 2
  let k := m.log2 + 80
  let r := isqrt (2 ^ (2 * k) / m)
  .fin false (2 * r + if r * r * m = 2 ^ (2 * k) then 0 else 1) (-(k : Int) - 1 - h)
/-- Working bits of 2^x and log2 x. -/
def expBits : Nat := 224
/-- The product of the roots 2^(2^-i) that a fraction of n bits names, highest bit first; root starts at 2. -/
def expGo (frac : Nat) : Nat → Nat → Nat → Nat
  | 0, _, acc => acc
  | n + 1, root, acc =>
    let root := isqrt (root * 2 ^ expBits)
    expGo frac n root (if fld frac n 1 = 1 then acc * root / 2 ^ expBits else acc)
/-- 2^a for a finite value: exact for an integer, else truncated with a sticky bit; 2^a is then irrational (R119). -/
def exp2V (neg : Bool) (m : Nat) (e : Int) : FVal :=
  if m ≠ 0 ∧ 16 ≤ (m.log2 : Int) + e then .fin false 1 (if neg then -65536 else 65536)
  else if 0 ≤ e then .fin false 1 ((if neg then -1 else 1) * (m * 2 ^ e.toNat : Nat))
  else
    let n := (-e).toNat
    let v : Int := (if neg then -1 else 1) * (m : Nat)
    let i := v / (2 ^ n : Nat)
    let frac := (v % (2 ^ n : Nat)).toNat
    if frac = 0 then .fin false 1 i
    else .fin false (2 * expGo frac n (2 ^ (expBits + 1)) (2 ^ expBits) + 1) (i - expBits - 1)
/-- Fraction bits of log2 of x in [1, 2), by squaring. -/
def logGo : Nat → Nat → Nat → Nat
  | 0, _, acc => acc
  | n + 1, x, acc =>
    let y := x * x / 2 ^ 400
    if 2 ^ 401 ≤ y then logGo n (y / 2) (2 * acc + 1) else logGo n y (2 * acc)
/-- log2 of a finite positive value: exact for a power of two, else truncated with a sticky bit (R119). -/
def log2V (m : Nat) (e : Int) : FVal :=
  let l := m.log2
  let i : Int := (l : Int) + e
  if m = 2 ^ l then .fin (decide (i < 0)) i.natAbs 0
  else
    let f := logGo 128 (m * 2 ^ 400 / 2 ^ l) 0
    let v : Int := 2 * (i * (2 ^ 128 : Nat) + f) + 1
    .fin (decide (v < 0)) v.natAbs (-129)

/-! ## Expansion and fold (R98, R99) -/

/-- An element of code 3, 9, 10 or 11 expanded to E4M3. -/
def expandE4M3 (code x : Nat) : Nat := (convert 1 0 true (decodeElem code x)).1
/-- An element folded with its scale byte, to E4M3 with flags: a NaN element or scale gives the canonical NaN (R99). -/
def foldE4M3 (code x z : Nat) : Nat × Nat :=
  match scaled z (decodeElem code x) with
  | .fin n m e => roundF ⟨4, 3, 7, 1⟩ 0 true n m e
  | _ => (0x7F, 0)

/-! ## The command sum and the accumulator (R100 to R104) -/

/-- Fraction bits of the adder and its width, by A's format (R101). -/
def adderF (a : Nat) : Nat := match a with | 1 => 14 | 2 => 14 | 3 => 13 | 4 => 22 | 5 => 30 | _ => 0
def adderN (a : Nat) : Nat := match a with | 4 => 32 | 5 => 40 | _ => 25

/-- The exponent of a finite nonzero element: of a subnormal, its format's smallest normal exponent (R100). -/
def termExp (f : Fmt) (x : Nat) : Int := (max 1 (fld x f.mb f.eb) : Nat) - (f.bias : Int)

/-- floor(v · 2^k) for an integer v: what floor_shift keeps (R7). -/
def floorShift (v : Int) (k : Int) : Int := if 0 ≤ k then v * (2 ^ k.toNat : Nat) else v / (2 ^ (-k).toNat : Nat)

/-- The result of one command at one position: special state, sum, adder exponent, invalid flag (R100, R101). terms holds
each product's value and exponent. -/
def commandSum (fbits : Nat) (terms : List (FVal × Int × Bool)) : Nat × Int × Int × Bool :=
  let nan := terms.any fun t => t.1.isNan
  let pinf := terms.any fun t => t.1 = .inf false
  let ninf := terms.any fun t => t.1 = .inf true
  let bad := terms.any (fun t => t.2.2) || (pinf && ninf)
  let spec := if nan ∨ (pinf ∧ ninf) then 1 else if pinf then 2 else if ninf then 3 else 0
  let fin := terms.filter fun t => match t.1 with | .fin _ m _ => m ≠ 0 | _ => false
  match (fin.map fun t => t.2.1).max? with
  | none => (spec, 0, 0, bad)
  | some emax =>
    let g := emax - fbits
    (spec, (fin.map fun t => match t.1 with
      | .fin n m e => floorShift (if n then -(m : Int) else m) (e - g)
      | _ => 0).sum, g, bad)

/-- The exponent of an accumulator element. -/
def AccElem.x (a : AccElem) : Int := a.exp.toInt
/-- The exact sum that the window adder forms, before it is renormalised, and its exponent (R102). -/
def windowSum (a : AccElem) (S g : Int) (n : Nat) : Int × Int :=
  let W := a.win.toInt
  if W = 0 then (S * (2 ^ (48 - n) : Nat), g + n - 48)
  else
    let xn := max (a.x + 47) (g + n - 1) - 47
    (floorShift W (a.x - xn) + floorShift S (g - xn), xn)
/-- Add a command's result into an element (R102); err is what the adder's Twilight band adds to the exact sum it is given (R105,
R106). -/
def accumulate (a : AccElem) (spec : Nat) (S g : Int) (n : Nat) (err : Int → Int) : AccElem :=
  let st := a.spec.toNat
  let st := if st = 1 ∨ spec = 1 ∨ (st = 2 ∧ spec = 3) ∨ (st = 3 ∧ spec = 2) then 1 else if spec ≠ 0 then spec else st
  let a := { a with spec := BitVec.ofNat 2 st }
  if st ≠ 0 ∨ S = 0 then a
  else
    let (V, xn) := windowSum a S g n
    let V := V + err V
    let (W, x) := if V < -(2 ^ 47) ∨ 2 ^ 47 ≤ V then (V / 2, xn + 1) else (V, xn)
    { spec := if 511 < x then (if W < 0 then 3 else 2) else a.spec, exp := BitVec.ofInt 10 x, win := BitVec.ofInt 48 W, bad := a.bad }
/-- Add an INT8 command's sum (R103). -/
def addInt (a : AccElem) (S : Int) : AccElem :=
  { a with win := BitVec.ofInt 48 (max (-(2 ^ 47)) (min (2 ^ 47 - 1) (a.win.toInt + S))) }

/-- Drain one element to an output format (R104). -/
def drainElem (a : AccElem) (ofmt : Nat) (mode : Rnd) (sat : Bool) : Nat × Nat :=
  match a.spec.toNat with
  | 1 => convert ofmt mode false .nan
  | 2 => convert ofmt mode false (.inf false)
  | 3 => convert ofmt mode false (.inf true)
  | _ =>
    let W := a.win.toInt
    if W = 0 then convert ofmt mode sat (.fin (decide (mode = 3) && !isInt ofmt) 0 0)
    else convert ofmt mode sat (.fin (decide (W < 0)) W.natAbs a.x)

/-- The histogram bin of a drained value (R110). -/
def binOf (v : FVal) : Nat :=
  match v with
  | .fin _ 0 _ => 0
  | .fin _ m e =>
    let t : Int := (m.log2 : Int) + e
    if t < -112 then 1 else if 112 ≤ t then 30 else 2 + ((t + 112) / 8).toNat
  | _ => 31

/-! ## Rows and elements (R5) -/

/-- Element j of width w of a row. -/
def elem (r : Row) (w j : Nat) : Nat := fld r.toNat (w * j) w
/-- A row from its elements of width w, first lowest. -/
def rowOf (w : Nat) : List Nat → Nat
  | [] => 0
  | x :: l => x % 2 ^ w + 2 ^ w * rowOf w l
end Sys2Proof.Machine
end

