-- ==== Sys2Proof/Machine/Operands.lean ====
section
/-! DEFINITION. Operand forms: the tb operand, mask registers, format entries, the fields of VCTL and VROW, and the shape
that every step of MX and VX has (R111, R113 to R116, R129, R131, R133). -/

namespace Sys2Proof.Machine

/-- A tb operand: a tile below 96, else scalar tb - 96 broadcast (R38, R115). -/
def isBcast (b : Nat) : Bool := decide (96 ≤ b)
/-- The tile a tb operand reads, if it is one; the scalar, if it is one. -/
def tbTiles (b : Nat) : List Nat := if isBcast b then [] else [b]
def tbScalars (b : Nat) : List Nat := if isBcast b then [b - 96] else []

/-- The n elements of width w of a row, first lowest. -/
def elems (w n : Nat) (r : Row) : List Nat := (List.range n).map (elem r w)
/-- The elements of a tb operand in a row: of the tile, or of the broadcast value (R115). -/
def tbElems (c : Core) (b row w n : Nat) (bv : DWord) : List Nat :=
  if isBcast b then List.replicate n (bv.toNat % 2 ^ w) else elems w n (c.row b row)

/-- The fields of VCTL (R114). -/
def vctlSfmt (v : DWord) : Nat := fld v.toNat 12 4
def vctlMxf (v : DWord) : Nat := fld v.toNat 8 4
def vctlPart (v : DWord) : Nat := fld v.toNat 5 3
def vctlEw (v : DWord) : Nat := fld v.toNat 3 2
def vctlFt (v : DWord) : Nat := fld v.toNat 1 2
def vctlScl (v : DWord) : Bool := v.getLsbD 0
/-- The element width that EW names. -/
def ewBits (v : DWord) : Nat := 8 * 2 ^ vctlEw v
/-- The format code of a floating type field: 0 FP32, 1 BF16, 2 FP16 (R114, R119). -/
def typeFmt (t : Nat) : Nat := if t = 0 then 6 else if t = 1 then 4 else 5

/-- A mask register's fields: rows, columns, depth (R133). -/
structure Mask where
  rowm : Nat
  colm : Nat
  depth : Nat
  ok : Bool
  deriving DecidableEq, Repr
/-- The mask of field m, and the scalar it reads (R133). -/
def maskOf (c : Core) (m largest : Nat) : Mask :=
  if m = 0 then ⟨0xFFFF, 0xFFFF, largest, true⟩
  else let v := (c.reg (56 + m)).val.toNat; ⟨fld v 0 16, fld v 16 16, fld v 32 10, decide (v / 2 ^ 42 = 0)⟩
def maskScalars (m : Nat) : List Nat := if m = 0 then [] else [56 + m]

/-- The number of the format entry that fsel names, or nothing where FMTL names no level (R131). -/
def formatEntry (r : Region) (c : Core) (v : Nat) (fsel : Nat) : Option Nat :=
  if fsel < 16 then some fsel
  else
    let l := fld (c.csr 0x011).toNat 0 3
    if 6 ≤ l then none else some ((fsel % 16 + lcOf r c v l) % 16)
/-- The fields of a format entry (R21). -/
def feA (e : Nat) : Nat := fld e 28 4
def feB (e : Nat) : Nat := fld e 24 4
def feO (e : Nat) : Nat := fld e 20 4
def feScale (e : Nat) : Nat := fld e 18 2
def feFid (e : Nat) : Nat := fld e 16 2
def feRnd (e : Nat) : Nat := fld e 14 2
def feSat (e : Nat) : Bool := fld e 13 1 = 1
def feBank (e : Nat) : Nat := fld e 11 2
def feHen (e : Nat) : Bool := fld e 10 1 = 1

/-- What a step of MX or VX reads, writes and takes (R111, R112, R129, R142). -/
structure EStep where
  /-- tiles it reads -/
  reads : List Nat := []
  /-- those of them whose sidecar it reads too (R94) -/
  sides : List Nat := []
  /-- scalars it reads -/
  scal : List Nat := []
  /-- tags of its other sources -/
  tags : List Tag := []
  /-- the tile it writes, and whether it reads that one too -/
  dst : Option Nat := none
  rdDst : Bool := false
  /-- the checks made at dequeue besides the tags -/
  legal : Bool := true
  /-- operands that are not pending; the object SCHED names otherwise -/
  ready : Bool := true
  obj : Nat := 0
  /-- a source other than its tiles and scalars carries an error -/
  bad : Bool := false
  occ : Nat := 16
  land : Nat := 0
  /-- offset of the last read of its source tiles -/
  readEnd : Nat := 15
  /-- offset at which the written tile is full -/
  fullAt : Nat := 0
  /-- what happens even where the result clock is absent -/
  always : List Act := []

/-- The tags of a step's sources as they stand (R111, R130). -/
def EStep.allTags (p : EStep) (c : Core) : List Tag :=
  p.reads.map c.ttag ++ (p.scal.map fun r => (c.reg r).tag) ++ p.tags ++
    (match p.dst with | some d => if p.rdDst then [c.ttag d] else [] | none => [])
/-- The first coupled tile whose bit does not let the step start (R116, R145); in a timed step SCHED names it (R309): the first of the
sources in the word's order, and td after them (the model's choice; assumptions 66). -/
def EStep.blockedBy (p : EStep) (c : Core) : Option Nat :=
  (p.reads.find? fun t => !c.tileOk t true).or
    (match p.dst with
     | some d => if c.tileOk d (p.rdDst || p.reads.contains d) then none else some d
     | none => none)
/-- The bits that a step changes (R116, R145): a tile it only reads and consumes goes empty at its last read; one it only
writes goes full. -/
def EStep.bits (p : EStep) (s : State) (consumer : Nat) : List Act :=
  let c := s.cc
  let reads := (p.reads.eraseDups.filter fun t => p.dst ≠ some t ∧ c.coupling t = consumer)
  (reads.map fun t => if p.readEnd = 0 then s.upd (.tileFull t false) else s.afterPhase p.readEnd 0 3 (.full s.cur t false)) ++
    (match p.dst with
     | some d => if c.coupling d = 0 || p.rdDst || p.reads.contains d then [] else [s.after p.fullAt 0 (.full s.cur d true)]
     | none => [])

/-- A word of an engine (R42, R111, R129): the control core places it; the engine checks it and does it at dequeue. A pending
operand is tested before the tags, and so also where the result clock is absent (R28 and R143 pull apart; assumptions 51); a
failing dequeue check of the tags raises CLOCK (R111; R173 counts it among the step tests; assumptions 51). With its clock absent
a step of MX keeps its completion cycle (R142, R143), and one of VX, which lands nothing, completes at its dequeue (R175). -/
def engineStep (s : State) (i : Instr) (p : EStep) (body : Tag → List Act) : Plan :=
  let c := s.cc
  match s.actor with
  | .control => s.place (if (encode i) / 2 ^ 27 % 16 = 12 then 0 else 1) i (p.allTags c)
  | .engine e =>
    s.unless p.ready 1 p.obj <|
    match c.common (p.allTags c) with
    | none => s.holdFirst (p.blockedBy c).isNone (s.trap CLOCK)
    | some tg =>
      let gone := !c.present tg
      s.holdFirst (gone || (p.blockedBy c).isNone) <|
      if !p.legal then s.trap ILLEGAL
      else if gone then .acts (p.always ++ [s.stepDone p.occ (if e = 0 then p.land else 0) 0])
      else match p.blockedBy c with
        | some t => s.sched 6 t
        | none =>
          if p.bad ∨ (p.reads.any c.rowsErr) ∨ (p.sides.any fun t => c.sideErr t ≠ 0) ∨ (p.scal.any fun r => (c.reg r).bad)
              ∨ (p.rdDst ∧ (p.dst.map c.rowsErr).getD false) then s.trap UECC
          else .acts (body tg ++ p.bits s (e + 1) ++ p.always ++ [s.stepDone p.occ p.land 0])

end Sys2Proof.Machine
end

