-- ==== Sys2Proof/Machine/Flags.lean ====
section
/-! DEFINITION. Flag computations beside those of the conversions: saturation, and results with their flags (R57, R96, R117,
R118, R126). FLAGS [3:0] are invalid, overflow, underflow, inexact. -/

namespace Sys2Proof.Machine

/-- A result and the flags it raises. -/
abbrev Flagged := Nat × Nat
/-- The flags of a list of results, ORed together. -/
def flagsOf (l : List Flagged) : Nat := l.foldl (fun a p => a ||| p.2) 0
/-- ORing flags into FLAGS; nothing where none is raised (R117). -/
def orFlags (f : Nat) : List CAct := if f % 16 = 0 then [] else [.orFlags f]
/-- A value saturated to w signed bits; overflow when it saturates (R118, R126). -/
def satS (w : Nat) (x : Int) : Flagged :=
  if x < -(2 ^ (w - 1)) then (2 ^ (w - 1), 4)
  else if 2 ^ (w - 1) - 1 < x then (2 ^ (w - 1) - 1, 4)
  else (ofSigned w x, 0)
/-- A sum saturated to w unsigned bits; overflow when it saturates (R118). -/
def satU (w : Nat) (x : Nat) : Flagged := if 2 ^ w ≤ x then (2 ^ w - 1, 4) else (x, 0)
/-- A floating result rounded once to a type by RNE, with the flags of its operation and its rounding (R119). -/
def rnd (code : Nat) (p : FVal × Nat) : Flagged := let r := convert code 0 false p.1; (r.1, r.2 ||| p.2)

end Sys2Proof.Machine
end

