-- ==== Sys2Proof/Machine/Memory.lean ====
section
/-! DEFINITION. Class 4: scalar loads and stores, atomics, fences and bounded waits (R146 to R165). -/

namespace Sys2Proof.Machine

/-! ## Wide cells (R158, R159) and 64-bit atomics (R157) -/

/-- The new value of a 64-bit atomic (R157). -/
def amo64 (sub : Nat) (m b cmp : DWord) : DWord :=
  match sub with
  | 0 => m + b
  | 1 => m &&& b
  | 2 => m ||| b
  | 3 => m ^^^ b
  | 4 => if m.slt b then m else b
  | 5 => if m.slt b then b else m
  | 6 => if m.ult b then m else b
  | 7 => if m.ult b then b else m
  | 8 => b
  | _ => if m = cmp then b else m

/-- A 16-byte cell as a number: its integer, flags and scale (R158). -/
def cellInt (c : Nat) : Int := toSigned 118 (fld c 0 118)
def cellPack (scale : Nat) (range lost : Bool) (i : Int) : Nat :=
  ofSigned 118 i + (if lost then 2 ^ 118 else 0) + (if range then 2 ^ 119 else 0) + scale % 256 * 2 ^ 120
/-- AFADD (R159). -/
def cellAdd (c : Nat) (x : Nat) : Nat :=
  let scale := fld c 120 8
  let range := fld c 119 1 = 1
  let lost := fld c 118 1 = 1
  match decodeElem 6 x with
  | .fin n m e =>
    let sh : Int := e - ((scale : Int) - 127)
    let v : Int := if n then -(m : Int) else m
    let t := floorShift v sh
    let lost := lost || (decide (sh < 0) && decide (v % (2 ^ (-sh).toNat : Nat) ≠ 0))
    if t < -(2 ^ 117) ∨ 2 ^ 117 - 1 < t then cellPack scale true lost (cellInt c)
    else cellPack scale range lost (cellInt c + t)
  | _ => cellPack scale true lost (cellInt c)
/-- ACELL (R159). -/
def cellNew (b : DWord) : Nat := cellPack (fld b.toNat 0 8) false false 0
/-- ACRD: the cell rounded to FP32, with flags (R159). -/
def cellRead (c : Nat) : Nat × Nat :=
  convert 6 0 false (.fin (decide (cellInt c < 0)) (cellInt c).natAbs ((fld c 120 8 : Nat) - 127))
/-- ACFLG: RANGE·2 + LOST, and the cell with both cleared when asked (R159). -/
def cellFlags (c : Nat) (b : DWord) : Nat × Nat :=
  (fld c 119 1 * 2 + fld c 118 1, if b.getLsbD 0 then cellPack (fld c 120 8) false false (cellInt c) else c)

/-- Size of an atomic's location (R156). -/
def amoSize (sub : Nat) : Nat := if sub < 10 then 8 else 16
/-- An atomic on its location: new contents, value returned, flags (R157, R159). -/
def amoApply (sub : Nat) (m : Nat) (b cmp : DWord) : Nat × DWord × Nat :=
  match sub with
  | 10 => (cellAdd m (fld b.toNat 0 32), 0, 0)
  | 11 => (cellNew b, 0, 0)
  | 12 => let r := cellRead m; (m, BitVec.ofNat 64 r.1, r.2)
  | 13 => let r := cellFlags m b; (r.2, BitVec.ofNat 64 r.1, 0)
  | n => ((amo64 n (BitVec.ofNat 64 m) b cmp).toNat, BitVec.ofNat 64 m, 0)

/-- The value of a load of size bytes (R148). -/
def loadValue (signed : Bool) (size m : Nat) : DWord := if signed then BitVec.ofInt 64 (toSigned (8 * size) m) else BitVec.ofNat 64 m

/-- What an access returns once all of its parts are served: its value, and whether a part carries an error. -/
def Untimed.value (u : Untimed) : Option (Nat × Bool) :=
  if u.parts.any fun p => p.got.isNone then none
  else some ((u.parts.map fun p => ((p.got.map Prod.fst).getD 0) * 256 ^ p.off).sum, u.parts.any fun p => ((p.got.map Prod.snd).getD false))
/-- An access on the contents of its location: new contents, the value returned, flags (R148, R157, R159). -/
def Untimed.outcome (u : Untimed) (m : Nat) : Nat × DWord × Nat :=
  if u.op = 0 then (m, loadValue u.signed u.size m, 0) else amoApply (u.op - 1) m u.b u.cmp
/-- An access whose parts have all been served holds its result; inj marks an injected error (R219, R321). -/
def Untimed.answered (u : Untimed) (inj : Bool) : Untimed :=
  match u.value with
  | some m => { u with served := some ((u.outcome m.1).2.1, m.2 || inj, (u.outcome m.1).2.2) }
  | none => u

/-! ## The shared issue sequence of class 4 (R147) -/

/-- Tags, then the timed-segment rule, then the absent clock, then erroneous sources; goes on with the result tag. That an
erroneous source raises UECC before the address is checked is the model's choice (R147 and R321 give no place; assumptions 52). -/
def memIssue (s : State) (srcs : List Nat) (barred : Bool) (k : Tag → Plan) : Plan :=
  let c := s.cc
  match c.common (srcs.map fun r => (c.reg r).tag) with
  | none => s.trap CLOCK
  | some tg =>
    if barred && s.inSeg then s.trap TIMING
    else if !c.present tg then .acts []
    else if srcs.any fun r => (c.reg r).bad then s.trap UECC
    else k tg

/-- The sources' clock is absent: the word has no effect but its issue check (R28). -/
def State.idles (s : State) (srcs : List Nat) : Bool :=
  match s.cc.common (srcs.map s.tag) with
  | some tg => !s.cc.present tg
  | none => false
/-- In elastic code a word whose clock is not absent is held, unchecked, while a condition of R47 stands; l is what the hold starts
(R33, R147, R152, R235). -/
def memHold (s : State) (srcs : List Nat) (h : Option (List Act)) (p : Plan) : Plan :=
  match h with
  | some l => if s.inSeg || s.idles srcs then p else .hold l
  | none => p
/-- What holds an elastic global access: a 17th untimed access, or a page that misses (R152, R235). -/
def globalHold (s : State) (ad : DWord) (n : Nat) (acc : Access) (untimed : Bool) : Option (List Act) :=
  if ad.toNat / 2 ^ 52 ≠ 0 then none
  else if untimed && decide (Config.untimedMax ≤ s.cc.untimed.length) then some []
  else match s.translate ad.toNat n acc with
    | .miss va => some (s.walkReq va)
    | _ => none

/-- The address s(a) plus a scaled offset (R146, R148). -/
def effAddr (s : State) (a : Nat) (off : Int) (size : Nat) : DWord := s.val a + BitVec.ofInt 64 (off * size)
/-- An address in the global window (R146). -/
def isGlobal (a : DWord) : Bool := a.toNat / 2 ^ 52 = 0

/-- Bytes a later load of the core is forwarded: for each of n bytes, the byte staged latest by a store or ACELL, matched by
virtual address, or by tier and physical address after FENCE.ALIAS, with the entry's error mark (R153, R221, R243). -/
def forwarded (c : Core) (va : Nat) (keys : List Nat) : List (Nat × Byte × Bool) :=
  let staged := ((c.staging.filter fun e => e.kind = .store ∨ e.kind = .acell).flatMap fun e => e.bytes.map fun b => (b, e.bad)).reverse
  (List.range keys.length).filterMap fun i =>
    (staged.find? fun b => if c.aliased then b.1.key = keys.getD i 0 else b.1.va = va + i).map fun b => (i, b.1.val, b.2)

/-- The parts of an access, one for each page it lies in, each of its page's kind (R154, R261). -/
def partsOf (va : Nat) (keys : List Nat) : List TlbEnt → List UPart
  | [e, e'] => let n := e'.base - va; [⟨0, keys.take n, pteOrd e.pte.toNat, none⟩, ⟨n, keys.drop n, pteOrd e'.pte.toNat, none⟩]
  | l => [⟨0, keys, pteOrd (((l.head?.map TlbEnt.pte).getD 0).toNat), none⟩]
/-- Issue an untimed load or atomic (R152): memory serves each part, then it lands, in issue order; the delays are free values. -/
def untimedIssue (s : State) (d : Nat) (tag : Tag) (size : Nat) (signed : Bool) (va : Nat) (keys : List Nat) (used : List TlbEnt)
    (fwd : List (Nat × Byte × Bool)) (op : Nat) (b cmp : DWord) : List Act :=
  let n := s.cc.serial
  let parts := partsOf va keys used
  [s.upd (.untimedPush ⟨n, d, tag, size, signed, va, parts, fwd, op, b, cmp, none, s.cyc, s.cc.fencedAt⟩), s.upd .bumpSerial] ++
    (List.range parts.length).map (fun i => .pkg (.later (s.now + 1 + s.free (2 * i) 0) (.serve s.cur n i))) ++
    [.pkg (.later (s.now + 2 + s.free 0 0 + s.free 1 0) (.result s.cur)), .pkg (.takeFree 4)]

/-- A scratchpad access that misses its natural alignment (R149). -/
def misaligned (off size : Nat) : Bool := off % size ≠ 0

/-- Loads (R148 to R150, R152). -/
def planLoad (s : State) (d a : Nat) (off : Int) (size : Nat) (signed : Bool) : Plan :=
  let ad := effAddr s a off size
  memHold s [a] (globalHold s ad size {} true) <|
  memIssue s [a] (isGlobal ad) fun tg =>
    match decodeAddr s.rr s.vidx ad with
    | .xlate => s.trapAt XLATE ad.toNat
    | .scope => s.trapAt SCOPE ad.toNat
    | .sp t o far =>
      if misaligned o size then s.trapAt ALIGN ad.toNat
      else .acts [s.afterPhase (if far then 7 else 2) 1 3
        (.sample s.cur t o ad.toNat size signed d tg 0 0 0 (s.cyc + (if far then 14 else 4) * s.mul) s.timed)]
    | .global va => s.withKeys va size {} fun keys used acts =>
        .acts (acts ++ untimedIssue s d tg size signed va keys used (forwarded s.cc va keys) 0 0 0)

/-- Room in the staging buffer (R153, R223); release marks take no entry. -/
def stageRoom (c : Core) : Bool := decide ((c.staging.filter fun e => e.kind ≠ .mark).length < Config.stagingEntries)
/-- Stage a write of the acting core at its present recovery level (R153). -/
def stage (s : State) (k : StKind) (bytes : List StByte) : Act := s.upd (.stagePush ⟨k, bytes, s.cc.levels.length, false⟩)
/-- The staged bytes of a value. -/
def stBytes (va : Nat) (keys : List Nat) (v : Nat) : List StByte :=
  (List.range keys.length).map fun i => ⟨va + i, keys.getD i 0, BitVec.ofNat 8 (v / 256 ^ i)⟩

/-- Stores (R148 to R151, R153). STAGEOVF comes after the address checks and ALIGN (R147 gives it no place; the model's choice;
assumptions 66). -/
def planStore (s : State) (d a : Nat) (off : Int) (size : Nat) : Plan :=
  let ad := effAddr s a off size
  memHold s [d, a] (globalHold s ad size { write := true } false) <|
  memIssue s [d, a] false fun _ =>
    match decodeAddr s.rr s.vidx ad with
    | .xlate => s.trapAt XLATE ad.toNat
    | .scope => s.trapAt SCOPE ad.toNat
    | .sp t o far =>
      if writeBarred (s.core t) s.cc.mode o size then s.trapAt SCOPE ad.toNat
      else if misaligned o size then s.trapAt ALIGN ad.toNat
      else .acts [s.after (if far then 10 else 2) 1 (.perform s.cur t o (bytesOf (s.val d).toNat size) false)]
    | .global va => s.withKeys va size { write := true, locked := s.inSeg } fun keys _ acts =>
        if !stageRoom s.cc then s.trap STAGEOVF
        else .acts (acts ++ [stage s .store (stBytes va keys (s.val d).toNat)])

/-- Atomics (R156 to R160, R237): on scratchpad timed; on a page untimed, but AFADD and ACELL staged. STAGEOVF
comes after the address checks and ALIGN, as for a store (the model's choice; assumptions 66). -/
def planAmo (s : State) (sub d a b : Nat) (srcs : List Nat) : Plan :=
  let ad := s.val a
  let size := amoSize sub
  let staged := sub = 10 ∨ sub = 11
  let acc : Access := { write := true, locked := staged && s.inSeg, cell := 10 ≤ sub, amo := some sub }
  memHold s srcs (globalHold s ad size acc (!staged)) <|
  memIssue s srcs (isGlobal ad && !staged) fun tg =>
    match decodeAddr s.rr s.vidx ad with
    | .xlate => s.trapAt XLATE ad.toNat
    | .scope => s.trapAt SCOPE ad.toNat
    | .sp t o far =>
      if writeBarred (s.core t) s.cc.mode o size then s.trapAt SCOPE ad.toNat
      else if misaligned o size then s.trapAt ALIGN ad.toNat
      else .acts [s.after (if far then 8 else 2) 1
        (.sample s.cur t o ad.toNat size false d tg (sub + 1) (s.val b) (s.val d) (s.cyc + (if far then 14 else 4) * s.mul) s.timed)]
    | .global va =>
      s.withKeys va size acc fun keys used acts =>
        if 1 < used.length then s.trapAt STRADDLE va
        else if va % (if size = 16 then 16 else 4) ≠ 0 then s.trapAt ALIGN va
        else if staged then
          if !stageRoom s.cc then s.trap STAGEOVF
          else .acts (acts ++ [if sub = 10 then stage s (.afadd (BitVec.ofNat 32 (s.val b).toNat)) (stBytes va keys 0)
                               else stage s .acell (stBytes va keys (cellNew (s.val b)))])
        else .acts (acts ++ untimedIssue s d tg size false va keys used [] (sub + 1) (s.val b) (s.val d))

/-- Hold the control stream (R155, R161): no wait at all when the condition already holds. -/
def startWait (s : State) (met : Bool) (k : WaitKind) (lim : Option Nat) (l : List Act) : Plan :=
  if met then .acts l
  else .acts (l ++ [s.upd (.wait ⟨k, s.cyc, lim.map fun n => s.cyc + 2 ^ n⟩)])

/-- FENCE (R162): acquire waits for the untimed accesses; release and full also mark the buffer; alias changes the match. -/
def planFence (s : State) (rel ali : Bool) : Plan :=
  s.notTimed (startWait s s.cc.untimed.isEmpty .fence none
    ((if rel then [stage s .mark []] else []) ++ if ali then [s.upd (.aliased true)] else []))

def planLdb (d a : BitVec 6) (o : BitVec 11) (s : State) : Plan := planLoad s d.toNat a.toNat o.toInt 1 true
def planLdbu (d a : BitVec 6) (o : BitVec 11) (s : State) : Plan := planLoad s d.toNat a.toNat o.toInt 1 false
def planLdh (d a : BitVec 6) (o : BitVec 11) (s : State) : Plan := planLoad s d.toNat a.toNat o.toInt 2 true
def planLdhu (d a : BitVec 6) (o : BitVec 11) (s : State) : Plan := planLoad s d.toNat a.toNat o.toInt 2 false
def planLdw (d a : BitVec 6) (o : BitVec 11) (s : State) : Plan := planLoad s d.toNat a.toNat o.toInt 4 true
def planLdwu (d a : BitVec 6) (o : BitVec 11) (s : State) : Plan := planLoad s d.toNat a.toNat o.toInt 4 false
def planLdd (d a : BitVec 6) (o : BitVec 11) (s : State) : Plan := planLoad s d.toNat a.toNat o.toInt 8 false
def planStb (d a : BitVec 6) (o : BitVec 11) (s : State) : Plan := planStore s d.toNat a.toNat o.toInt 1
def planSth (d a : BitVec 6) (o : BitVec 11) (s : State) : Plan := planStore s d.toNat a.toNat o.toInt 2
def planStw (d a : BitVec 6) (o : BitVec 11) (s : State) : Plan := planStore s d.toNat a.toNat o.toInt 4
def planStd (d a : BitVec 6) (o : BitVec 11) (s : State) : Plan := planStore s d.toNat a.toNat o.toInt 8
/-- LWAIT (R155). -/
def awaited (c : Core) (d : Nat) : List Untimed := c.untimed.filter fun u => d = 0 ∨ u.d = d
def planLwait (d : BitVec 6) (l : BitVec 5) (s : State) : Plan :=
  s.notTimed (startWait s (awaited s.cc d.toNat).isEmpty (.lwait d.toNat) (some l.toNat) [])
def planAadd (d a b : BitVec 6) (s : State) : Plan := planAmo s 0 d.toNat a.toNat b.toNat [a.toNat, b.toNat]
def planAand (d a b : BitVec 6) (s : State) : Plan := planAmo s 1 d.toNat a.toNat b.toNat [a.toNat, b.toNat]
def planAor (d a b : BitVec 6) (s : State) : Plan := planAmo s 2 d.toNat a.toNat b.toNat [a.toNat, b.toNat]
def planAxor (d a b : BitVec 6) (s : State) : Plan := planAmo s 3 d.toNat a.toNat b.toNat [a.toNat, b.toNat]
def planAmin (d a b : BitVec 6) (s : State) : Plan := planAmo s 4 d.toNat a.toNat b.toNat [a.toNat, b.toNat]
def planAmax (d a b : BitVec 6) (s : State) : Plan := planAmo s 5 d.toNat a.toNat b.toNat [a.toNat, b.toNat]
def planAminu (d a b : BitVec 6) (s : State) : Plan := planAmo s 6 d.toNat a.toNat b.toNat [a.toNat, b.toNat]
def planAmaxu (d a b : BitVec 6) (s : State) : Plan := planAmo s 7 d.toNat a.toNat b.toNat [a.toNat, b.toNat]
def planAswap (d a b : BitVec 6) (s : State) : Plan := planAmo s 8 d.toNat a.toNat b.toNat [a.toNat, b.toNat]
/-- ACAS reads d as the compare value (R157). -/
def planAcas (d a b : BitVec 6) (s : State) : Plan := planAmo s 9 d.toNat a.toNat b.toNat [d.toNat, a.toNat, b.toNat]
def planAfadd (a b : BitVec 6) (s : State) : Plan := planAmo s 10 0 a.toNat b.toNat [a.toNat, b.toNat]
def planAcell (a b : BitVec 6) (s : State) : Plan := planAmo s 11 0 a.toNat b.toNat [a.toNat, b.toNat]
def planAcrd (d a : BitVec 6) (s : State) : Plan := planAmo s 12 d.toNat a.toNat 0 [a.toNat]
def planAcflg (d a b : BitVec 6) (s : State) : Plan := planAmo s 13 d.toNat a.toNat b.toNat [a.toNat, b.toNat]
def planFenceAcq (s : State) : Plan := planFence s false false
def planFenceRel (s : State) : Plan := planFence s true false
def planFenceFull (s : State) : Plan := planFence s true false
def planFenceAlias (s : State) : Plan := planFence s true true
/-- MWAIT (R163): sampling starts 2 (local) or 7 (cluster) after issue, or at the next cycle on a page. -/
def planMwait (d a b : BitVec 6) (l : BitVec 5) (s : State) : Plan :=
  let ad := s.val a.toNat
  memHold s [a.toNat, b.toNat] (globalHold s ad 8 {} false) <|
  memIssue s [a.toNat, b.toNat] true fun tg =>
    let w := fun (keys : List Nat) (ord : Nat) (acts : List Act) =>
      startWait s false (.mwait d.toNat ad.toNat (s.val b.toNat) tg keys ord) (some l.toNat) acts
    match decodeAddr s.rr s.vidx ad with
    | .xlate => s.trapAt XLATE ad.toNat
    | .scope => s.trapAt SCOPE ad.toNat
    | .sp _ o _ => if misaligned o 8 then s.trapAt ALIGN ad.toNat else w [] 0 []
    | .global va => s.withKeys va 8 {} fun keys used acts =>
        if va % 8 ≠ 0 then s.trapAt ALIGN va else w keys (pteOrd (((used.head?.map TlbEnt.pte).getD 0).toNat)) acts

-- The meanings: one for each instruction of this file.
/-- LDB (R148). -/
def execLdb (d : BitVec 6) (a : BitVec 6) (o : BitVec 11) (s : State) : Host.Outcome State Fault Refusal := resolve s (planLdb d a o s)
/-- LDBU (R148). -/
def execLdbu (d : BitVec 6) (a : BitVec 6) (o : BitVec 11) (s : State) : Host.Outcome State Fault Refusal := resolve s (planLdbu d a o s)
/-- LDH (R148). -/
def execLdh (d : BitVec 6) (a : BitVec 6) (o : BitVec 11) (s : State) : Host.Outcome State Fault Refusal := resolve s (planLdh d a o s)
/-- LDHU (R148). -/
def execLdhu (d : BitVec 6) (a : BitVec 6) (o : BitVec 11) (s : State) : Host.Outcome State Fault Refusal := resolve s (planLdhu d a o s)
/-- LDW (R148). -/
def execLdw (d : BitVec 6) (a : BitVec 6) (o : BitVec 11) (s : State) : Host.Outcome State Fault Refusal := resolve s (planLdw d a o s)
/-- LDWU (R148). -/
def execLdwu (d : BitVec 6) (a : BitVec 6) (o : BitVec 11) (s : State) : Host.Outcome State Fault Refusal := resolve s (planLdwu d a o s)
/-- LDD (R148). -/
def execLdd (d : BitVec 6) (a : BitVec 6) (o : BitVec 11) (s : State) : Host.Outcome State Fault Refusal := resolve s (planLdd d a o s)
/-- STB (R148). -/
def execStb (d : BitVec 6) (a : BitVec 6) (o : BitVec 11) (s : State) : Host.Outcome State Fault Refusal := resolve s (planStb d a o s)
/-- STH (R148). -/
def execSth (d : BitVec 6) (a : BitVec 6) (o : BitVec 11) (s : State) : Host.Outcome State Fault Refusal := resolve s (planSth d a o s)
/-- STW (R148). -/
def execStw (d : BitVec 6) (a : BitVec 6) (o : BitVec 11) (s : State) : Host.Outcome State Fault Refusal := resolve s (planStw d a o s)
/-- STD (R148). -/
def execStd (d : BitVec 6) (a : BitVec 6) (o : BitVec 11) (s : State) : Host.Outcome State Fault Refusal := resolve s (planStd d a o s)
/-- LWAIT (R155). -/
def execLwait (d : BitVec 6) (l : BitVec 5) (s : State) : Host.Outcome State Fault Refusal := resolve s (planLwait d l s)
/-- AADD (R157). -/
def execAadd (d : BitVec 6) (a : BitVec 6) (b : BitVec 6) (s : State) : Host.Outcome State Fault Refusal := resolve s (planAadd d a b s)
/-- AAND (R157). -/
def execAand (d : BitVec 6) (a : BitVec 6) (b : BitVec 6) (s : State) : Host.Outcome State Fault Refusal := resolve s (planAand d a b s)
/-- AOR (R157). -/
def execAor (d : BitVec 6) (a : BitVec 6) (b : BitVec 6) (s : State) : Host.Outcome State Fault Refusal := resolve s (planAor d a b s)
/-- AXOR (R157). -/
def execAxor (d : BitVec 6) (a : BitVec 6) (b : BitVec 6) (s : State) : Host.Outcome State Fault Refusal := resolve s (planAxor d a b s)
/-- AMIN (R157). -/
def execAmin (d : BitVec 6) (a : BitVec 6) (b : BitVec 6) (s : State) : Host.Outcome State Fault Refusal := resolve s (planAmin d a b s)
/-- AMAX (R157). -/
def execAmax (d : BitVec 6) (a : BitVec 6) (b : BitVec 6) (s : State) : Host.Outcome State Fault Refusal := resolve s (planAmax d a b s)
/-- AMINU (R157). -/
def execAminu (d : BitVec 6) (a : BitVec 6) (b : BitVec 6) (s : State) : Host.Outcome State Fault Refusal := resolve s (planAminu d a b s)
/-- AMAXU (R157). -/
def execAmaxu (d : BitVec 6) (a : BitVec 6) (b : BitVec 6) (s : State) : Host.Outcome State Fault Refusal := resolve s (planAmaxu d a b s)
/-- ASWAP (R157). -/
def execAswap (d : BitVec 6) (a : BitVec 6) (b : BitVec 6) (s : State) : Host.Outcome State Fault Refusal := resolve s (planAswap d a b s)
/-- ACAS (R157). -/
def execAcas (d : BitVec 6) (a : BitVec 6) (b : BitVec 6) (s : State) : Host.Outcome State Fault Refusal := resolve s (planAcas d a b s)
/-- AFADD (R159). -/
def execAfadd (a : BitVec 6) (b : BitVec 6) (s : State) : Host.Outcome State Fault Refusal := resolve s (planAfadd a b s)
/-- ACELL (R159). -/
def execAcell (a : BitVec 6) (b : BitVec 6) (s : State) : Host.Outcome State Fault Refusal := resolve s (planAcell a b s)
/-- ACRD (R159). -/
def execAcrd (d : BitVec 6) (a : BitVec 6) (s : State) : Host.Outcome State Fault Refusal := resolve s (planAcrd d a s)
/-- ACFLG (R159). -/
def execAcflg (d : BitVec 6) (a : BitVec 6) (b : BitVec 6) (s : State) : Host.Outcome State Fault Refusal := resolve s (planAcflg d a b s)
/-- FENCE_ACQ (R162). -/
def execFenceAcq (s : State) : Host.Outcome State Fault Refusal := resolve s (planFenceAcq s)
/-- FENCE_REL (R162). -/
def execFenceRel (s : State) : Host.Outcome State Fault Refusal := resolve s (planFenceRel s)
/-- FENCE_FULL (R162). -/
def execFenceFull (s : State) : Host.Outcome State Fault Refusal := resolve s (planFenceFull s)
/-- FENCE_ALIAS (R162). -/
def execFenceAlias (s : State) : Host.Outcome State Fault Refusal := resolve s (planFenceAlias s)
/-- MWAIT (R163). -/
def execMwait (d : BitVec 6) (a : BitVec 6) (b : BitVec 6) (l : BitVec 5) (s : State) : Host.Outcome State Fault Refusal := resolve s (planMwait d a b l s)

end Sys2Proof.Machine
end

