-- ==== Sys2Proof/Machine/Queue.lean ====
section
/-! DEFINITION. Class 14, and the stage-barrier words of class 13: engine queues, tokens, predicates, stage barriers
(R172 to R185, R196, R197). -/

namespace Sys2Proof.Machine

/-- The engines a field names: 3 is all three (R177). -/
def engines (g : Nat) : List Nat := if g = 3 then [0, 1, 2] else [g]
/-- Place an entry with the pending attributes of its queue, which it clears (R180). -/
def placeEntry (s : State) (e stamp base count reps : Nat) : List Act :=
  let g := s.cc.eng e
  [s.upd (.engPush e { stamp := stamp, base := base, count := count, reps := reps, guard := g.aGuard, wtok := g.aWait
                       stok := g.aSig, timed := s.inSeg, instant := s.rr.instant, word := none }),
   s.upd (.engAttr e none none none)]
/-- The stamp of the bundle that issues (R29, R172). -/
def State.stamp (s : State) : Nat := s.cyc - s.rr.ibase

/-- A word that reads s(a) and acts on untagged state: k0 or k1 only, and no error (R179, R185, R199, R213). -/
def untagged (s : State) (srcs : List Nat) (p : Plan) : Plan :=
  if srcs.any fun r => !steer (s.tag r) then s.trap CLOCK
  else if srcs.any fun r => s.bad r then s.trap UECC
  else p

/-- RUN (R178). -/
def planRun (g : BitVec 2) (b : BitVec 10) (c : BitVec 8) (s : State) : Plan :=
  s.holdFirst (queueFree s.cc g.toNat) <|
  if Config.tableWords g.toNat < b.toNat + c.toNat + 1 then s.trap ILLEGAL
  else s.unless (queueFree s.cc g.toNat) 2 g.toNat <| .acts (placeEntry s g.toNat s.stamp b.toNat (c.toNat + 1) 0)
/-- RUNS (R178). -/
def planRuns (g : BitVec 2) (b : BitVec 10) (c : BitVec 8) (lit : Word) (s : State) : Plan :=
  s.holdFirst (queueFree s.cc g.toNat) <|
  if Config.tableWords g.toNat < b.toNat + c.toNat + 1 then s.trap ILLEGAL
  else if lit.toNat < s.stamp then .trap { s.fault SCHED with wobj := 11, wval1 := s.rr.ibase + lit.toNat, wval2 := g.toNat }
  else s.unless (queueFree s.cc g.toNat) 2 g.toNat <| .acts (placeEntry s g.toNat lit.toNat b.toNat (c.toNat + 1) 0)
/-- LOOPB (R179). -/
def planLoopb (g : BitVec 2) (a : BitVec 6) (n : BitVec 15) (lit : Word) (s : State) : Plan :=
  let es := engines g.toNat
  let v := (s.val a.toNat).toNat
  let full := es.find? fun e => !queueFree s.cc e
  s.holdFirst full.isNone <|
  untagged s [a.toNat] <|
  if es.any fun e => Config.tableWords e < fld v (18 * e) 10 + fld v (18 * e + 10) 8 + 1 then s.trap ILLEGAL
  else s.unless full.isNone 2 (full.getD 0) <| .acts
    (es.map fun e => placeEntry s e (s.stamp + fld lit.toNat (10 * e) 10) (fld v (18 * e) 10) (fld v (18 * e + 10) 8 + 1) n.toNat).flatten
/-- A power reaction of the acting core that lands at +1 (R335). -/
def State.reacts (s : State) : Act := s.after 1 0 (.csrWrite s.cur 0x035 0 0)
/-- PACE (R181). -/
def planPace (g : BitVec 2) (p : BitVec 8) (s : State) : Plan :=
  .acts [s.lands 1 0 ((engines g.toNat).map fun e => .engPace e p.toNat), s.reacts]
/-- SIGT (R182). -/
def planSigt (t : BitVec 5) (s : State) : Plan := .acts [s.after 1 0 (.tokenAdd s.cur t.toNat 3 0 s.timed)]
/-- WAITT (R182): the token is consumed when its count is met. -/
def planWaitt (l t : BitVec 5) (s : State) : Plan :=
  s.notTimed <|
  if SMap.get 0 s.cc.tokens t.toNat ≠ 0 then .acts [s.upd (.tokenSub t.toNat)]
  else startWait s false (.waitt t.toNat) (some l.toNat) []
/-- GUARD (R180). -/
def planGuard (g : BitVec 2) (p : BitVec 4) (h : BitVec 1) (w : BitVec 5) (v : BitVec 1) (s : BitVec 5) (u : BitVec 1)
    (σ : State) : Plan :=
  .acts ((engines g.toNat).map fun e => σ.upd (.engAttr e (if h = 1 then some p.toNat else none)
    (if v = 1 then some w.toNat else none) (if u = 1 then some s.toNat else none)))
/-- PSET (R183). -/
def planPset (p : BitVec 4) (a : BitVec 6) (s : State) : Plan :=
  memIssue s [a.toNat] false fun _ => .acts [s.lands 1 0 [.pred p.toNat ⟨(s.val a.toNat).getLsbD 0, true⟩]]
/-- PINV (R183). -/
def planPinv (p : BitVec 4) (s : State) : Plan := .acts [s.lands 1 0 [.predUnwrite p.toNat]]
/-- The engine has no entry waiting, running or finishing (R184). -/
def engIdle (c : Core) (e : Nat) : Bool := (c.eng e).queue.isEmpty && (c.eng e).finishing.isEmpty
/-- QDRN (R184). -/
def planQdrn (g : BitVec 2) (l : BitVec 5) (s : State) : Plan :=
  s.notTimed (startWait s ((engines g.toNat).all (engIdle s.cc)) (.qdrn g.toNat) (some l.toNat) [])
/-- QSEQ (R184). -/
def planQseq (g : BitVec 2) (d : BitVec 6) (s : BitVec 1) (σ : State) : Plan :=
  .acts [σ.lands 1 0 [.reg d.toNat (if s = 1 then σ.cc.copyCount else (σ.cc.eng g.toNat).seq.setWidth 64) 1 false]]
/-- TBLW (R185). -/
def planTblw (g : BitVec 2) (a b : BitVec 6) (s : State) : Plan :=
  untagged s [a.toNat, b.toNat] <|
  let i := fld (s.val a.toNat).toNat 0 10
  if Config.tableWords g.toNat ≤ i then s.trap ILLEGAL
  else .acts [s.lands 1 0 [.table g.toNat i (BitVec.ofNat 32 (s.val b.toNat).toNat)]]

/-- SBINI (R196). -/
def planSbini (a : BitVec 6) (s : BitVec 4) (σ : State) : Plan :=
  memIssue σ [a.toNat] false fun _ => .acts [σ.after 1 0 (.sbInit σ.cur s.toNat (fld (σ.val a.toNat).toNat 0 32))]
/-- SBARR (R196): the credit applies after any SBINI of its cycle. -/
def planSbarr (a : BitVec 6) (s : BitVec 4) (σ : State) : Plan :=
  memIssue σ [a.toNat] false fun _ =>
    .acts [σ.afterPhase 1 0 2 (.credit σ.cur s.toNat (fld (σ.val a.toNat).toNat 0 32) σ.cur 3 0 σ.timed)]
/-- SBWT (R197): a check in a timed segment, a wait in elastic code. -/
def planSbwt (s : BitVec 4) (l : BitVec 5) (p : BitVec 1) (σ : State) : Plan :=
  let met := (SMap.get {} σ.cc.bars s.toNat).phase == decide (p = 1)
  if σ.inSeg then (if met then .acts [] else σ.sched 9 s.toNat)
  else startWait σ met (.sbwt s.toNat (p = 1)) (some l.toNat) []

/-- The credits of one cycle on one barrier, in their order, applied together (R196): the new barrier, or the first credit
that passes what is expected. A credit of 0 bytes is none. -/
def creditAll (b : StageBar) (l : List Nat) : StageBar ⊕ Nat :=
  let total := l.sum
  if total = 0 then .inl b
  else if b.expected.toNat < b.delivered.toNat + total then
    .inr ((List.range l.length).find? (fun i => decide (b.expected.toNat < b.delivered.toNat + (l.take (i + 1)).sum)) |>.getD 0)
  else if b.delivered.toNat + total = b.expected.toNat then .inl { b with phase := !b.phase, delivered := 0 }
  else .inl { b with delivered := b.delivered + BitVec.ofNat 32 total }

-- The meanings: one for each instruction of this file.
/-- SBINI (R196). -/
def execSbini (a : BitVec 6) (s : BitVec 4) (σ : State) : Host.Outcome State Fault Refusal := resolve σ (planSbini a s σ)
/-- SBARR (R196). -/
def execSbarr (a : BitVec 6) (s : BitVec 4) (σ : State) : Host.Outcome State Fault Refusal := resolve σ (planSbarr a s σ)
/-- SBWT (R197). -/
def execSbwt (s : BitVec 4) (l : BitVec 5) (p : BitVec 1) (σ : State) : Host.Outcome State Fault Refusal := resolve σ (planSbwt s l p σ)
/-- RUN (R178). -/
def execRun (g : BitVec 2) (b : BitVec 10) (c : BitVec 8) (s : State) : Host.Outcome State Fault Refusal := resolve s (planRun g b c s)
/-- RUNS (R178). -/
def execRuns (g : BitVec 2) (b : BitVec 10) (c : BitVec 8) (lit : Word) (s : State) : Host.Outcome State Fault Refusal := resolve s (planRuns g b c lit s)
/-- LOOPB (R179). -/
def execLoopb (g : BitVec 2) (a : BitVec 6) (n : BitVec 15) (lit : Word) (s : State) : Host.Outcome State Fault Refusal := resolve s (planLoopb g a n lit s)
/-- PACE (R181). -/
def execPace (g : BitVec 2) (p : BitVec 8) (s : State) : Host.Outcome State Fault Refusal := resolve s (planPace g p s)
/-- SIGT (R182). -/
def execSigt (t : BitVec 5) (s : State) : Host.Outcome State Fault Refusal := resolve s (planSigt t s)
/-- WAITT (R182). -/
def execWaitt (l : BitVec 5) (t : BitVec 5) (s : State) : Host.Outcome State Fault Refusal := resolve s (planWaitt l t s)
/-- GUARD (R180). -/
def execGuard (g : BitVec 2) (p : BitVec 4) (h : BitVec 1) (w : BitVec 5) (v : BitVec 1) (s : BitVec 5) (u : BitVec 1) (σ : State) : Host.Outcome State Fault Refusal := resolve σ (planGuard g p h w v s u σ)
/-- PSET (R183). -/
def execPset (p : BitVec 4) (a : BitVec 6) (s : State) : Host.Outcome State Fault Refusal := resolve s (planPset p a s)
/-- PINV (R183). -/
def execPinv (p : BitVec 4) (s : State) : Host.Outcome State Fault Refusal := resolve s (planPinv p s)
/-- QDRN (R184). -/
def execQdrn (g : BitVec 2) (l : BitVec 5) (s : State) : Host.Outcome State Fault Refusal := resolve s (planQdrn g l s)
/-- QSEQ (R184). -/
def execQseq (g : BitVec 2) (d : BitVec 6) (s : BitVec 1) (σ : State) : Host.Outcome State Fault Refusal := resolve σ (planQseq g d s σ)
/-- TBLW (R185). -/
def execTblw (g : BitVec 2) (a : BitVec 6) (b : BitVec 6) (s : State) : Host.Outcome State Fault Refusal := resolve s (planTblw g a b s)

end Sys2Proof.Machine
end

