-- ==== Sys2Proof/Machine/Copy.lean ====
section
/-! DEFINITION. The copies of class 13: tensor maps, window points, landings, timed and untimed performs (R186 to R195, R291,
R292, R297, R298). -/

namespace Sys2Proof.Machine

/-! ## The tensor map (R187, R188) -/

/-- A dimension record. -/
structure Dim where
  ext : Nat
  stride : Int
  win : Nat
  dil : Nat
  padb : Nat
  pada : Nat
  res : Nat
  deriving DecidableEq, Repr
/-- A tensor map as a copy reads it. -/
structure TMap where
  gbase : Nat
  fmt : Nat
  conv : Nat
  ndim : Nat
  flags : Nat
  target : Nat
  tgx : Nat
  tgy : Nat
  loff : Nat
  lpitch : Nat
  stampa : Nat
  sbase : Nat
  dims : List Dim
  res : Nat
  deriving DecidableEq, Repr
def dimOf (v d : Nat) : Dim :=
  let w := fld v (320 + 160 * d) 160
  ⟨fld w 0 32, toSigned 64 (fld w 32 64), fld w 96 16, fld w 112 8, fld w 128 16, fld w 144 16, fld w 120 8⟩
/-- The map in a 256-byte number. -/
def tmapOf (v : Nat) : TMap :=
  { gbase := fld v 0 64, fmt := fld v 64 4, conv := fld v 68 4, ndim := fld v 72 8, flags := fld v 80 8, target := fld v 88 8
    tgx := fld v 96 16, tgy := fld v 112 16, loff := fld v 128 32, lpitch := fld v 160 32, stampa := fld v 192 64
    sbase := fld v 256 64, dims := (List.range 10).map (dimOf v), res := fld v 1920 128 }
def TMap.zfill (m : TMap) : Bool := fld m.flags 0 1 = 1
def TMap.intlv (m : TMap) : Bool := fld m.flags 1 1 = 1
def TMap.scl (m : TMap) : Bool := fld m.flags 2 1 = 1
/-- The dimensions in use. -/
def TMap.used (m : TMap) : List Dim := m.dims.take m.ndim
def TMap.dim (m : TMap) (d : Nat) : Dim := m.dims.getD d ⟨0, 0, 0, 0, 0, 0, 0⟩
/-- Bits of a source element, and of a landing element. -/
def TMap.bits (m : TMap) : Nat := fmtBits m.fmt
def TMap.lbits (m : TMap) : Nat := if m.conv = 0 then m.bits else 8
/-- The map keeps R187, R188 and R190; a breach raises ILLEGAL (R22, R188). -/
def TMap.legal (m : TMap) (store : Bool) : Bool :=
  let d0 := m.dim 0
  let small := m.bits = 4 ∨ m.bits = 6
  m.res = 0 && m.flags < 8 && decide (m.target ≤ 1) && decide (1 ≤ m.ndim ∧ m.ndim ≤ 10) && decide (m.conv ≤ 2)
    && decide (m.fmt ≤ 12)
    && m.used.all (fun d => decide (1 ≤ d.ext ∧ 1 ≤ d.win ∧ 1 ≤ d.dil) && d.res = 0) && d0.stride = 0
    && (m.dims.drop m.ndim).all (fun d => d = ⟨0, 0, 0, 0, 0, 0, 0⟩)
    && (!small || (d0.padb = 0 && d0.pada = 0 && d0.dil = 1 && d0.win % (if m.bits = 4 then 2 else 4) = 0))
    && decide (m.loff < Config.spadBytes) && (m.conv ≠ 1 || m.fmt = 9 || m.fmt = 10 || m.fmt = 11)
    && (m.conv ≠ 2 || ((m.fmt = 1 || m.fmt = 9 || m.fmt = 10) && m.scl)) && !(m.conv ≠ 0 && store)
    && (!(m.intlv || m.scl) || m.lpitch = 256)
    && (!(m.scl && !m.intlv) || (d0.win % 32 = 0 && m.used.all (fun d => d.stride * 8 % (32 * m.bits : Nat) = 0)))
    && (!(m.scl && m.intlv) || decide (m.ndim ≤ 2))

/-! ## Window points (R189, R190) -/

/-- A window point: w of each dimension, ρ of its landing row, x of each dimension, where it lies. -/
structure Pt where
  w0 : Nat
  row : Nat
  xs : List Int
  inside : Bool
  pad : Bool
  deriving DecidableEq, Repr
/-- Every list of window positions, the first dimension fastest. -/
def windows : List Nat → List (List Nat)
  | [] => [[]]
  | n :: ns => (windows ns).flatMap fun t => (List.range n).map fun w => w :: t
/-- ρ of R190 from positions and window sizes of dimensions 1 on. -/
def rowIndex : List Nat → List Nat → Nat
  | w :: ws, n :: ns => w + n * rowIndex ws ns
  | _, _ => 0
/-- The origins s(b) gives: dimensions 1 to 4 (R189). -/
def originOf (b d : Nat) : Nat := if 1 ≤ d ∧ d ≤ 4 then fld b (16 * (d - 1)) 16 else 0
def TMap.points (m : TMap) (b : Nat) : List Pt :=
  let ds := m.used
  (windows (ds.map Dim.win)).map fun ws =>
    let xs := (List.range m.ndim).map fun d => ((originOf b d + ws.getD d 0 * (m.dim d).dil : Nat) : Int) - (m.dim d).padb
    { w0 := ws.getD 0 0, row := rowIndex (ws.drop 1) ((ds.map Dim.win).drop 1), xs := xs
      inside := (List.range m.ndim).all fun d => decide (0 ≤ xs.getD d 0 ∧ xs.getD d 0 < (m.dim d).ext)
      pad := (List.range m.ndim).all fun d => decide (-((m.dim d).padb : Int) ≤ xs.getD d 0 ∧ xs.getD d 0 < (m.dim d).ext + (m.dim d).pada) }
/-- Source address and bit of a point's element (R189). -/
def TMap.src (m : TMap) (p : Pt) : Int × Nat :=
  let x0 := p.xs.getD 0 0
  (m.gbase + x0 * m.bits / 8 + ((List.range m.ndim).map fun d => if d = 0 then 0 else p.xs.getD d 0 * (m.dim d).stride).sum,
   (x0 * m.bits % 8).toNat)
/-- Landing bit position of a point, from the landing base (R190). With INTLV and SCL both 1 the two rows of R190's table name different
images: the model lands in image ⌊w_0/16⌋, 4,352 bytes apart (the model's choice; assumptions 67). -/
def TMap.land (m : TMap) (p : Pt) : Nat :=
  let r := p.row % 16
  let col := 16 * (p.row / 16) + p.w0 % 16
  if m.intlv ∧ m.scl then 8 * (4352 * (p.w0 / 16) + 256 * r) + m.lbits * col
  else if m.intlv then 8 * (256 * (r + 16 * (p.w0 / 16))) + m.lbits * col
  else if m.scl then 8 * (4352 * (p.row / 16) + 256 * r) + m.lbits * p.w0
  else 8 * (p.row * m.lpitch) + m.lbits * p.w0
/-- Landing byte of the scale that covers a point, from the landing base, and where a load takes it from (R190). -/
def TMap.scaleAt (m : TMap) (p : Pt) : Nat × Int :=
  let x0 := p.xs.getD 0 0
  if m.intlv then
    (4352 * (p.w0 / 16) + 4096 + 16 * (p.w0 % 16) + p.row / 32,
     m.sbase + (m.dim 0).ext * (p.xs.getD 1 0 / 32) + x0)
  else
    (4352 * (p.row / 16) + 4096 + 16 * (p.row % 16) + p.w0 / 32,
     m.sbase + x0 / 32 + ((List.range m.ndim).map fun d =>
       if d = 0 then 0 else p.xs.getD d 0 * (m.dim d).stride * 8 / (32 * m.bits : Nat)).sum)
/-- The scale bytes of a copy, each once: landing byte, source address where a block has an element inside. -/
def TMap.scales (m : TMap) (ps : List Pt) : List (Nat × Option Int) :=
  if !m.scl then []
  else ((ps.map fun p => (m.scaleAt p).1).eraseDups).map fun a =>
    (a, (ps.find? fun p => p.inside && (m.scaleAt p).1 = a).map fun p => (m.scaleAt p).2)

/-! ## Places -/

/-- Where the far side of a copy lies: global memory, or another core's scratchpad. -/
inductive Far where
  | global
  | core (id : Nat)
  deriving DecidableEq, Repr
/-- n bytes of scratchpad from an offset. -/
def spLocs (id off n : Nat) : List Loc := (List.range n).map fun i => .sp id (off + i)
/-- What finding the bytes of an address gives. -/
inductive PRes where
  | ok (l : List Loc)
  | miss (va : Nat)
  | fault (code va : Nat)
  deriving DecidableEq, Repr
/-- The translation of an address that a copy step has: the core TLB's, or one that the step has collected while it was held (R235). -/
def State.copyXl (s : State) (va : Nat) : Option TlbEnt :=
  (s.cc.tlbHit s.ctx va).or (s.cc.cp.xl.find? fun e => e.covers s.ctx va)
/-- n bytes of the far side from an address. A timed copy needs a locked, timed-eligible HBM page (R191, R232); an address whose walk found
no page raises XLATE as the step is tried again (R236). -/
def farBytes (s : State) (far : Far) (acc : Access) (timed : Bool) (a : Int) (n : Nat) : PRes :=
  match far with
  | .core id => if a < 0 ∨ (Config.spadBytes : Int) < a + n then .fault SCOPE (spAddr a.toNat) else .ok (spLocs id a.toNat n)
  | .global =>
    if a < 0 ∨ 2 ^ 52 ≤ a + n - 1 then .fault XLATE (a % 2 ^ 64).toNat
    else
      let rec go : Nat → Nat → PRes
        | 0, _ => .ok []
        | k + 1, va => match s.copyXl va with
          | none => if timed || s.cc.cp.xm.contains va then .fault XLATE va else .miss va
          | some e =>
            if s.leafFault e acc ≠ 0 then .fault (s.leafFault e acc) va
            else if timed ∧ (!pteTE e.pte.toNat ∨ !e.locked) then .fault XLATE va
            else match go k (va + 1) with
              | .ok l => .ok (.gm (e.key va) :: l)
              | r => r
      go n a.toNat
/-- Bytes a bit range covers. -/
def span (bit width : Nat) : Nat := (bit + width + 7) / 8

/-! ## The moves of a copy -/

/-- The moves found so far, or what stopped the search. -/
inductive MvRes where
  | ok (l : List Mv)
  | miss (va : Nat)
  | fault (code va : Nat)
  deriving DecidableEq, Repr
def MvRes.cons (r : PRes) (k : List Loc → List Mv) (rest : MvRes) : MvRes :=
  match r with
  | .ok l => match rest with | .ok ms => .ok (k l ++ ms) | x => x
  | .miss va => .miss va
  | .fault c va => .fault c va
/-- The bytes of core id that a landing bit range covers, its base being an offset. -/
def landLocs (id base bit width : Nat) : List Loc := spLocs id (base + bit / 8) (span (bit % 8) width)
/-- A load's moves into core id, landing base at base (R189, R190). -/
def loadMoves (s : State) (m : TMap) (far : Far) (timed : Bool) (b id base : Nat) : MvRes :=
  let ps := m.points b
  let w := m.lbits
  let elems := ps.foldr (fun p rest =>
    let at_ := m.land p
    let dst := landLocs id base at_ w
    if p.inside then
      let (a, bit) := m.src p
      let n := span bit m.bits
      if m.conv = 2 then
        match farBytes s far {} timed (m.scaleAt p).2 1 with
        | .ok sc => MvRes.cons (farBytes s far {} timed a n) (fun l => [⟨.fold m.fmt l bit m.bits sc.head?, dst, at_ % 8, w⟩]) rest
        | .miss va => .miss va
        | .fault c va => .fault c va
      else MvRes.cons (farBytes s far {} timed a n)
        (fun l => [⟨if m.conv = 1 then .expand m.fmt l bit m.bits else .elem l bit, dst, at_ % 8, w⟩]) rest
    else if p.pad ∧ m.zfill then MvRes.cons (.ok []) (fun _ => [⟨.const 0, dst, at_ % 8, w⟩]) rest
    else rest) (.ok [])
  (m.scales ps).foldr (fun q rest =>
    let dst := spLocs id (base + q.1) 1
    match q.2 with
    | some a =>
      if m.conv = 2 ∨ m.fmt = 11 then MvRes.cons (.ok []) (fun _ => [⟨.const 0x7F, dst, 0, 8⟩]) rest
      else MvRes.cons (farBytes s far {} timed a 1) (fun l => [⟨.elem l 0, dst, 0, 8⟩]) rest
    | none => MvRes.cons (.ok []) (fun _ => [⟨.const 0x7F, dst, 0, 8⟩]) rest) elems
/-- A store's moves from the landing area of core id (R189). -/
def storeMoves (s : State) (m : TMap) (far : Far) (timed : Bool) (b id base : Nat) : MvRes :=
  let ps := m.points b
  let w := m.bits
  let elems := ps.foldr (fun p rest =>
    if p.inside then
      let (a, bit) := m.src p
      let at_ := m.land p
      MvRes.cons (farBytes s far { write := true } timed a (span bit w))
        (fun l => [⟨.elem (landLocs id base at_ w) (at_ % 8), l, bit, w⟩]) rest
    else rest) (.ok [])
  (m.scales ps).foldr (fun q rest => match q.2 with
    | some a => MvRes.cons (farBytes s far { write := true } timed a 1)
        (fun l => [⟨.elem (spLocs id (base + q.1) 1) 0, l, 0, 8⟩]) rest
    | none => rest) elems
/-- The bytes a copy writes, each once (R189). -/
def delivered (l : List Mv) : List Loc := (l.map Mv.dst).flatten.eraseDups
/-- A byte of the scratchpad that no copy may read: outside the window (R190). -/
def outsideSp : Loc → Bool
  | .sp _ off => decide (Config.spadBytes ≤ off)
  | .gm _ => false
/-- A byte of the scratchpad that no copy may write: outside the window, or where software may not write (R190, R215). -/
def landingBarred (s : State) : Loc → Bool
  | .sp id off => decide (Config.spadBytes ≤ off) || writeBarred (s.core id) s.cc.mode off 1
  | .gm _ => false
/-- The places a move reads. -/
def Mv.srcs (m : Mv) : List Loc :=
  match m.src with
  | .elem ls _ => ls
  | .const _ => []
  | .expand _ ls _ _ => ls
  | .fold _ ls _ _ _ => ls
  | .lost => []
/-- The first place, in element order, that a copy may not write or read. -/
def firstBarred (s : State) (ms : List Mv) : Option Loc :=
  ((delivered ms).find? (landingBarred s)).or (ms.findSome? fun m => m.srcs.find? outsideSp)
/-- The address of a place, as FADDR holds it (R146, R309). -/
def Loc.faddr : Loc → Nat
  | .sp _ off => 0x80 * 2 ^ 56 + off
  | .gm k => k

/-! ## Routes (R297, R298) -/

/-- Hops and crossings between two cores of a region. -/
def Region.hops (r : Region) (a b : Nat) : Nat :=
  (max (r.gx a) (r.gx b) - min (r.gx a) (r.gx b)) + (max (r.gy a) (r.gy b) - min (r.gy a) (r.gy b))
def Region.crossings (r : Region) (a b : Nat) : Nat :=
  (if 2 ≤ r.dies ∧ decide (r.gx a < r.xb) ≠ decide (r.gx b < r.xb) then 1 else 0) +
    (if r.dies = 4 ∧ decide (r.gy a < r.yb) ≠ decide (r.gy b < r.yb) then 1 else 0)
/-- The cores on the route from a to b, a first: along the row to b's column, then along the column (R297). -/
def Region.route (r : Region) (a b : Nat) : List Nat :=
  let xa := r.gx a
  let xb := r.gx b
  let ya := r.gy a
  let yb := r.gy b
  ((List.range (max xa xb - min xa xb)).map fun i => r.w * ya + (if xa ≤ xb then xa + i else xa - i)) ++
    ((List.range (max ya yb - min ya yb + 1)).map fun i => r.w * (if ya ≤ yb then ya + i else ya - i) + xb)
/-- The links of a copy's route, with the cycle from which it holds each where nothing makes it wait (R298). A link is named by its two
cores. -/
def Region.legs (r : Region) (a b cyc : Nat) : List (Nat × Nat) :=
  let l := r.route a b
  (List.range (l.length - 1)).map fun i => (l.getD i 0 * 2048 + l.getD (i + 1) 0, cyc + 8 + 2 * i + 16 * r.crossings a (l.getD i 0))
/-- The first cycle from t on at which a link is free for n cycles among holdings (link, first cycle, cycle after the last). -/
def freeFrom (held : List (Nat × Nat × Nat)) (link n : Nat) : Nat → Nat → Nat
  | 0, t => t
  | k + 1, t => match held.find? fun h => h.1 = link && decide (n ≠ 0) && decide (h.2.1 < t + n) && decide (t < h.2.2) with
    | some h => freeFrom held link n k h.2.2
    | none => t
/-- What a claim holds. -/
def Claim.holds (k : Claim) : List (Nat × Nat × Nat) := k.legs.map fun g => (g.1, g.2, g.2 + k.beats)
/-- A claim takes its links after what earlier ones hold; a wait for one link carries on to the next (R298). -/
def Claim.place (held : List (Nat × Nat × Nat)) (k : Claim) : Claim :=
  let o := k.legs.foldl (fun (p : Nat × List (Nat × Nat)) g =>
    let t := freeFrom held g.1 k.beats held.length (g.2 + p.1)
    (t - g.2, p.2 ++ [(g.1, t)])) (0, [])
  { k with legs := o.2, late := k.late || decide (o.1 ≠ 0) }
/-- The claims of a region in the order of R192, each after those before it. -/
def placeClaims (held : List (Nat × Nat × Nat)) : List Claim → List Claim
  | [] => []
  | k :: ks => let k' := k.place held; k' :: placeClaims (held ++ k'.holds) ks
def insertClaim (k : Claim) : List Claim → List Claim
  | [] => [k]
  | x :: l => if k.key.before x.key then k :: x :: l else x :: insertClaim k l
/-- A copy's claim joins those that still hold a link after this cycle, and those that have waited for one and whose copy has yet to perform: it
waits for those before it in the order of R192, and those after it wait for it (R298). -/
def Region.claim (r : Region) (k : Claim) : List Claim :=
  placeClaims [] (insertClaim k (r.links.filter fun x => (x.holds.any fun h => decide (r.cyc < h.2.2)) ||
    (x.late && r.copies.any fun c => c.core = x.core && c.serial = x.serial)))
/-- A copy has waited for a link, so that its last bytes come after their perform cycle (R298). -/
def Region.linkLate (r : Region) (c : Copy) : Bool := r.links.any fun k => k.core = c.core && k.serial = c.serial && k.late
/-! ## Sampling and performing -/

/-- A byte at a place, and whether it carries an error; a peer whose route is down answers with an error (R351). -/
def State.locByte (s : State) : Loc → Nat × Bool
  | .sp id off => ((SMap.get 0 (s.core id).spad off).toNat, (s.core id).spErr off 1)
  | .gm key => if s.peerDown key then (0, true) else ((s.byte key).toNat, s.memErr key)
def State.locsNat (s : State) : List Loc → Nat × Bool
  | [] => (0, false)
  | l :: ls => let a := s.locByte l; let b := s.locsNat ls; (a.1 + 256 * b.1, a.2 || b.2)
/-- A move's value now (R98, R99, R189). -/
def sampleMv (s : State) (m : Mv) : MvVal :=
  let mk := fun (v : Nat) (bad : Bool) (f : Nat) => MvVal.mk m.dst m.bit m.width v bad f
  match m.src with
  | .elem ls bit => let v := s.locsNat ls; mk (fld v.1 bit m.width) v.2 0
  | .const v => mk v false 0
  | .lost => mk 0 true 0
  | .expand fmt ls bit w => let v := s.locsNat ls; mk (expandE4M3 fmt (fld v.1 bit w)) v.2 0
  | .fold fmt ls bit w sc =>
    let v := s.locsNat ls
    let z := match sc with | some l => s.locByte l | none => (127, false)
    let r := foldE4M3 fmt (fld v.1 bit w) z.1
    mk r.1 (v.2 || z.2) r.2
/-- A place as a number, so that bytes of one place lie in order. -/
def Loc.num : Loc → Nat
  | .sp id off => 2 ^ 60 + id * 2 ^ 20 + off
  | .gm key => key
/-- Put values into bytes: place numbers with the byte, the bits of it that are written, and whether what is written carries an error, in
order of place. -/
def landBytes (s : State) : List MvVal → SMap (Loc × Nat × Nat × Bool) → SMap (Loc × Nat × Nat × Bool)
  | [], m => m
  | v :: vs, m =>
    let put := fun (m : SMap (Loc × Nat × Nat × Bool)) (q : Nat × Loc) =>
      let lo := 8 * q.1
      let old := match m.find? fun e => e.1 = q.2.num with | some e => e.2.2 | none => ((s.locByte q.2).1, 0, false)
      let mine := fun (i : Nat) => decide (v.bit ≤ lo + i ∧ lo + i < v.bit + v.width)
      let b := (List.range 8).map fun i => if mine i then fld v.val (lo + i - v.bit) 1 else fld old.1 i 1
      let w := (List.range 8).map fun i => if mine i then 1 else fld old.2.1 i 1
      SMap.insert q.2.num (q.2, rowOf 1 b, rowOf 1 w, v.bad || (old.2.2 && !(List.range 8).all mine)) m
    landBytes s vs (((List.range v.dst.length).zip v.dst).foldl put m)
/-- The bytes of values with their error marks: a byte written in part keeps the mark of the bits that stay, and one that is wholly written,
by one value or by several, has the mark of what is written (R221, R228). -/
def landed (s : State) (vals : List MvVal) : List (Nat × Loc × Nat × Bool) :=
  (landBytes s vals []).map fun e => (e.1, e.2.1, e.2.2.1, e.2.2.2.2 || (e.2.2.2.1 ≠ 255 && (s.locByte e.2.1).2))
/-- Runs of scratchpad bytes that follow one another, with their error mark. -/
def spRuns : List (Nat × Loc × Nat × Bool) → List (Nat × Nat × List Byte × Bool)
  | [] => []
  | (_, .gm _, _) :: l => spRuns l
  | (_, .sp id off, b, bad) :: l =>
    match spRuns l with
    | (id', off', bs, bad') :: rs =>
      if id' = id ∧ off' = off + 1 ∧ bad' = bad then (id, off, BitVec.ofNat 8 b :: bs, bad) :: rs
      else (id, off, [BitVec.ofNat 8 b], bad) :: (id', off', bs, bad') :: rs
    | [] => [(id, off, [BitVec.ofNat 8 b], bad)]
/-- The virtual address under which a copy reached a physical byte (R309). -/
def Copy.vaOf (c : Copy) (key : Nat) : Nat :=
  match c.pages.find? fun e => e.key e.base ≤ key ∧ key < e.key e.base + e.size with
  | some e => e.base + (key - e.key e.base)
  | none => 0
/-- Write values where they land (R190, R207, R321): lines captured, bytes written, flags raised; poisoned bytes that reach host
or peer memory raise UECC. -/
def performVals (s : State) (c : Copy) (vals : List MvVal) : List Act :=
  let bytes := landed s vals
  let gm := bytes.filterMap fun e => match e.2.1 with
    | .gm k => if s.peerDown k then none else some (k, BitVec.ofNat 8 e.2.2.1, e.2.2.2)
    | .sp _ _ => none
  let rec runs : State → List (Nat × Nat × List Byte × Bool) → List Act
    | _, [] => []
    | s, (id, off, bs, bad) :: rs => let a := spWrite s id off bs bad; a ++ runs (s.applyAll a) rs
  let flags := vals.foldl (fun a v => a ||| v.flags) 0
  runs s (spRuns bytes) ++ memWrite ((gm.filter fun e => !e.2.2).map fun e => (e.1, e.2.1)) false ++
    memWrite ((gm.filter fun e => e.2.2).map fun e => (e.1, e.2.1)) true ++
    (orFlags flags).map (.core c.core) ++
    match gm.find? fun e => e.2.2 && decide (2 ^ 52 ≤ e.1) with
    | some e => lateFault s { code := UECC, core := c.core, eng := 2, fseq := c.seq.toNat, timed := c.timed, faddr := c.vaOf e.1 }
    | none => []

/-- A copy of a region. -/
def Region.copy (r : Region) (core serial : Nat) : Option Copy := r.copies.find? fun c => c.core = core ∧ c.serial = serial
def Region.withCopy (r : Region) (c : Copy) : List Copy :=
  r.copies.map fun x => if x.core = c.core ∧ x.serial = c.serial then c else x
def Region.withoutCopy (r : Region) (c : Copy) : List Copy := r.copies.filter fun x => !(x.core = c.core ∧ x.serial = c.serial)
/-- The place of a copy's performs and credits among those of this cycle (R151, R192, R196): by dequeue cycle, then CORENUM; one from
outside the cluster comes after all of those, by its core's GRIDY and GRIDX. -/
def Copy.key (c : Copy) (r : Region) : Key :=
  { due := r.cyc, phase := if c.outside then 1 else 0, issue := c.since
    core := if c.outside then c.core % 2048 else r.corenum (c.core % 2048), unit := 3, word := c.serial }
/-- The place of a copy's stamp, which STAMPA puts into memory or its own cluster (R151, R192, R195). -/
def Copy.stampKey (c : Copy) (r : Region) : Key :=
  { due := r.cyc, issue := c.since, core := r.corenum (c.core % 2048), unit := 3, word := c.serial }
/-- The credits of a copy fall now (R186, R196, R248). -/
def creditActs (s : State) (c : Copy) : List Act :=
  let ctx := c.core / 2048
  let k := c.key (s.region ctx)
  c.credits.map fun p => .reg ctx (.sched { k with phase := k.phase + 2 } (.credit p.1 c.sb p.2 c.core 2 c.seq.toNat c.timed))
/-- A copy samples its source (R191, R193). -/
def copySample (s : State) (core serial : Nat) : List Act :=
  match (s.region (core / 2048)).copy core serial with
  | some c => [.reg (core / 2048) (.copies ((s.region (core / 2048)).withCopy { c with vals := c.moves.map (sampleMv s) }))]
  | none => []
/-- A timed copy performs, or faults where its data comes late (R191, R298). -/
def timedPerform (s : State) (core serial : Nat) : List Act :=
  let ctx := core / 2048
  let r := s.region ctx
  match r.copy core serial with
  | none => []
  | some c =>
    (if c.late || r.linkLate c then
      lateFault s { code := SCHED, core := core, eng := 2, wobj := 4, wval1 := r.cyc, wval2 := 2, fseq := c.seq.toNat, timed := c.timed }
     else performVals s c c.vals ++ creditActs s c) ++ [.reg ctx (.copies (r.withoutCopy c))]
/-- TIMED_COPY_PERFORM (R191), MULTICAST_PERFORM (R194), CPL_PERFORM (R193). -/
def evTimedCopyPerform (serial : Nat) (s : State) : List Act := timedPerform s s.cur serial
def evMulticastPerform (serial : Nat) (s : State) : List Act := timedPerform s s.cur serial
def evCplPerform (serial : Nat) (s : State) : List Act := timedPerform s s.cur serial

/-- The bytes of memory among places. -/
def gmKeys (l : List Loc) : List Nat := l.filterMap fun p => match p with | .gm k => some k | .sp _ _ => none
/-- The bytes of memory that a copy has still to read or write, its stamp apart. -/
def Copy.payloadKeys (c : Copy) : List Nat := gmKeys (((c.moves ++ c.rest).map Mv.srcs).flatten ++ ((c.moves ++ c.rest).map Mv.dst).flatten)
/-- An access of copy c to some bytes waits for an earlier copy of its stream that has yet to reach one of them, or, where it
reads S pages, to read its own (R245, R250, R252). -/
def Copy.waitsFor (c : Copy) (mine : List Nat) (reads : Bool) (e : Copy) : Bool :=
  e.core = c.core && decide (e.serial < c.serial) &&
    ((mine.any fun k => (!e.paid && e.payloadKeys.contains k) || (gmKeys e.stampTo).contains k) || (reads && !e.paid && e.readsS && c.readsS))
/-- The payload of an untimed copy takes its place: its source is read in a cycle, after the writes of that cycle, and it performs in the next
(R192, R242, R249). -/
def takePayload (r : Region) (c : Copy) (cyc : Nat) : List Act :=
  [.reg (c.core / 2048) (.sched { c.key r with due := cyc, phase := 3 } (.copySample c.core c.serial)),
   .reg (c.core / 2048) (.sched { c.key r with due := cyc + 1 } (.payload c.core c.serial)),
   .reg (c.core / 2048) (.taken c.core c.serial)]
/-- The payload of an untimed copy falls due: it takes its place, unless it has one, or waits for an earlier copy of its stream. -/
def payloadDue (s : State) (core serial : Nat) : List Act :=
  let r := s.region (core / 2048)
  match r.copy core serial with
  | none => []
  | some c =>
    if c.taken then []
    else if r.copies.any (c.waitsFor c.payloadKeys true) then [.pkg (.later (s.now + 1) (.payload core serial))]
    else takePayload r c r.cyc
/-- The stamp of an untimed copy falls due, as its payload does. -/
def stampDue (s : State) (core serial : Nat) : List Act :=
  let r := s.region (core / 2048)
  match r.copy core serial with
  | none => []
  | some c =>
    if r.copies.any (c.waitsFor (gmKeys c.stampTo) false) then [.pkg (.later (s.now + 1) (.stamp core serial))]
    else [.reg (core / 2048) (.sched (c.stampKey r) (.ev core .control (.sequenceStampPerform serial)))]
/-- The earlier untimed copies of its stream which the timed copies of a list meet, or which those wait for, in their order: they take effect
before the timed ones, whose accesses have fixed cycles (R245, R250). -/
def copiesAhead : List Copy → List Copy → List Copy
  | need, [] => need
  | need, e :: l =>
    copiesAhead (if !e.stampTo.isEmpty && need.any fun x => x.waitsFor (x.payloadKeys ++ gmKeys x.stampTo) true e then e :: need else need) l
/-- One untimed copy of an engine's entry is done (R175). -/
def Engine.copyDone (g : Engine) (seq : Word) : Engine :=
  if g.running ∧ g.headSeq = seq ∧ 0 < g.copies then { g with copies := g.copies - 1 }
  else { g with finishing := g.finishing.map fun f => if f.seq = seq then { f with copies := f.copies - 1 } else f }
/-- A move reads device memory. -/
def Mv.global (m : Mv) : Bool := !(gmKeys m.srcs).isEmpty
/-- The bytes of memory that a move reads and writes. -/
def Mv.keys (m : Mv) : List Nat := gmKeys (m.srcs ++ m.dst)
/-- A move of an untimed copy comes after a timed copy of its stream that has yet to reach one of its bytes, or after what an earlier untimed
copy keeps back for such a one: keys with their cores, and the cores of which reads of S pages are kept back (R245, R250). -/
def Copy.keepsBack (e : Copy) (all : List Copy) (kept : List (Nat × Nat)) (keptS : List Nat) (m : Mv) : Bool :=
  (m.keys.any fun k => kept.contains (e.core, k) || all.any fun t => t.stampTo.isEmpty && t.core = e.core && decide (t.serial < e.serial) &&
    (if t.vals = [] then t.payloadKeys else gmKeys (t.moves.map Mv.dst).flatten).contains k) ||
    (keptS.contains e.core && e.readsS && m.global)
/-- The untimed copies that take effect ahead, in their order, each as it does so: with the moves that take effect, and those that it keeps
back. One whose moves it all keeps back, one whose payload has its place, and one that reaches no memory are as they were. -/
def splitAhead (all : List Copy) : List (Nat × Nat) → List Nat → List Copy → List Copy
  | _, _, [] => []
  | kept, keptS, e :: l =>
    let back := if e.taken then e.rest else e.moves.filter (e.keepsBack all kept keptS)
    let now := e.moves.filter fun m => !e.keepsBack all kept keptS m
    let e' := if e.taken then { e with rush := true } else if e.outside ∨ (now = [] ∧ back ≠ []) then e
      else { e with moves := now, rest := back, rush := true, taken := true }
    e' :: splitAhead all (kept ++ (back.flatMap Mv.keys).map fun k => (e.core, k)) (if e.readsS && back.any Mv.global then e.core :: keptS else keptS) l
/-- The untimed copies that must take effect ahead of the timed copies that a region's engines have dequeued in this cycle do so 7 cycles
from now, one after another in their order, before the timed ones read memory (R191, R242, R245, R250): each reads memory, performs, and has
its stamp perform. One that writes outside its cluster, and so no memory but its stamp, performs a cycle earlier (R192). -/
def orderActs (r : Region) : List Act :=
  let new := r.copies.filter fun c => c.stampTo.isEmpty && c.since = r.cyc
  let need := (new.flatMap fun c => (copiesAhead [c] r.copies.reverse).filter fun e => !e.stampTo.isEmpty).eraseDups
  let old := r.copies.filter need.contains
  let ahead := splitAhead r.copies [] [] old
  let sched := fun (k : Key) (it : Item) => Act.reg r.ctx (.sched k it)
  let stamp := fun (e : Copy) => sched { e.stampKey r with due := r.cyc + 7 } (.ev e.core .control (.sequenceStampPerform e.serial))
  if old = [] then []
  else
    .reg r.ctx (.copies (r.copies.map fun c => (ahead.find? fun e => e.core = c.core ∧ e.serial = c.serial).getD c)) ::
      (old.zip ahead).flatMap fun p =>
        if p.1.taken then [stamp p.2]
        else if p.1.outside then takePayload r p.1 (r.cyc + 5) ++ [stamp p.2]
        else if p.2.rush then
          [sched { p.2.key r with due := r.cyc + 6, phase := 3 } (.copySample p.2.core p.2.serial),
           sched { p.2.key r with due := r.cyc + 7 } (.payload p.2.core p.2.serial)]
        else []
/-- The stamp performs: the new copy count lands at STAMPA, the barrier is credited, and a CPK's node record becomes due at the scheduler once
the stamp is globally visible; the node completes no earlier than its writes are visible (R195, R257, R282). -/
def stampPerform (s : State) (core serial : Nat) : List Act :=
  let ctx := core / 2048
  let r := s.region ctx
  match r.copy core serial with
  | none => []
  | some c =>
    let cp := (s.core core).cp.copyDone c.seq
    (if c.lost then [] else performVals s c [⟨c.stampTo, 0, 64, c.stampVal.toNat, false, 0⟩]) ++ creditActs s c ++
      [.reg ctx (.copies (r.withoutCopy c)),
       .core core (.eng 2 (if cp.running ∧ cp.headSeq = c.seq then { cp with doneAt := max cp.doneAt r.cyc }
         else { cp with finishing := cp.finishing.map fun f => if f.seq = c.seq then { f with doneAt := max f.doneAt r.cyc } else f }))] ++
      if c.payloadKeys.isEmpty && (gmKeys c.stampTo).isEmpty && c.nodeRec.isNone then []
      else
        let seen := s.now + 1 + s.free 0 Config.visibleBound
        [.reg ctx (.visible seen), .pkg (.takeFree 1)] ++ match c.nodeRec with
          | some rec => [.pkg (.later seen (.ev core (.stampGloballyVisible (r.handle, rec))))]
          | none => []
/-- The untimed payload of a copy performs; its stamp follows at a cycle the spec leaves open (R195; assumptions 3). Ahead of a timed copy it
reads memory in this cycle, and its stamp performs at once; what it keeps back falls due again (R245). -/
def payloadPerform (s : State) (core serial : Nat) : List Act :=
  let ctx := core / 2048
  let r := s.region ctx
  match r.copy core serial with
  | none => []
  | some c =>
    let put := fun (x : Copy) => Act.reg ctx (.copies (r.withCopy x))
    if !c.rush then
      performVals s c c.vals ++ [put { c with paid := true }, .pkg (.later (s.now + 1 + s.free 0 0) (.stamp core serial)), .pkg (.takeFree 1)]
    else
      let vals := (c.moves.zip c.vals).map fun p => if p.1.global then sampleMv s p.1 else p.2
      if c.rest ≠ [] then
        performVals s c vals ++ [put { c with moves := c.rest, vals := [], rest := [], rush := false, taken := false },
          .pkg (.later (s.now + 1) (.payload core serial))] ++
          if (gmKeys (c.moves.map Mv.dst).flatten).isEmpty then []
          else [.reg ctx (.visible (s.now + 1 + s.free 0 Config.visibleBound)), .pkg (.takeFree 1)]
      else
        let a := performVals s c vals ++ [put { c with paid := true }]
        let s1 := s.applyAll a
        a ++ if r.copies.any (c.waitsFor (gmKeys c.stampTo) false) then [.pkg (.later (s.now + 1) (.stamp core serial))]
          else stampPerform s1 core serial
/-- SEQUENCE_STAMP_PERFORM (R195, R257): the stamp performs after every payload byte. -/
def evSequenceStampPerform (serial : Nat) (s : State) : List Act :=
  match (s.region (s.cur / 2048)).copy s.cur serial with
  | some c => if c.paid then stampPerform s s.cur serial else []
  | none => []

/-! ## The stacks (R298) -/

/-- The bytes that a copy moves on each stack, from a cycle on, at 64 a cycle: stack, first cycle, bytes (R227, R298). -/
def stackUse (start : Nat) (l : List Loc) : List (Nat × Nat × Nat) :=
  let ks := (gmKeys l).eraseDups
  ((ks.map fun k => fld k 36 3).eraseDups).map fun k => (k, start, (ks.filter fun x => fld x 36 3 = k).length)
/-- Bytes of a use that fall in a cycle. -/
def useAt (c : Nat) (u : Nat × Nat × Nat) : Nat := if c < u.2.1 then 0 else min 64 (u.2.2 - 64 * (c - u.2.1))
/-- With this use a stack would deliver more than 4,096 bytes in some cycle (R298). -/
def stackFull (use : List (Nat × Nat × Nat)) (h : Nat × Nat × Nat) : Bool :=
  (List.range ((h.2.2 + 63) / 64)).any fun i =>
    decide (4096 < ((h :: use.filter fun u => u.1 = h.1).map (useAt (h.2.1 + i))).sum)
/-- The package's stacks as a timed copy of some bytes finds them: whether it comes late, and what it adds; a use ends 64 bytes a
cycle after its start (R298; device cycles). -/
def stackPlan (s : State) (l : List Loc) : Bool × List Act :=
  let mine := stackUse (s.now + 1536) l
  (mine.any (stackFull s.hbmUse),
   if mine = [] then [] else [.pkg (.hbmUse (mine ++ s.hbmUse.filter fun u => decide (s.now < u.2.1 + (u.2.2 + 63) / 64)))])

/-! ## The copy words -/

/-- A copy word's common frame (R186): placed by the control core; at dequeue its tags are checked, an absent clock ends it
with the occupancy that it has without a byte. -/
def copyStep (s : State) (i : Instr) (a b : Nat) (absent : Nat) (body : Plan) : Plan :=
  let c := s.cc
  let tags := [(c.reg a).tag, (c.reg b).tag]
  match s.actor with
  | .control => s.place 2 i tags
  | .engine _ => match c.common tags with
    | none => s.trap CLOCK
    | some tg =>
      if !c.present tg then .acts [s.stepDone absent 0 0]
      else if (c.reg a).bad ∨ (c.reg b).bad then s.trap UECC
      else body
/-- Read the map at s(a); one that overlaps the arena of an open level raises SCOPE (R187, R224). -/
def withMap (s : State) (a : Nat) (store : Bool) (k : TMap → Plan) : Plan :=
  match decodeAddr s.rr s.vidx (s.val a) with
  | .sp t off far =>
    if far ∨ t ≠ s.cur ∨ s.cc.inArena off 256 then s.trapAt SCOPE (s.val a).toNat
    else if off % 256 ≠ 0 then s.trapAt ALIGN (s.val a).toNat
    else if s.cc.spErr off 256 then s.trapAt UECC (s.val a).toNat
    else
      let m := tmapOf (s.cc.spNat off 256)
      if m.legal store then k m else s.trap ILLEGAL
  | _ => s.trapAt SCOPE (s.val a).toNat
/-- The core a TARGET = 1 map names (R187, R191). -/
def targetOf (s : State) (m : TMap) : Option Far :=
  if m.target = 0 then some .global
  else if m.tgx < s.rr.w ∧ m.tgy < s.rr.h then some (.core (coreId s.ctx (m.tgy * s.rr.w + m.tgx))) else none
/-- Go on with the moves of a copy whose landings are allowed; a miss holds the step (R190, R215, R235). -/
def withMoves (s : State) (r : MvRes) (k : List Mv → Plan) : Plan :=
  match r with
  | .miss va => s.miss va
  | .fault code va => s.trapAt code va
  | .ok ms => match firstBarred s ms with
    | some l => s.trapAt SCOPE l.faddr
    | none => k ms
def loadOrStore (s : State) (m : TMap) (store : Bool) (far : Far) (timed : Bool) (b : Nat) : MvRes :=
  if store then storeMoves s m far timed b s.cur m.loff else loadMoves s m far timed b s.cur m.loff
/-- The core whose barrier a copy credits (R186). -/
def creditCore (s : State) (store : Bool) (far : Far) : Nat := match far with | .core id => if store then id else s.cur | .global => s.cur
/-- Cycles that bytes take at 64 a cycle. -/
def beats (n : Nat) : Nat := (n + 63) / 64
/-- The places that moves read and write. -/
def placesOf (ms : List Mv) : List Loc := (ms.map Mv.dst).flatten ++ (ms.map Mv.srcs).flatten
/-- The translations that the bytes of places use. -/
def State.pagesOf (s : State) (l : List Loc) : List TlbEnt :=
  (s.cc.tlb ++ s.cc.cp.xl).filter fun e => e.ctx = s.ctx && (gmKeys l).any fun k => decide (e.key e.base ≤ k ∧ k < e.key e.base + e.size)
/-- A byte read lies on an S page. -/
def readsOrdered (s : State) (ms : List Mv) : Bool := (s.pagesOf (ms.map Mv.srcs).flatten).any fun e => pteOrd e.pte.toNat = 0
/-- A copy record of the acting engine. -/
def copyOf (s : State) (ms : List Mv) (credits : List (Nat × Nat)) (sb : Nat) (outside late : Bool) : Copy :=
  { serial := s.cc.serial, core := s.cur, seq := BitVec.ofNat 32 s.fseq, since := s.cyc, outside := outside, paid := false
    readsS := readsOrdered s ms, moves := ms, vals := [], credits := credits, sb := sb, stampTo := [], stampVal := 0
    pages := s.pagesOf (placesOf ms), nodeRec := none, late := late, timed := s.timed }
/-- The translations that a copy used become the most recent of the core's (R235). -/
def touched (s : State) (l : List Loc) : Act :=
  let used := s.pagesOf l
  s.upd (.tlb (s.cc.tlb.filter used.contains ++ s.cc.tlb.filter fun e => !used.contains e))
/-- A timed copy starts: a scratchpad source is sampled at +2 and a global one at +8 (R191, R242), performed at a fixed offset that no divisor changes (R191, R193, R295). -/
def startTimed (s : State) (c : Copy) (occ perf : Nat) (ev : Nat → Instr) (extra : List Act) : Plan :=
  .acts ([.reg s.ctx (.copyPush c), s.upd .bumpSerial, touched s (placesOf c.moves),
    .reg s.ctx (.sched { s.key (s.cyc + if c.moves.any Mv.global then 8 else 2) 0 with phase := 3 } (.copySample s.cur c.serial)),
    .reg s.ctx (.sched { c.key s.rr with due := s.cyc + perf } (.ev s.cur s.actor (ev c.serial))),
    s.upd (.stepDone s.unit (s.cyc + occ * s.mul) (s.cyc + perf) 0)] ++ extra)
/-- CPT (R191). -/
def planCpt (a b : BitVec 6) (s : BitVec 4) (g h : BitVec 1) (σ : State) : Plan :=
  let store := h = 1
  copyStep σ (.cpt a b s g h) a.toNat b.toNat 4 <|
  withMap σ a.toNat store fun m =>
    match targetOf σ m with
    | none => σ.trap SCOPE
    | some far => withMoves σ (loadOrStore σ m store far true (σ.val b.toNat).toNat) fun ms =>
      let n := (delivered ms).length
      let r := σ.rr
      let v := match far with | .core id => id % 2048 | .global => σ.vidx
      let perf := match far with
        | .global => 1536 + beats n
        | .core _ => 8 + 2 * r.hops σ.vidx v + 16 * r.crossings σ.vidx v + beats n
      let legs := match far with
        | .global => []
        | .core _ => if store then r.legs σ.vidx v σ.cyc else r.legs v σ.vidx σ.cyc
      let use := stackPlan σ (placesOf ms)
      let owner := creditCore σ store far
      let outside := store && decide (r.cluster v ≠ r.cluster σ.vidx)
      let c := copyOf σ ms (if g = 1 then [(owner, n)] else []) s.toNat outside use.1
      startTimed σ c (4 + beats n) perf
        .timedCopyPerform (.reg σ.ctx (.hold (r.claim ⟨c.core, c.serial, { c.key r with due := 0 }, beats n, legs, false⟩)) :: use.2)
/-- CPM (R194). -/
def planCpm (a b : BitVec 6) (s : BitVec 4) (g : BitVec 1) (σ : State) : Plan :=
  copyStep σ (.cpm a b s g) a.toNat b.toNat 4 <|
  withMap σ a.toNat false fun m =>
    let r := σ.rr
    let nums := (List.range 16).filter fun k => (σ.val b.toNat).getLsbD k
    let cores := nums.map (r.inCluster σ.vidx)
    if m.target ≠ 0 ∨ 12 < nums.length then σ.trap ILLEGAL
    else if cores.any Option.isNone then σ.trap SCOPE
    else
      let us := cores.filterMap id
      let base := fun u => m.loff + fld ((σ.core (coreId σ.ctx u)).csr 0x024).toNat 0 19
      let all := us.foldr (fun u rest => match loadMoves σ m .global true 0 (coreId σ.ctx u) (base u) with
        | .ok ms => (match rest with | .ok l => MvRes.ok (ms ++ l) | x => x)
        | x => x) (MvRes.ok [])
      withMoves σ all fun ms =>
        if us = [] then .acts [σ.stepDone 4 0 0]
        else
          let n := (delivered ms).length / us.length
          let hmax := (us.map (r.hops σ.vidx)).foldl max 0
          let perf := 1536 + beats n + 8 + 2 * hmax
          let use := stackPlan σ (placesOf ms)
          startTimed σ (copyOf σ ms (if g = 1 then us.map fun u => (coreId σ.ctx u, n) else []) s.toNat false use.1) (4 + beats n) perf
            .multicastPerform use.2
/-- The moves of a local copy, word by word, so that each word carries its own error mark (R193, R221, R321). -/
def wordMoves (core o d n : Nat) : List Mv :=
  (List.range (n / 8)).map fun i => ⟨.elem (spLocs core (o + 8 * i) 8) 0, spLocs core (d + 8 * i) 8, 0, 64⟩
/-- CPL (R193). -/
def planCpl (a b : BitVec 6) (l : BitVec 12) (s : State) : Plan :=
  let n := (l.toNat + 1) * 64
  let loc := fun r => match decodeAddr s.rr s.vidx (s.val r) with
    | .sp t off far => if far ∨ t ≠ s.cur ∨ Config.spadBytes < off + n then none else some off
    | _ => none
  copyStep s (.cpl a b l) a.toNat b.toNat (l.toNat + 1) <|
  match loc a.toNat, loc b.toNat with
  | some d, some o =>
    if writeBarred s.cc s.cc.mode d n then s.trapAt SCOPE (s.val a.toNat).toNat
    else if d % 64 ≠ 0 then s.trapAt ALIGN (s.val a.toNat).toNat
    else if o % 64 ≠ 0 then s.trapAt ALIGN (s.val b.toNat).toNat
    else startTimed s (copyOf s (wordMoves s.cur o d n) [] 0 false false) (l.toNat + 1) (8 + l.toNat + 1)
      .cplPerform []
  | none, _ => s.trapAt SCOPE (s.val a.toNat).toNat
  | _, none => s.trapAt SCOPE (s.val b.toNat).toNat
/-- The bytes of STAMPA (R195). -/
def stampLocs (s : State) (ad : DWord) : PRes :=
  match decodeAddr s.rr s.vidx ad with
  | .scope => .fault SCOPE ad.toNat
  | .xlate => .fault XLATE ad.toNat
  | .sp t off _ =>
    if writeBarred (s.core t) s.cc.mode off 8 ∨ Config.spadBytes < off + 8 then .fault SCOPE ad.toNat
    else if off % 8 ≠ 0 then .fault ALIGN ad.toNat else .ok (spLocs t off 8)
  | .global va => match farBytes s .global { write := true } false va 8 with
    | .ok l => if va % 8 ≠ 0 then .fault ALIGN va else .ok l
    | x => x
/-- CPA and CPK (R195): the payload performs at a cycle that the spec leaves open, then the stamp. -/
def untimedCopy (s : State) (i : Instr) (a b sb : Nat) (credit store : Bool) (org : Nat) (nodeRec : Option Nat) : Plan :=
  copyStep s i a b 4 <|
  withMap s a store fun m =>
    match targetOf s m with
    | none => s.trap SCOPE
    | some far => withMoves s (loadOrStore s m store far false org) fun ms =>
      match stampLocs s (BitVec.ofNat 64 m.stampa) with
      | .miss va => s.miss va
      | .fault code va => s.trapAt code va
      | .ok st =>
        let n := (delivered ms).length
        let count := s.cc.copyCount + 1
        let outside := store && (match far with | .core id => decide (s.rr.cluster (id % 2048) ≠ s.rr.cluster s.vidx) | .global => false)
        let c := { copyOf s ms (if credit then [(creditCore s store far, n)] else []) sb outside false with
                   stampTo := st, stampVal := count, nodeRec := nodeRec }
        .acts [.reg s.ctx (.copyPush c), s.upd .bumpSerial, s.upd (.copyCount count),
          .pkg (.later (s.now + 1 + s.free 0 0) (.payload s.cur c.serial)), .pkg (.takeFree 1),
          touched s (placesOf ms ++ st),
          s.stepDone 4 0 1]
def planCpa (a b : BitVec 6) (s : BitVec 4) (g h : BitVec 1) (σ : State) : Plan :=
  untimedCopy σ (.cpa a b s g h) a.toNat b.toNat s.toNat (g = 1) (h = 1) (σ.val b.toNat).toNat none
/-- CPK: s(b) names a node record, so every origin is 0 (R186, R195). -/
def planCpk (a b : BitVec 6) (s : BitVec 4) (g h : BitVec 1) (σ : State) : Plan :=
  untimedCopy σ (.cpk a b s g h) a.toNat b.toNat s.toNat (g = 1) (h = 1) 0 (some (σ.val b.toNat).toNat)

-- The meanings: one for each instruction of this file.
/-- CPT (R191). -/
def execCpt (a : BitVec 6) (b : BitVec 6) (s : BitVec 4) (g : BitVec 1) (h : BitVec 1) (σ : State) : Host.Outcome State Fault Refusal := resolve σ (planCpt a b s g h σ)
/-- CPA (R195). -/
def execCpa (a : BitVec 6) (b : BitVec 6) (s : BitVec 4) (g : BitVec 1) (h : BitVec 1) (σ : State) : Host.Outcome State Fault Refusal := resolve σ (planCpa a b s g h σ)
/-- CPM (R194). -/
def execCpm (a : BitVec 6) (b : BitVec 6) (s : BitVec 4) (g : BitVec 1) (σ : State) : Host.Outcome State Fault Refusal := resolve σ (planCpm a b s g σ)
/-- CPL (R193). -/
def execCpl (a : BitVec 6) (b : BitVec 6) (l : BitVec 12) (s : State) : Host.Outcome State Fault Refusal := resolve s (planCpl a b l s)
/-- CPK (R195). -/
def execCpk (a : BitVec 6) (b : BitVec 6) (s : BitVec 4) (g : BitVec 1) (h : BitVec 1) (σ : State) : Host.Outcome State Fault Refusal := resolve σ (planCpk a b s g h σ)
/-- TIMED_COPY_PERFORM (R191). -/
def execTimedCopyPerform (serial : Nat) (s : State) : Host.Outcome State Fault Refusal := settle s (evTimedCopyPerform serial s)
/-- MULTICAST_PERFORM (R194). -/
def execMulticastPerform (serial : Nat) (s : State) : Host.Outcome State Fault Refusal := settle s (evMulticastPerform serial s)
/-- CPL_PERFORM (R193). -/
def execCplPerform (serial : Nat) (s : State) : Host.Outcome State Fault Refusal := settle s (evCplPerform serial s)
/-- SEQUENCE_STAMP_PERFORM (R195). -/
def execSequenceStampPerform (serial : Nat) (s : State) : Host.Outcome State Fault Refusal := settle s (evSequenceStampPerform serial s)

end Sys2Proof.Machine
end

