-- ==== Sys2Proof/Machine/Fabric.lean ====
section
/-! DEFINITION. Class 15 and QWAIT: neighbour links, barrier tags, clocked channels, NODEQ and GLNCH (R164, R198 to R203). -/

namespace Sys2Proof.Machine

/-- The neighbour of core v in direction d: 0 n, 1 e, 2 s, 3 w (R199; assumptions 31). -/
def Region.neighbour (r : Region) (v d : Nat) : Option Nat :=
  let x := r.gx v
  let y := r.gy v
  match d with
  | 0 => if y = 0 then none else some (v - r.w)
  | 1 => if x + 1 < r.w then some (v + 1) else none
  | 2 => if y + 1 < r.h then some (v + r.w) else none
  | _ => if x = 0 then none else some (v - 1)

/-- LSEND (R199): the word arrives at +2, whatever the divisor (R292). -/
def planLsend (r : BitVec 2) (a : BitVec 6) (s : State) : Plan :=
  untagged s [a.toNat] <|
  match s.rr.neighbour s.vidx r.toNat with
  | none => s.trap SCOPE
  | some v => .acts [.reg s.ctx (.sched (s.key (s.cyc + 2) 2) (.linkWord (coreId s.ctx v) ((r.toNat + 2) % 4) (s.val a.toNat)))]
/-- LRECV (R199). -/
def planLrecv (r : BitVec 2) (d : BitVec 6) (s : State) : Plan :=
  match s.cc.inbox r.toNat with
  | [] => s.unless false 8 r.toNat (.acts [])
  | v :: _ => .acts [s.upd (.inboxPop r.toNat), s.lands 1 2 [.reg d.toNat v 1 false]]

/-- BAR is the core's arrival; a second one before the release raises ILLEGAL (R200). A BAR in the release cycle is an
arrival for the next barrier (R301). -/
def planBar (b : BitVec 3) (s : State) : Plan :=
  if SMap.get false s.cc.btArr b.toNat then s.trap ILLEGAL else .acts [s.upd (.btArr b.toNat true), s.upd (.btOwed b.toNat true)]
/-- BARW (R200): the release that follows the core's last BAR, whether or not a freeze has cleared the arrival (R302); a check in a timed segment, a wait in elastic code. -/
def planBarw (b : BitVec 3) (l : BitVec 5) (s : State) : Plan :=
  let met := !SMap.get false s.cc.btOwed b.toNat
  if s.inSeg then (if met then .acts [] else s.sched 9 b.toNat)
  else startWait s met (.barw b.toNat) (some l.toNat) []

/-- The channel of a number in the graph of the acting region (R266). -/
def State.chan (s : State) (ctx ch : Nat) : Option Chan :=
  ((s.graphs.find? fun g => g.gid = (s.region ctx).gid).bind fun g => g.chans[ch]?)
/-- The region is the writer, or the reader, of a channel (R266). -/
def State.writes (s : State) (ch : Nat) : Bool := match s.chan s.ctx ch with | some k => k.wnode = s.rr.node | none => false
def State.readsCh (s : State) (ch : Nat) : Bool := match s.chan s.ctx ch with | some k => k.rnode = s.rr.node | none => false
/-- A region's snapshot of a channel for its instant (R26, R287). -/
def Region.snapOf (r : Region) (ch : Nat) : List ChVal := ((r.chSnap.find? fun p => p.1 = ch).map Prod.snd).getD []
/-- Values popped from a snapshot by the region's cores in this instant; a pop of an empty snapshot is none (R202). -/
def State.pops (s : State) (ctx ch : Nat) : Nat :=
  min ((s.region ctx).snapOf ch).length ((s.region ctx).ids.map fun id => SMap.get 0 (s.core id).chPops ch).sum
/-- The value CHRD reads: the latest of a SAMPLE channel, the head that is left of a QUEUE (R202, R287). -/
def State.snapshot (s : State) (ch : Nat) : Option DWord :=
  let vs := s.rr.snapOf ch
  match s.chan s.ctx ch with
  | some k => if k.kind = 0 then vs.getLast?.map ChVal.v else (vs.drop (s.pops s.ctx ch)).head?.map ChVal.v
  | none => none

/-- CHWR (R201). -/
def planChwr (c : BitVec 8) (a : BitVec 6) (s : State) : Plan :=
  memIssue s [a.toNat] false fun _ =>
    if !s.writes c.toNat then s.trap ILLEGAL else .acts [s.upd (.chStage c.toNat s.cyc (s.val a.toNat))]
/-- CHRD defines kC under k1, present exactly when the snapshot holds a value (R81, R202). -/
def planChrd (c : BitVec 8) (d : BitVec 6) (k : BitVec 4) (s : State) : Plan :=
  if k.toNat < 2 ∨ !s.readsCh c.toNat then s.trap ILLEGAL
  else if s.cc.defined k then s.trap CLOCK
  else
    let def_ := fun (p : Bool) => Act.reg s.ctx (.sched (s.key (s.cyc + 1) 2) (.land s.cur [.clock k.toNat { defined := true, present := p, parent := 1 }]))
    match s.snapshot c.toNat with
    | some v => .acts [def_ true, s.lands 1 2 [.reg d.toNat v k false]]
    | none => .acts [def_ false]
/-- CHPOP (R202). -/
def planChpop (c : BitVec 8) (s : State) : Plan :=
  match s.chan s.ctx c.toNat with
  | some k =>
    if k.rnode ≠ s.rr.node ∨ k.kind = 0 then s.trap ILLEGAL
    else .acts (if (s.snapshot c.toNat).isSome then [s.lands 1 2 [.chPop c.toNat]] else [])
  | none => s.trap ILLEGAL

/-- NODEQ and GLNCH are staged like global stores (R203). -/
def planNotice (s : State) (a : Nat) (k : Nat → StKind) : Plan :=
  memIssue s [a] true fun _ =>
    if !stageRoom s.cc then s.trap STAGEOVF else .acts [stage s (k (s.val a).toNat) []]
def planNodeq (a : BitVec 6) (s : State) : Plan := planNotice s a.toNat .nodeq
def planGlnch (a : BitVec 6) (s : State) : Plan := planNotice s a.toNat .glnch

/-! ## Channels at the start and at the commit -/

/-- Channels of the graph of a region, with their numbers. -/
def State.channels (s : State) (ctx : Nat) : List (Nat × Chan) :=
  match s.graphs.find? fun g => g.gid = (s.region ctx).gid with
  | some g => (List.range g.chans.length).zip g.chans
  | none => []
/-- A channel without the values that its reader has popped in this instant. -/
def popped (s : State) (ctx : Nat) (p : Nat × Chan) : Chan :=
  if p.2.rnode = (s.region ctx).node ∧ p.2.kind = 1 then { p.2 with vals := p.2.vals.drop (s.pops ctx p.1) } else p.2
/-- Put a staged value after every one issued no later. -/
def insertIssue (x : Nat × Nat × DWord) : List (Nat × Nat × DWord) → List (Nat × Nat × DWord)
  | [] => [x]
  | y :: l => if x.2.1 < y.2.1 then x :: y :: l else y :: insertIssue x l
/-- The values that a region's cores have staged for a channel, in issue order (R201). -/
def State.stagedFor (s : State) (ctx ch : Nat) : List DWord :=
  let all := (s.region ctx).ids.flatMap fun id => (s.core id).chStaged.filter fun x => x.1 = ch
  (all.foldl (fun l x => insertIssue x l) []).map fun x => x.2.2
/-- The QUEUE channels that a region's commit would overfill (R201, R288). -/
def State.commitFull (s : State) (ctx : Nat) : List Nat :=
  (s.channels ctx).filterMap fun p =>
    let n := (s.stagedFor ctx p.1).length
    if p.2.wnode = (s.region ctx).node ∧ p.2.kind = 1 ∧ 0 < n ∧ p.2.cap < p.2.vals.length + n then some p.1 else none
/-- A region's commit is due and waits on a full QUEUE. -/
def State.commitWaits (s : State) (ctx : Nat) : List Nat :=
  let r := s.region ctx
  match r.commitDue with
  | some c => if c ≤ r.cyc then s.commitFull ctx else []
  | none => []
/-- Region x's commit waits on a full QUEUE that the region of context ctx reads: no start of that region waits for it (R288). -/
def State.waitsOnReader (s : State) (ctx x : Nat) : Bool :=
  (s.commitWaits x).any fun q => (s.channels ctx).any fun z => z.1 = q && z.2.rnode = (s.region ctx).node
/-- DTIME of the next cycle, as its slew stands (R25, R352). -/
def State.nextDtime (s : State) : Nat := (s.dtAcc + (Config.dtUnit + s.slew).toNat) / Config.dtUnit
/-- The writer of a channel in its graph, where its region runs now. -/
def State.writerCtx (s : State) (ctx : Nat) (k : Chan) : Option Nat :=
  ((s.graphs.find? fun g => g.gid = (s.region ctx).gid).bind fun g => g.nodes[k.wnode]?).bind fun n =>
    match n.st with | .running c => some c | _ => none
/-- The tick that a start in this cycle would have: its logical time and the index of the timer's next due time; nothing where the
base clock has no tick now (R26, R286). -/
def State.tick (s : State) (ctx : Nat) : Option (Nat × Nat) :=
  let r := s.region ctx
  if r.clkSrc = 3 then
    if r.period = 0 ∨ s.dtime < r.d0 + r.period * r.nextDue then none
    else let i := (s.dtime - r.d0) / r.period; some (r.d0 + r.period * i, i + 1)
  else if r.clkSrc = 2 then
    match (s.chan ctx r.clkCh).bind fun k => k.vals.find? fun v => r.seen < v.t + 1 with
    | some v => some (max (v.t + 1) (if r.instant = 0 then 0 else r.ltime + 1), r.nextDue)
    | none => none
  else some (s.dtime, r.nextDue)
/-- CYC counts in this phase: the region runs, stops, handles a fault or waits to go on (R25, R304, R312). -/
def RPhase.counts : RPhase → Bool
  | .none => false
  | .loading => false
  | .run => true
  | .stopping => true
  | .handler _ => true
  | .restoring _ => true
  | .resuming _ => true
  | .saving => false
  | .out => false
  | .killed => false
  | .drained => false
/-- The region has launched, and is neither swapped out nor killed (R289). -/
def RPhase.inPlay : RPhase → Bool
  | .run => true
  | .stopping => true
  | .handler _ => true
  | .restoring _ => true
  | .resuming _ => true
  | _ => false
/-- The logical time of the earliest instant of region w that has not committed: of the one that runs, of the one whose tick has come, or of
the one that its base clock gives it next. Of a channel-clocked region whose clock has no new value, that follows the writer of the
clock; a free-running one may start from this cycle on, if its turn is still to come, and else from the next. Regions that skip names wait for the asking region ctx
itself; a region whose groups have all ended has none (R286, R287, R289, R340). The chain of clocks is as long as there are regions. -/
def State.pendingTime (s : State) (skip : Nat → Bool) (ctx : Nat) : Nat → Nat → Option Nat
  | 0, _ => none
  | n + 1, w =>
    let r := s.region w
    if !r.phase.inPlay || (s.live r).isEmpty then none
    else if !r.between then (if skip w then none else some r.ltime)
    else if r.clkSrc = 2 then
      match s.tick w with
      | some p => some p.1
      | none => (((s.chan w r.clkCh).bind (s.writerCtx w)).bind (s.pendingTime skip ctx n)).map fun t => max (t + 1) (r.ltime + 1)
    else if r.clkSrc = 3 then (if r.period = 0 then none else some (((s.tick w).map Prod.fst).getD (r.d0 + r.period * r.nextDue)))
    else some (if s.todo.contains (.region w) then s.dtime else s.nextDtime)
/-- A region has, or will have, an uncommitted instant with a logical time before (t, c) (R287). -/
def State.openBefore (s : State) (skip : Nat → Bool) (w : Nat) (t c : Nat) : Bool :=
  (s.pendingTime skip c (s.regions.length + 1) w).any fun p => decide (p < t) || (p = t && decide (w < c))
/-- The logical time of the next instant, as far as its base clock gives it now (R164, R286). Of a channel-clocked region whose clock has no
new value, the least that it can be (R165; the model's choice; assumptions 65). -/
def State.nextTime (s : State) (ctx : Nat) : Nat :=
  let r := s.region ctx
  match s.tick ctx with
  | some p => p.1
  | none => if r.clkSrc = 3 then r.d0 + r.period * r.nextDue else r.ltime + 1
/-- QWAIT's condition: the channel's writer has no instant left to commit before the next start, whose logical time is known, or one for
which that start does not wait (R164, R286 to R288). -/
def State.qwaitMet (s : State) (ctx ch : Nat) : Bool :=
  match s.chan ctx ch with
  | none => true
  | some k => match s.writerCtx ctx k with
    | none => true
    | some w => (s.live (s.region w)).isEmpty ||
        (((s.region ctx).clkSrc ≠ 2 || (s.tick ctx).isSome) && !s.openBefore (s.waitsOnReader ctx) w (s.nextTime ctx) ctx)
/-- QWAIT (R164). R147 gives the ILLEGAL of a channel that the region does not define no place: it stands after CLOCK, TIMING and UECC (the
model's choice; assumptions 66). -/
def planQwait (a : BitVec 6) (l : BitVec 5) (s : State) : Plan :=
  let ch := fld (s.val a.toNat).toNat 0 8
  if !steer (s.tag a.toNat) then s.trap CLOCK
  else s.notTimed <|
    if s.bad a.toNat then s.trap UECC
    else if !s.readsCh ch then s.trap ILLEGAL
    else startWait s (s.qwaitMet s.ctx ch) (.qwait ch) (some l.toNat) (if s.qwaitMet s.ctx ch then [.reg s.ctx (.qwaited ch)] else [])

-- The meanings: one for each instruction of this file.
/-- QWAIT (R164). -/
def execQwait (a : BitVec 6) (l : BitVec 5) (s : State) : Host.Outcome State Fault Refusal := resolve s (planQwait a l s)
/-- LSEND (R199). -/
def execLsend (r : BitVec 2) (a : BitVec 6) (s : State) : Host.Outcome State Fault Refusal := resolve s (planLsend r a s)
/-- LRECV (R199). -/
def execLrecv (r : BitVec 2) (d : BitVec 6) (s : State) : Host.Outcome State Fault Refusal := resolve s (planLrecv r d s)
/-- BAR (R200). -/
def execBar (b : BitVec 3) (s : State) : Host.Outcome State Fault Refusal := resolve s (planBar b s)
/-- BARW (R200). -/
def execBarw (b : BitVec 3) (l : BitVec 5) (s : State) : Host.Outcome State Fault Refusal := resolve s (planBarw b l s)
/-- CHWR (R201). -/
def execChwr (c : BitVec 8) (a : BitVec 6) (s : State) : Host.Outcome State Fault Refusal := resolve s (planChwr c a s)
/-- CHRD (R202). -/
def execChrd (c : BitVec 8) (d : BitVec 6) (k : BitVec 4) (s : State) : Host.Outcome State Fault Refusal := resolve s (planChrd c d k s)
/-- CHPOP (R202). -/
def execChpop (c : BitVec 8) (s : State) : Host.Outcome State Fault Refusal := resolve s (planChpop c s)
/-- NODEQ (R203). -/
def execNodeq (a : BitVec 6) (s : State) : Host.Outcome State Fault Refusal := resolve s (planNodeq a s)
/-- GLNCH (R203). -/
def execGlnch (a : BitVec 6) (s : State) : Host.Outcome State Fault Refusal := resolve s (planGlnch a s)

end Sys2Proof.Machine
end

