-- ==== Sys2Proof/Machine/Firmware.lean ====
section
/-! DEFINITION. The Ululin firmware: graphs, readiness, placement, launch, completion (R263 to R285, R290, R296, R318, R325). -/

namespace Sys2Proof.Machine

/-! ## A handle's memory -/

/-- The physical key of a virtual address in a handle's address space (R229, R263). -/
def State.hkey (s : State) (h va : Nat) : Option Nat :=
  if 2 ^ 52 ≤ va then none
  else (s.walkFrom va 3 (SMap.get {} s.handles h).root).map fun p =>
    memKey (pteTier p.1) (pteFrame p.1 + va % pageSize p.2)
/-- n bytes of a handle's memory, or nothing where one is not mapped or lies in a poisoned block (R228; assumptions 48). -/
def State.hread (s : State) (h va : Nat) : Nat → Option Nat
  | 0 => some 0
  | n + 1 => match s.hkey h va, s.hread h (va + 1) n with
    | some k, some v => if s.memErr k then none else some ((s.byte k).toNat + 256 * v)
    | _, _ => none
/-- Write n bytes of a value into a handle's memory; a byte that is not mapped is dropped. -/
def State.hwrite (s : State) (h va n v : Nat) : List Act :=
  memWrite (((List.range n).zip (bytesOf v n)).filterMap fun p => (s.hkey h (va + p.1)).map fun k => (k, p.2)) false

/-! ## Graph records (R263, R266, R267) -/

/-- A node record's fields in the firmware's copy. -/
def nodeOf (rec v : Nat) (succs : List Nat) (image : Nat) : Node :=
  { recp := rec, image := image, kptr := fld v 0 64, w := fld v 64 8, h := fld v 72 8, dies := fld v 80 3, pred := fld v 88 16
    succs := succs, argp := fld v 192 64, quota := fld v 256 64, release := fld v 320 64, clkSrc := fld v 384 2
    clkCh := fld v 386 8, period := fld v 416 32, prio := fld v 448 3, fidmax := fld v 452 2, policy := fld v 454 2
    rst := fld v 456 1 = 1, count := fld v 88 16, st := .waiting, requeued := false, energy := 0, exh := false, esat := false
    swapped := 0, zeroAt := 0 }
/-- A channel table entry. -/
def chanOf (v : Nat) : Chan := { kind := fld v 0 8, cap := fld v 32 16, wnode := fld v 64 16, rnode := fld v 80 16, vals := [] }
/-- The reserved fields of a header, a node record and a channel entry read 0 (R263, R265 to R267). -/
def headerClear (v : Nat) : Bool := fld v 272 240 = 0
def recordClear (v : Nat) : Bool :=
  fld v 83 5 = 0 && fld v 120 8 = 0 && fld v 394 22 = 0 && fld v 451 1 = 0 && fld v 457 7 = 0 && fld v 496 16 = 0
def chanClear (v : Nat) : Bool := fld v 8 24 = 0 && fld v 48 16 = 0 && fld v 96 32 = 0
/-- Read a list of n entries of some bytes from a handle's memory. -/
def State.hlist (s : State) (h va bytes : Nat) : Nat → Option (List Nat)
  | 0 => some []
  | n + 1 => match s.hread h va bytes, s.hlist h (va + bytes) bytes n with
    | some x, some l => some (x :: l)
    | _, _ => none
/-- The firmware's copy of a submitted graph; nothing where its header cannot be read, and no node where a part of it cannot
be read or a reserved bit is set. -/
def State.readGraph (s : State) (h va gid : Nat) : Option Graph :=
  (s.hread h va 64).map fun v =>
    let nn := fld v 208 16
    let nc := fld v 224 16
    let parts := do
      let recs ← s.hlist h (fld v 0 64) 64 nn
      let chans ← s.hlist h (fld v 64 64) 16 nc
      let nodes ← ((List.range nn).zip recs).mapM fun (i, r) => do
        let ss ← s.hlist h (fld r 128 64) 2 (fld r 104 16)
        pure (nodeOf (fld v 0 64 + 64 * i) r ss r)
      if headerClear v ∧ recs.all recordClear ∧ chans.all chanClear then pure (nodes, chans.map chanOf) else none
    let hd := fld v 0 272
    match parts with
    | some (ns, cs) => ⟨gid, h, hd, fld v 192 16, fld v 128 64, fld v 240 8, fld v 256 16, false, ns, cs, 0⟩
    | none => ⟨gid, h, hd, fld v 192 16, fld v 128 64, fld v 240 8, fld v 256 16, false, [], [], 0⟩

/-! ## Load checks (R265, R272, R274, R290, R296, R370) -/

/-- The shape limits of R272. -/
def shapeOk (w h dies : Nat) : Bool :=
  let xb := 4 * ((w + 7) / 8)
  let yb := 4 * ((h + 7) / 8)
  decide (1 ≤ w ∧ 1 ≤ h) &&
    (if dies = 1 then decide (w ≤ 24 ∧ h ≤ 16)
     else if dies = 2 then decide (w - xb ≤ 24 ∧ xb ≤ 24 ∧ h ≤ 16)
     else if dies = 4 then decide (w - xb ≤ 24 ∧ xb ≤ 24 ∧ h - yb ≤ 16 ∧ yb ≤ 16) else false)
/-- The product of a kind's loop counts, if a level is marked so (R274). -/
def loopProduct (tab : List (Nat × Nat)) (kind : Nat) : Option Nat :=
  let l := tab.filter fun p => p.1 = kind
  if l.isEmpty then none else some (l.foldl (fun a p => a * p.2) 1)
/-- The 64 KiB pages that some bytes from an address lie in (R370, R377). -/
def pagesOf (va len : Nat) : List Nat := if len = 0 then [] else (List.range ((va + len - 1) / 65536 - va / 65536 + 1)).map (va / 65536 + ·)
/-- A tensor map of the kernel names a buffer: its GBASE or its SBASE lies in it (R48, R187, R370). -/
def Vof.names (v : Vof) (g : Nat × List Byte × Bool) : Bool :=
  v.tmaps.any fun t =>
    let m := t.2.foldr (fun b n => b.toNat + 256 * n) 0
    let inside := fun (a : Nat) => decide (g.1 ≤ a) && decide (a < g.1 + g.2.1.length)
    inside (fld m 0 64) || inside (fld m 256 64)
/-- The pages whose translations a launch of the kernel locks (R370). -/
def Vof.locks (v : Vof) : List Nat := ((v.globals.filter v.names).flatMap fun g => pagesOf g.1 g.2.1.length).eraseDups
/-- What the loader checks of an image, signature apart. -/
def Vof.ok (v : Vof) : Bool :=
  v.isaMajor = 1 && v.isaMinor = 0 && v.tmid = Config.tmid && shapeOk v.w v.h v.dies
    && decide (v.code.length ≤ Config.codeWords)
    && (v.tabMx.all fun t => decide (t.1 + t.2.length ≤ 256)) && (v.tabVx.all fun t => decide (t.1 + t.2.length ≤ 1024))
    && (v.tabCp.all fun t => decide (t.1 + t.2.length ≤ 256))
    && (v.fmt.all fun e => fld e.toNat 0 10 = 0)
    && (v.tmaps.all fun t => decide (256 * t.1 < 0x40000)) && (v.live.all fun l => decide (l.m.length ≤ 8))
    && (v.segs.all fun g => decide (1 ≤ g.2.2 ∧ g.2.2 ≤ 8) &&
          (match v.code[g.1]? with
           | some w => (match decode (w.toNat % 2 ^ 31) 0 with | .ok (.segb _ _) => true | _ => false)
           | none => false))
    && ((loopProduct v.loops 2).getD (v.w * v.h) = v.w * v.h) && ((loopProduct v.loops 3).getD v.dies = v.dies)
    && decide (v.locks.length ≤ Config.tlbLockMax)
/-- An image's signature verifies under a key of a handle that asks for one (R355). -/
def State.signedOk (s : State) (h : Nat) (v : Vof) : Bool :=
  let k := SMap.get {} s.handles h
  !k.signReq || v.signedBy.any k.keys.contains
/-- The image a node names, once the loader has read it (R265; assumptions 7). -/
def State.vofAt (s : State) (h kptr : Nat) : Option Vof := if 2 ^ 52 ≤ kptr then none else SMap.get none s.vofs (h * 2 ^ 52 + kptr)
/-- An image as the loader finds it in memory: the n-th that it reads. The layout of an image is not given, so every part is free, each
within the width of its field (R48 to R51, R355; assumptions 7). -/
def freeVof (n : Nat) : Vof :=
  let f := Config.freeImage n
  let list := fun {α : Type} (k : Nat) (g : Nat → α) => (List.range (f k 0 0)).map g
  let words := fun (k i : Nat) => (List.range (f k (i + 1) 0)).map fun j => BitVec.ofNat 32 (f k (i + 1) (j + 1))
  let bytes := fun (k i n : Nat) => (List.range n).map fun j => BitVec.ofNat 8 (f k (i + 1) (j + 3))
  { isaMajor := f 0 0 0, isaMinor := f 0 1 0, tmid := f 0 2 0, w := f 0 3 0, h := f 0 4 0, dies := f 0 5 0, fidmax := f 0 6 0 % 4
    rollback := f 0 7 0 % 2 = 1, clkSrc := 1 + f 0 8 0 % 3, clkCh := f 0 9 0 % 256, period := f 0 10 0 % 2 ^ 32
    loops := (List.range 6).map fun i => (f 1 i 0 % 4, f 1 i 1 % 2 ^ 32)
    segs := list 2 fun i => (f 2 (i + 1) 0, f 2 (i + 1) 1, f 2 (i + 1) 2)
    code := words 3 0, tabMx := list 4 fun i => (f 5 i 0, words 6 i), tabVx := list 7 fun i => (f 8 i 0, words 9 i)
    tabCp := list 10 fun i => (f 11 i 0, words 12 i), fmt := (List.range 16).map fun i => BitVec.ofNat 32 (f 13 i 0)
    tmaps := list 14 fun i => (f 15 i 0, bytes 16 i 256)
    live := list 17 fun i => ⟨BitVec.ofNat 64 (f 18 i 0), BitVec.ofNat 96 (f 18 i 1), BitVec.ofNat 8 (f 18 i 2),
      (List.range (f 18 i 3)).map fun j => (f 19 i (2 * j), f 19 i (2 * j + 1))⟩
    locals := list 20 fun i => (f 21 i 0, bytes 22 i (f 21 i 1))
    globals := list 23 fun i => (f 24 i 0, bytes 25 i (f 24 i 1), f 24 i 2 % 2 = 1)
    signedBy := list 26 fun i => f 26 (i + 1) 0 }

/-- A physical core is enabled in the fuse map. -/
def State.enabled (s : State) (p : Nat) : Bool := !SMap.get false s.fuse p
/-- The placements of a shape, in the loader's order (R272, R273). -/
def placements (w h dies : Nat) : List (Nat × Nat) :=
  let xb := 4 * ((w + 7) / 8)
  let yb := 4 * ((h + 7) / 8)
  let all := (List.range 2).flatMap fun dy => (List.range 2).flatMap fun dx =>
    let ys := if dies = 4 then [16 - yb] else (List.range 4).map fun i => 16 * dy + 4 * i
    let xs := if dies = 1 then (List.range 6).map fun i => 24 * dx + 4 * i else [24 - xb]
    ys.flatMap fun y => xs.filterMap fun x =>
      let inX := if dies = 1 then x + w ≤ 24 * dx + 24 else dx = 0
      let inY := if dies = 4 then dy = 0 else y + h ≤ 16 * dy + 16
      if decide inX && decide inY then some (x, y) else none
  all
/-- The physical cores of a placement. -/
def placed (w h : Nat) (p : Nat × Nat) : List Nat :=
  (List.range h).flatMap fun y => (List.range w).map fun x => (p.2 + y) * Config.gridW + p.1 + x
/-- The usable placements of a shape (R273). -/
def State.usable (s : State) (w h dies : Nat) : List (Nat × Nat) :=
  (placements w h dies).filter fun p => (placed w h p).all fun q => decide (q < Config.gridW * Config.gridH) && s.enabled q
/-- A physical core is held by no region. -/
def State.coreFree (s : State) (q : Nat) : Bool := SMap.get 0 s.owner q = 0

/-- An edge path leads from a node to one of a list within n steps. -/
def reaches (g : List Node) (goal : Nat) : Nat → Nat → Bool
  | 0, _ => false
  | n + 1, v => match g[v]? with
    | some x => x.succs.any fun u => u = goal || reaches g goal n u
    | none => false
/-- Remove the nodes that no other node leads to, n times: what is left lies on a cycle (R265). -/
def peel (g : List Node) : Nat → List Nat → List Nat
  | 0, l => l
  | n + 1, l => peel g n (l.filter fun v => l.any fun u => ((g[u]?.map Node.succs).getD []).contains v)
/-- The firmware's check of a graph in full (R265). -/
def State.graphOk (s : State) (g : Graph) : Bool :=
  let nn := fld g.hdr 208 16
  let nc := fld g.hdr 224 16
  let virtual := fun (a : Nat) => decide (a < 2 ^ 52)
  fld g.hdr 248 8 = 1 && virtual (fld g.hdr 0 64) && virtual (fld g.hdr 64 64) && decide (g.vec < 64) && decide (nc ≤ 256) && decide (1 ≤ nn ∧ nn ≤ 4096) && g.nodes.length = nn
    && g.chans.length = nc && virtual g.wake && g.wake % 8 = 0 && fld g.hdr 0 64 % 64 = 0 && fld g.hdr 64 64 % 16 = 0
    && (nc ≠ 0 || fld g.hdr 64 64 = 0)
    && (g.chans.all fun c => decide (c.kind ≤ 1) && decide (c.wnode ≠ c.rnode) && decide (c.wnode < nn) && decide (c.rnode < nn)
          && (if c.kind = 0 then c.cap = 1 else decide (1 ≤ c.cap ∧ c.cap ≤ 256)))
    && (((List.range nn).zip g.nodes).all fun (i, x) =>
          decide (x.succs.length ≤ 4095) && (x.succs.all fun j => decide (j < nn)) && x.succs.eraseDups.length = x.succs.length
            && decide ((g.nodes.filter fun y => y.succs.contains i).length ≤ x.pred) && decide (x.policy ≠ 3)
            && (x.clkSrc ≠ 3 || decide (1024 ≤ x.period)) && (x.clkSrc ≠ 2 || decide (x.clkCh < nc)) && x.argp % 32 = 0
            && virtual x.argp && virtual (fld x.image 128 64) && virtual x.kptr
            && (match s.vofAt g.handle x.kptr with
                | some v => v.ok && s.signedOk g.handle v && v.w = x.w && v.h = x.h && v.dies = x.dies
                    && !(s.usable x.w x.h x.dies).isEmpty
                | none => false))
    && (peel g.nodes nn (List.range nn)).isEmpty

/-! ## Completion (R282 to R285) -/

/-- A completion word of a graph is written to WAKE, and its message falls due (R284, R285). -/
def completionWord (s : State) (g : Graph) (status : Nat) : List Act :=
  let m := SMap.get {} s.msi g.vec
  s.hwrite g.handle g.wake 8 (s.dtime / 1024 % 2 ^ 40 + status * 2 ^ 40 + g.no * 2 ^ 48) ++
    [.pkg (.msi g.vec (if m.open_ then { m with pending := m.pending + 1 }
       else if g.coal = 0 then { m with sent := m.sent + 1 }
       else { m with open_ := true, pending := 1, closeAt := s.dtime + g.coal * 1000 }))]
/-- Node i of a graph takes a state. -/
def Graph.setNode (g : Graph) (i : Nat) (x : Node) : Graph := { g with nodes := g.nodes.set i x }
/-- A node's count falls by 1 at a DTIME; one that cannot fall, or of a node that has launched, is ignored (R268). -/
def Node.less (dt : Nat) (x : Node) : Node := match x.st with
  | .waiting => { x with count := x.count - 1, zeroAt := if x.count = 1 then dt else x.zeroAt }
  | _ => x
def Node.canFall (x : Node) : Bool := match x.st with | .waiting => decide (0 < x.count) | _ => false
def Node.busy (x : Node) : Bool := match x.st with | .running _ => true | _ => false
/-- A node may still launch while its graph has no failure. -/
def Node.ahead (x : Node) : Bool := match x.st with | .waiting => true | .ready _ => true | .running _ => true | _ => false
/-- A node that has launched waits for a relaunch, after a re-queue (R283, R318). -/
def Node.again (x : Node) : Bool := x.requeued && (match x.st with | .ready _ => true | _ => false)
/-- A graph's nodes have all completed, or a node failed and none that has launched runs, waits swapped out or waits for its relaunch
(R283). -/
def Graph.over (g : Graph) : Bool :=
  g.checked && (if g.status = 0 then g.nodes.all fun x => !x.ahead else g.nodes.all fun x => !x.busy && x.swapped = 0 && !x.again)
/-- The images that only a graph of its handle names leave the loader, and what it knows of their buffers, as the graph goes (assumptions 7). -/
def dropImages (s : State) (g : Graph) : List Act :=
  let used := fun (k : Nat) => s.graphs.any fun x => x.gid ≠ g.gid && x.handle = g.handle && x.nodes.any fun n => n.kptr = k
  let gone := ((g.nodes.map Node.kptr).filter fun k => decide (k < 2 ^ 52) && !used k && (s.vofAt g.handle k).isSome).eraseDups
  let k := SMap.get {} s.handles g.handle
  gone.map (fun a => .pkg (.vof (g.handle * 2 ^ 52 + a) none)) ++
    if k.buffers.any (gone.contains ·.1) then [.pkg (.handle g.handle { k with buffers := k.buffers.filter fun b => !gone.contains b.1 })] else []
/-- A graph completes with a status: its word falls due, and the firmware drops it (R283). -/
def graphOver (s : State) (g : Graph) (status : Nat) : List Act :=
  completionWord s g status ++ dropImages s g ++ [.pkg (.graphs (s.graphs.filter fun x => x.gid ≠ g.gid))]
/-- Put a graph back, or end it (R283). -/
def graphPut (s : State) (g : Graph) : List Act := if g.over then graphOver s g g.status else [.pkg (.graph g)]
/-- Node i of graph g completes: with status 0 its successors' counts fall in list order; with another it fails and the graph
takes the status of the first node to fail (R282, R283). -/
def nodeDone (s : State) (gid i status : Nat) : List Act :=
  match s.graphs.find? fun g => g.gid = gid with
  | none => []
  | some g => match g.nodes[i]? with
    | none => []
    | some x =>
      if status = 0 then
        let g1 := x.succs.foldl (fun g j => match g.nodes[j]? with | some y => g.setNode j (y.less s.dtime) | none => g)
          (g.setNode i { x with st := .done, swapped := 0 })
        (x.succs.filterMap fun j => match g.nodes[j]? with
          | some y => if y.canFall then none else some (s.note 0 7 0 0 j)
          | none => none) ++ graphPut s g1
      else
        let g1 := g.setNode i { x with st := .failed, swapped := 0 }
        graphPut s { g1 with status := if g.status = 0 then status else g.status }
/-- The cores of a context are freed, its TLB entries go, its number and its node-owned pages are released (R230, R277, R282, R325). -/
def freeContext (s : State) (ctx : Nat) : List Act :=
  let r := s.region ctx
  ((s.owner.filter fun p => p.2 = ctx).map fun p => .pkg (.owner p.1 0)) ++
    (s.dieTlb.map fun p => .pkg (.dieTlb p.1 (p.2.filter fun e => e.ctx ≠ ctx))) ++
    startWalks s (s.walks.filter fun w => w.ctx ≠ ctx) ++ [.pkg (.dropCores ctx (r.w * r.h)),
     .pkg (.ctxBusy (s.ctxBusy.filter (· ≠ ctx))), .pkg (.nodePages (s.nodePages.filter fun p => p.2.2 ≠ ctx)), .reg ctx (.put {})]

/-- A node that has run goes back to the ready list with count 0, its energy and flags kept (R318); one that is exhausted completes with
status FAULT instead (R340), and one whose handle is closing with KILLED (R349). -/
def requeueNode (s : State) (r : Region) : List Act :=
  match s.graphs.find? fun g => g.gid = r.gid with
  | none => []
  | some g => match g.nodes[r.node]? with
    | none => []
    | some x =>
      if r.exh then nodeDone s r.gid r.node 1
      else if (SMap.get {} s.handles r.handle).closing then nodeDone s r.gid r.node 2
      else graphPut s (g.setNode r.node { x with st := .ready s.dtime, count := 0, requeued := true, energy := r.energy, esat := r.esat, exh := r.exh
                                                 swapped := 0 })
/-- A handle's page, memory and commands are free again (R349). -/
def freeHandle (s : State) (h : Nat) : List Act :=
  [.pkg (.handle h {}), .pkg (.memOwner (s.memOwner.filter fun p => p.1 ≠ h)),
   .pkg (.agenda (s.agenda.filter fun e => match e.2 with | .hcmd a _ _ => a ≠ h | .hcmdEnd a _ _ _ => a ≠ h | _ => true))]
/-- The rest of a handle's close is still to come: Dusk holds it, or has ended and is applying what it held (R358). -/
def State.closePending (s : State) (h : Nat) : Bool :=
  (s.heldWork.any fun p => match p.2 with | .hopen a _ => a = h | _ => false) ||
    s.agenda.any fun e => match e.2 with | .ev _ (.hopen a _) => a = h | _ => false
/-- A handle that is closing and has no context left but the acting one is free, unless the rest of its close is still to come (R349,
R358). -/
def closeHandle (s : State) (h : Nat) : List Act :=
  if (SMap.get {} s.handles h).closing && !s.closePending h && !(s.regions.any fun p => p.2.handle = h && p.2.phase ≠ .none && p.1 ≠ s.ctx)
  then freeHandle s h else []
/-- A handle has a graph that is not complete. -/
def State.handleBusy (s : State) (h : Nat) : Bool := s.graphs.any fun g => g.handle = h
/-- Work that arrives during Dusk is held in order (R358). -/
def orHeld (s : State) (core : Nat) (i : Instr) (l : List Act) : List Act :=
  if s.dusk then [.pkg (.heldWork (s.heldWork ++ [(core, i)]))] else l

/-- SUBMIT's act, by the host or by a GLNCH at its release (R264): the firmware copies the records, and the check ends at a
cycle that is a free value; a graph past the 256th completes at once, FULL. One whose address is no virtual address or is not 64-byte
aligned is refused by its check (R263, R265). -/
def submitGraph (s : State) (h va : Nat) : List Act :=
  match s.readGraph h (va % 2 ^ 52) s.nextGid with
  | none => [s.note 0 8 0 0 va]
  | some g =>
    if Config.graphMax ≤ s.graphs.length then completionWord s g 5
    else
      let g := if va / 2 ^ 52 = 0 ∧ va % 64 = 0 then g else { g with nodes := [] }
      [.pkg (.graphs (s.graphs ++ [g])), .pkg (.nextGid (s.nextGid + 1)),
       .pkg (.later (s.now + 1 + s.free 0 0) (.ev 0 .graphCheck)), .pkg (.takeFree 1)]
/-- A record's count falls by 1: a NODEQ at its release, or a CPK's push (R195, R203, R268). Where several graphs of the handle name one
record, it falls in each of them (the model's choice; assumptions 73). -/
def nodePush (s : State) (h rec : Nat) : List Act :=
  let hits := s.graphs.filterMap fun g =>
    if g.handle = h then (g.nodes.findIdx? fun x => x.recp = rec).bind fun i => (g.nodes[i]?).map fun x => (g, i, x) else none
  if hits = [] then [s.note 0 7 0 0 rec]
  else hits.map fun p => if p.2.2.canFall then .pkg (.graph (p.1.setNode p.2.1 (p.2.2.less s.dtime))) else s.note 0 7 0 0 rec

/-- The loader reads the images of a graph that it has not read yet (R265; assumptions 7). -/
def loadImages (s : State) (g : Graph) : List Act :=
  let new := ((g.nodes.map Node.kptr).filter fun k => decide (k < 2 ^ 52) && (s.vofAt g.handle k).isNone).eraseDups
  if new = [] then []
  else (new.zip (List.range new.length)).map (fun p => .pkg (.vof (g.handle * 2 ^ 52 + p.1) (some (freeVof (s.freeCtr + p.2))))) ++
    [.pkg (.takeFree new.length)]
/-- GRAPH_CHECK (R265): the oldest graph that is not checked is refused, or its nodes become eligible. -/
def evGraphCheck (s : State) : List Act :=
  orHeld s s.cur .graphCheck <|
  match s.graphs.find? fun g => !g.checked with
  | none => []
  | some g =>
    let a := loadImages s g
    let s1 := s.applyAll a
    a ++ if s1.graphOk g then [.pkg (.graph { g with checked := true })] else graphOver s1 g 3
/-- A node becomes ready when its count is 0 and its RELEASE is reached; one that waits for time alone, at the slot boundary of
1,024 ns that follows its RELEASE (R269). -/
def Node.eligible (x : Node) (dt : Nat) : Bool :=
  match x.st with
  | .waiting => x.count = 0 && decide (x.release ≤ dt) && (decide (x.release ≤ dt / 1024 * 1024) || decide (x.release ≤ x.zeroAt))
  | _ => false
/-- NODE_READY (R269, R270). -/
def evNodeReady (gid node : Nat) (s : State) : List Act :=
  orHeld s s.cur (.nodeReady gid node) <|
  match s.graphs.find? fun g => g.gid = gid with
  | some g => match g.nodes[node]? with
    | some x => if g.checked ∧ g.status = 0 ∧ x.eligible s.dtime then [.pkg (.graph (g.setNode node { x with st := .ready s.dtime }))] else []
    | none => []
  | none => []
/-- NODE_COMPLETION (R282): the acting region's cores have all ended and its writes are visible; a handle that was closing is free after
its last context (R349). -/
def evNodeCompletion (s : State) : List Act :=
  orHeld s s.cur .nodeCompletion <|
  let r := s.rr
  nodeDone s r.gid r.node 0 ++ freeContext s s.ctx ++ closeHandle s r.handle
/-- COALESCING_WINDOW_CLOSE (R285): the window of each vector that is due closes with one message. -/
def evCoalescingWindowClose (s : State) : List Act :=
  s.msi.filterMap fun p =>
    if p.2.open_ && decide (p.2.closeAt ≤ s.dtime) then
      some (.pkg (.msi p.1 { p.2 with open_ := false, pending := 0, sent := p.2.sent + 1 })) else none
/-- STAMP_GLOBALLY_VISIBLE (R195, R268): a push to a node record of a handle. -/
def evStampGloballyVisible (h nodeRec : Nat) (s : State) : List Act :=
  orHeld s s.cur (.stampGloballyVisible (h, nodeRec)) (nodePush s h nodeRec)

/-! ## The tables of a handle's address space (R229, R230, R239, R350, R377) -/

/-- Entry i of a table of a level that maps what a larger leaf maps, with its attributes (R229, R230). -/
def subLeaf (p level i : Nat) : Nat :=
  fld p 0 39 + i * pageSize level / 4096 + fld p 39 11 * 2 ^ 39 + (level + 1) * 2 ^ 50 + fld p 52 12 * 2 ^ 52
/-- The tables on the way to a page, made where they are missing by taking 64 KiB tables, empty, from the firmware's allocator
(assumptions 11), or where their entry is poisoned, which counts as absent (assumptions 48); a larger leaf on the way
becomes a table of leaves that map the same. The acts, the entry's key and the allocator's new mark. A table that the acts make holds the leaves of up, or where up is 0 none. -/
def mapPath (s : State) (va stop : Nat) : Nat → Nat → Option Nat → Nat → List Act × Nat × Nat
  | 0, tab, _, next => ([], memKey 0 (tab + 8 * fld va 16 5), next)
  | l + 1, tab, up, next =>
    let idx := if l + 1 = 3 then fld va 39 13 else if l + 1 = 2 then fld va 30 9 else fld va 21 9
    let key := memKey 0 (tab + 8 * idx)
    if l + 1 ≤ stop then ([], key, next)
    else
      let p := match up with
        | none => if s.memErr key then 0 else s.bytesAt key 8
        | some q => if q = 0 then 0 else subLeaf q (l + 1) idx
      if pteV p && pteLeaf p = 0 then mapPath s va stop l (pteFrame p) none next
      else
        let q := if pteV p then p else 0
        let r := mapPath s va stop l next (some q) (next + 65536)
        let leaves := if q = 0 then [] else (List.range (if l = 0 then 32 else 512)).flatMap fun i =>
          ((List.range 8).zip (bytesOf (subLeaf q l i) 8)).map fun b => (memKey 0 (next + 8 * i + b.1), b.2)
        (.pkg (.memClear (memKey 0 next) 65536) :: memWrite leaves false ++
          memWrite (((List.range 8).zip (bytesOf (2 ^ 63 + next / 4096) 8)).map fun q => (key + q.1, q.2)) false ++ r.1, r.2.1, r.2.2)
/-- Map one page of a handle at a level with a leaf entry (R229, R239, R350). -/
def mapPage (s : State) (h va level pte : Nat) : List Act :=
  let r := mapPath s va level 3 (SMap.get {} s.handles h).root none s.hbmNext
  r.1 ++ memWrite (((List.range 8).zip (bytesOf pte 8)).map fun q => (r.2.1 + q.1, q.2)) false ++ [.pkg (.hbmNext r.2.2)]
/-- The entry of a level's table on the path to an address, or that of the larger leaf above it; 0 where there is none, or a poisoned one
(R229; assumptions 48). -/
def State.entryFrom (s : State) (va stop : Nat) : Nat → Nat → Nat
  | 0, tab => let key := memKey 0 (tab + 8 * fld va 16 5); if s.memErr key then 0 else s.bytesAt key 8
  | l + 1, tab =>
    let key := memKey 0 (tab + 8 * if l + 1 = 3 then fld va 39 13 else if l + 1 = 2 then fld va 30 9 else fld va 21 9)
    let p := if s.memErr key then 0 else s.bytesAt key 8
    if l + 1 ≤ stop ∨ !pteV p ∨ pteLeaf p ≠ 0 then p else s.entryFrom va stop l (pteFrame p)
/-- The page leaves every TLB of the handle's contexts (R239). -/
def invalidateActs (s : State) (h va : Nat) : List Act :=
  (s.regions.filter fun p => p.2.handle = h ∧ p.2.phase ≠ .none).map fun p => .pkg (.later (s.now + 1) (.ev (coreId p.1 0) (.tlbInvalidate p.1 va)))
/-- Memory that acts took from the allocator is the handle's (R350). -/
def ownActs (s : State) (h : Nat) (l : List Act) : List Act :=
  let s1 := s.applyAll l
  if s.hbmNext < s1.hbmNext then l ++ [.pkg (.memOwner ((h, memKey 0 s.hbmNext, s1.hbmNext - s.hbmNext) :: s1.memOwner))] else l
/-- A node-owned leaf (R230). -/
def pteNO (p : Nat) : Bool := fld p 60 1 = 1
/-- Physical bytes of a node-owned page that a context holds (R230, R325). -/
def State.nodeHeld (s : State) (key n : Nat) : Bool :=
  s.nodePages.any fun p => decide (p.1 < key + n) && decide (key < p.1 + p.2.1)
/-- The OWNER values that a leaf's SCOPE allows in a region (R230). -/
def ownerBound (r : Region) (p : Nat) : Nat :=
  if pteScope p ≤ 1 then r.w * r.h else if pteScope p = 3 then r.dies else 1
/-- The loader writes OWNER for the node-owned pages that it hands to a context: those of the handle's that no context holds. Which core,
cluster or die it names is a free value (R230; assumptions 63). -/
def takePages (h : Nat) (r : Region) : State → List Nat → List Act
  | _, [] => []
  | s, va :: l =>
    let a := match s.walkFrom va 3 (SMap.get {} s.handles h).root with
      | some (p, level) =>
        let key := memKey (pteTier p) (pteFrame p)
        if !pteNO p || s.nodeHeld key (pageSize level) then []
        else
          let leaf := fld p 0 39 + (s.free 0 (ownerBound r p) % 2 ^ 11) * 2 ^ 39 + fld p 50 14 * 2 ^ 50
          .pkg (.takeFree 1) :: mapPage s h va level leaf ++ invalidateActs s h va ++
            [.pkg (.nodePages ((key, pageSize level, r.ctx) :: s.nodePages))]
      | none => []
    a ++ takePages h r (s.applyAll a) l

/-! ## Locked pages (R239) -/

/-- A TLB entry of one of a handle's contexts that meets an address range. -/
def State.meets (s : State) (h lo n : Nat) (e : TlbEnt) : Bool :=
  (s.region e.ctx).handle = h && (s.region e.ctx).phase ≠ .none && decide (e.base < lo + n) && decide (lo < e.base + e.size)
/-- The cores of a handle's contexts, saved ones too. -/
def State.handleCores (s : State) (h : Nat) : List Core :=
  s.regions.flatMap fun p => if p.2.handle = h ∧ p.2.phase ≠ .none then p.2.images ++ p.2.ids.map s.core else []
/-- A context of the handle has a page of a range locked (R239). -/
def State.rangeLocked (s : State) (h lo n : Nat) : Bool := (s.handleCores h).any fun c => c.tlb.any fun e => e.locked && s.meets h lo n e

/-! ## What a launch loads (R275, R276, R370, R373, R374, R377) -/

/-- The leaf of a loader page (R373, R377). -/
def loaderPte (pa : Nat) (named cell : Bool) : Nat :=
  2 ^ 63 + 2 ^ 62 + (if named then 2 ^ 61 else 0) + (if cell then 2 ^ 59 + 2 * 2 ^ 56 else 4 * 2 ^ 56 + 2 ^ 54) + 2 ^ 50 + pa / 4096
/-- The loader's own leaf of a page, where one stands there (R377). -/
def State.loaderLeaf (s : State) (h page : Nat) : Option Nat :=
  match s.walkFrom (65536 * page) 3 (SMap.get {} s.handles h).root with
  | some (p, 0) => if p = loaderPte (pteFrame p) (pteTE p) (pteCA p) then some p else none
  | _ => none
/-- The list of node-owned pages as a leaf at an address gives way to leaves of a smaller size (R230). -/
def splitOwned (k : Handle) (va level : Nat) : Handle :=
  let size := pageSize level
  let base := va / size * size
  if k.owned.contains base then
    { k with owned := (k.owned.filter (· ≠ base)) ++ ((List.range (size / 65536)).map fun i => base + 65536 * i).filter (· ≠ va) }
  else k
/-- A page of a buffer is mapped, with the attributes of every buffer that lies in it (R370, R373, R377). An entry of the host's gives
way: the page is a new one, and what else a larger entry maps stays as it is (the model's choice; assumptions 7). -/
def loadPage (s : State) (h page : Nat) (named cell : Bool) : List Act :=
  let va := 65536 * page
  match s.loaderLeaf h page with
  | some p =>
    let new := loaderPte (pteFrame p) (named || pteTE p) (cell || pteCA p)
    if p = new then [] else mapPage s h va 0 new ++ invalidateActs s h va
  | none =>
    let pa := s.hbmNext
    .pkg (.hbmNext (pa + 65536)) :: mapPage { s with hbmNext := pa + 65536 } h va 0 (loaderPte pa named cell) ++
      match s.walkFrom va 3 (SMap.get {} s.handles h).root with
      | some p => .pkg (.handle h (splitOwned (SMap.get {} s.handles h) va p.2)) :: invalidateActs s h va
      | none => []
def loadPages (h : Nat) (named cell : Bool) : State → List Nat → List Act
  | _, [] => []
  | s, k :: ks => let a := loadPage s h k named cell; a ++ loadPages h named cell (s.applyAll a) ks
/-- A global buffer of an image is mapped and its bytes are written, once; a page of it that the host has taken away since is placed
anew, with its bytes (R275, R370, R377; assumptions 7). -/
def loadBuffer (s : State) (h kptr : Nat) (v : Vof) (g : Nat × List Byte × Bool) : List Act :=
  let pages := pagesOf g.1 g.2.1.length
  let first := !(SMap.get {} s.handles h).buffers.contains (kptr, g.1)
  let lost := if first then pages else pages.filter fun k => (s.loaderLeaf h k).isNone
  let a := loadPages h (v.names g) g.2.2 s pages
  let s1 := s.applyAll a
  let k := SMap.get {} s1.handles h
  if lost = [] then a
  else
    a ++ memWrite (((List.range g.2.1.length).zip g.2.1).filterMap fun p =>
        if lost.contains ((g.1 + p.1) / 65536) then (s1.hkey h (g.1 + p.1)).map fun x => (x, p.2) else none) false ++
      if first then [.pkg (.handle h { k with buffers := (kptr, g.1) :: k.buffers })] else []
def loadGlobals (h kptr : Nat) (v : Vof) : State → List (Nat × List Byte × Bool) → List Act
  | _, [] => []
  | s, g :: l => let a := loadBuffer s h kptr v g; a ++ loadGlobals h kptr v (s.applyAll a) l
/-- The locked translations of the buffers that a tensor map names (R370). -/
def loadLocks (s : State) (ctx h : Nat) (v : Vof) : List TlbEnt :=
  v.locks.filterMap fun k =>
    (s.walkFrom (65536 * k) 3 (SMap.get {} s.handles h).root).map fun p =>
      ⟨65536 * k / pageSize p.2 * pageSize p.2, pageSize p.2, ctx, BitVec.ofNat 64 p.1, true⟩
/-- A word of the firmware that writes ERRINJ, TRAPST or TVEC, or that leads to another word than the next, whose place TRET takes: an
injection is asked for by TRAP 0xE010 alone (R374). -/
def tame (w : Word) : Word :=
  match decode (w.toNat % 2 ^ 31) 0 with
  | .ok (.csrw _ c) => if barred c then tretWord else w
  | .ok (.csrs _ c) => if barred c then tretWord else w
  | .ok (.csrc _ c) => if barred c then tretWord else w
  | .ok (.jmp _) => tretWord
  | .ok (.bnz _ _) => tretWord
  | .ok (.bz _ _) => tretWord
  | .ok (.call _) => tretWord
  | .ok .ret => tretWord
  | .ok (.nexts _ _ _) => tretWord
  | .ok (.loop _ _ _) => tretWord
  | .ok (.loops _ _ _) => tretWord
  | _ => w
where
  barred (c : BitVec 12) : Bool := c = 0x070 || c = 0x051 || c = 0x054
  tretWord : Word := BitVec.ofNat 32 (encode .tret + 2 ^ 31)
/-- The firmware's trap handler, placed at a word address: it answers TRAP 0xE010 by an injection (R374); the registers it uses, and what
it does on any other trap, are not given (assumptions 62). -/
def firmwareHandler (at_ : Nat) : List Word :=
  let other := BitVec.ofNat 13 (at_ + 11)
  ([.csrr 62 0x050, .shri 61 62 16, .movi 60 0xE010, .sub 61 61 60, .bnz 61 other, .andi 62 62 0xFF, .addi 62 62 (-0x15),
    .bnz 62 other, .movi 62 0x10, .csrw 62 0x070, .tret] : List Instr).map (fun i => BitVec.ofNat 32 (encode i + 2 ^ 31)) ++
    ((List.range 64).map fun n => tame (Config.handlerWord n)) ++ List.replicate 2 tame.tretWord
/-- The control-stream memory of an image (R36). -/
def codeMap (l : List Word) : SMap Word := SMap.ofList 0 ((List.range l.length).zip l)
/-- Where the firmware's handler stands: behind the image's words, or at the end of the memory, where a core that runs the handler reads it
in place of the image's words (R36, R214, R374; assumptions 62). -/
def handlerAt (v : Vof) : Nat := min v.code.length (Config.codeWords - Config.handlerLen)
/-- The handler's words by address. -/
def handlerMap (v : Vof) : SMap Word :=
  let l := firmwareHandler (handlerAt v)
  SMap.ofList 0 (((List.range l.length).map (handlerAt v + ·)).zip l)
/-- Table words placed from a base on. -/
def tableActs (e : Nat) (l : List (Nat × List Word)) : List CAct :=
  l.flatMap fun t => ((List.range t.2.length).zip t.2).map fun p => .table e (t.1 + p.1) p.2
/-- The count of a loop level, 0 where the level is absent (R276). -/
def Vof.count (v : Vof) (l : Nat) : Nat := let p := v.loops.getD l (0, 0); if p.1 = 0 then 0 else p.2
/-- The first 160 bytes at ARGP, each with its error mark: zeros when ARGP is 0, and a byte that is not mapped reads 0 (R228, R276; the
model's choice; assumptions 7). -/
def argBytes (s : State) (h argp : Nat) : List (Byte × Bool) :=
  (List.range 160).map fun i => match (if argp = 0 then none else s.hkey h (argp + i)) with
    | some k => (s.byte k, s.memErr k)
    | none => (0, false)
/-- The launch block (R276). -/
def launchBytes (s : State) (g : Graph) (i : Nat) (x : Node) (v : Vof) (ctx : Nat) : List Byte :=
  let rec_ := x.image % 2 ^ 464 + i * 2 ^ 464 + g.no * 2 ^ 480 + x.image / 2 ^ 496 * 2 ^ 496
  bytesOf rec_ 64 ++ ((List.range 6).map fun l => bytesOf (v.count l) 4).flatten ++ bytesOf ctx 8 ++
    (argBytes s g.handle x.argp).map Prod.fst
/-- Words of the launch block whose argument bytes carry an error land so (R221, R228, R276). -/
def launchMarks (s : State) (g : Graph) (x : Node) : List CAct :=
  let l := argBytes s g.handle x.argp
  (List.range 20).filterMap fun w =>
    if ((l.drop (8 * w)).take 8).any Prod.snd then some (.spadBad (Config.launchBlock + 0x60 + 8 * w) 8 true) else none
/-- What a core of the region holds at the base cycle (R275, R374). -/
def loadActs (s : State) (g : Graph) (i : Nat) (x : Node) (v : Vof) (ctx : Nat) (locks : List TlbEnt) : List CAct :=
  [.clear] ++ tableActs 0 v.tabMx ++ tableActs 1 v.tabVx ++ tableActs 2 v.tabCp ++
    (((List.range v.fmt.length).zip v.fmt).map fun p => .fmt p.1 p.2) ++
    v.locals.map (fun l => .spad l.1 l.2) ++ v.tmaps.map (fun t => .spad (256 * t.1) t.2) ++
    [.spad Config.launchBlock (launchBytes s g i x v ctx)] ++ launchMarks s g x ++ [.tlb locks, .csr 0x054 (BitVec.ofNat 64 (handlerAt v))]
/-- A launch would change a leaf that a context of the handle has locked: it waits (R230, R239, R377). -/
def State.loadWaits (s : State) (h : Nat) (v : Vof) : Bool :=
  let root := (SMap.get {} s.handles h).root
  let locked := fun (va : Nat) => match s.walkFrom va 3 root with
    | some p => s.rangeLocked h (va / pageSize p.2 * pageSize p.2) (pageSize p.2)
    | none => false
  ((s.handleCores h).any fun c => c.tlb.any TlbEnt.locked) && ((v.globals.any fun g => (Sys2Proof.Machine.pagesOf g.1 g.2.1.length).any fun k => locked (65536 * k) && loadPage s h k (v.names g) g.2.2 ≠ []) ||
    (SMap.get {} s.handles h).owned.any fun va => match s.walkFrom va 3 root with
      | some p => pteNO p.1 && !s.nodeHeld (memKey (pteTier p.1) (pteFrame p.1)) (pageSize p.2) && locked va
      | none => false)
/-- A context number is free (R277). -/
def State.ctxLeft (s : State) : Bool := decide (s.ctxBusy.length < 65535)
/-- A free context number, from the next one on; numbers run from 1 (R277; assumptions 6). -/
def State.freshCtx (s : State) : Nat :=
  ((List.range 65535).find? fun i => !s.ctxBusy.contains ((s.nextCtx + i - 1) % 65535 + 1)).elim s.nextCtx
    fun i => (s.nextCtx + i - 1) % 65535 + 1

/-! ## The region scheduler (R270, R278 to R281) -/

/-- The ready list: graph, node, its place. Of a graph that has failed only nodes that have launched are on it (R283). -/
def readyList (s : State) : List (Nat × Nat × Node) :=
  let all := s.graphs.flatMap fun g =>
    if g.checked then ((List.range g.nodes.length).zip g.nodes).filterMap fun p => match p.2.st with
      | .ready _ => if g.status = 0 ∨ p.2.swapped ≠ 0 ∨ p.2.again then some (g.gid, p.1, p.2) else none
      | _ => none
    else []
  let time : Node → Nat := fun x => match x.st with | .ready t => t | _ => 0
  let before := fun (a b : Nat × Nat × Node) =>
    if a.2.2.prio ≠ b.2.2.prio then decide (b.2.2.prio < a.2.2.prio)
    else if time a.2.2 ≠ time b.2.2 then decide (time a.2.2 < time b.2.2)
    else if a.1 ≠ b.1 then decide (a.1 < b.1) else decide (a.2.1 < b.2.1)
  let rec put (a : Nat × Nat × Node) : List (Nat × Nat × Node) → List (Nat × Nat × Node)
    | [] => [a]
    | b :: l => if before a b then a :: b :: l else b :: put a l
  all.foldl (fun l a => put a l) []
/-- The step that launches an entry: a gang launch, or the resume of its swapped-out context. -/
def launchInstr (e : Nat × Nat × Node) : Nat × Instr :=
  if e.2.2.swapped ≠ 0 then (e.2.2.swapped * 2048, .preemptResume) else (0, .gangLaunch e.1 e.2.1)
/-- The kernel of an entry is there; its context is out where it resumes one, and else a context number is free and no lock stands against
its load (R239, R277). -/
def launchable (s : State) (e : Nat × Nat × Node) : Bool :=
  match s.graphs.find? fun g => g.gid = e.1 with
  | some g => match s.vofAt g.handle e.2.2.kptr with
    | some v => if e.2.2.swapped ≠ 0 then (s.region e.2.2.swapped).phase = .out else s.ctxLeft && !s.loadWaits g.handle v
    | none => false
  | none => false
/-- A region that holds its cores, whatever it does there, is an eligible victim of an entry; one that drains gives them up (R278, R279). -/
def victim (s : State) (prio ctx : Nat) : Bool :=
  let r := s.region ctx
  let x := (s.graphs.find? fun g => g.gid = r.gid).bind fun g => g.nodes[r.node]?
  (r.phase.inPlay || (match r.phase with | .loading => true | .saving => true | _ => false)) &&
    (match x with | some n => decide (n.prio < prio) || (n.prio = prio && r.quantExp) | none => false)
/-- The placement that the head reserves: the first usable one whose cores are free or held by eligible victims. -/
def reservation (s : State) (e : Nat × Nat × Node) : Option (Nat × Nat) :=
  (s.usable e.2.2.w e.2.2.h e.2.2.dies).find? fun p => (placed e.2.2.w e.2.2.h p).all fun q =>
    s.coreFree q || victim s e.2.2.prio (SMap.get 0 s.owner q)
/-- The first usable placement of a shape on free cores outside a list (R273). -/
def State.placeAt (s : State) (w h dies : Nat) (kept : List Nat) : Option (Nat × Nat) :=
  (s.usable w h dies).find? fun p => (placed w h p).all fun q => s.coreFree q && !kept.contains q
/-- The placement that the head of the ready list holds: none where it can launch on a free one; else a free one for which its launch
waits, the one reserved before for it, or a new one (R278). -/
def reservedAt (s : State) (e : Nat × Nat × Node) : Option (Nat × Nat) :=
  match s.placeAt e.2.2.w e.2.2.h e.2.2.dies [] with
  | some p => if launchable s e then none else some p
  | none => match s.reserved with
    | some (g, i, p) => if g = e.1 ∧ i = e.2.1 then some p else reservation s e
    | none => reservation s e
/-- The cores that the head of the ready list has reserved. -/
def reservedCores (s : State) (e : Nat × Nat × Node) : List Nat :=
  match reservedAt s e with
  | some p => placed e.2.2.w e.2.2.h p
  | none => []
/-- The placement at which node i of a graph launches or resumes: outside what the head of the ready list, unless it is that node, has
reserved (R273, R278, R281). -/
def State.placeFor (s : State) (gid i w h dies : Nat) : Option (Nat × Nat) :=
  s.placeAt w h dies (match readyList s with
    | e :: _ => if e.1 = gid ∧ e.2.1 = i then [] else reservedCores s e
    | [] => [])
/-- What the scheduler does in a cycle (R278): launch the head, or reserve for it and mark its victims, or launch a later entry
on cores outside the reservation, which the head keeps until it launches or is the head no more. -/
inductive SchedRes where
  | launch (core : Nat) (i : Instr)
  | marks (l : List Act)
  deriving DecidableEq, Repr
def reserveAct (s : State) (v : Option (Nat × Nat × Nat × Nat)) : List Act := if s.reserved = v then [] else [.pkg (.reserved v)]
def schedule (s : State) : SchedRes :=
  if s.dusk ∨ !s.booted then .marks []
  else match readyList s with
  | [] => .marks (reserveAct s none ++ (s.regions.filter fun p => p.2.swapPend).map fun p => .reg p.1 (.swapPend false))
  | e :: rest =>
    match (e :: rest).find? fun a => launchable s a && (s.placeFor a.1 a.2.1 a.2.2.w a.2.2.h a.2.2.dies).isSome with
    | some a => let l := launchInstr a; .launch l.1 l.2
    | none =>
      let want := ((reservedCores s e).map fun q => SMap.get 0 s.owner q).filter (· ≠ 0)
      .marks (reserveAct s ((reservedAt s e).map fun p => (e.1, e.2.1, p)) ++ s.regions.filterMap fun p =>
        let w := want.contains p.1
        if w = p.2.swapPend then none else some (.reg p.1 (.swapPend w)))

/-! ## Gang launch and re-queue (R273 to R277, R318) -/

/-- GANG_LAUNCH (R273, R275 to R277): the node's cores are taken, cleared and loaded; the base cycle, at which all of them reach
CYC 0, falls after a time that is a free value (R265). What a launch does once the allocator has used up the HBM is not given: it goes on
to addresses past the tier (R2; the model's choice; assumptions 11). -/
def evGangLaunch (gid node : Nat) (s : State) : List Act :=
  if !s.ctxLeft then []
  else match s.graphs.find? fun g => g.gid = gid with
  | none => []
  | some g => match g.nodes[node]? with
    | none => []
    | some x => match s.vofAt g.handle x.kptr, s.placeFor gid node x.w x.h x.dies with
      | some v, some (x0, y0) =>
        let ctx := s.freshCtx
        let r : Region :=
          { phase := .loading, ctx := ctx, gid := gid, node := node, handle := g.handle, w := x.w, h := x.h, dies := x.dies
            x0 := x0, y0 := y0, code := codeMap v.code, fw := handlerMap v, fwAt := handlerAt v, loopTab := v.loops, segs := v.segs, live := v.live
            tmaps := v.tmaps.map (256 * ·.1), fidmax := min v.fidmax x.fidmax
            rollback := if x.policy = 0 then v.rollback else x.policy = 2, rst := x.rst, requeued := x.requeued
            clkSrc := if x.clkSrc = 0 then v.clkSrc else x.clkSrc, clkCh := if x.clkSrc = 0 then v.clkCh else x.clkCh
            period := if x.clkSrc = 0 then v.period else x.period, d0 := x.release, energy := x.energy, esat := x.esat
            exh := x.exh, quota := x.quota }
        let ga := ownActs s g.handle (loadGlobals g.handle x.kptr v s v.globals)
        let s1 := s.applyAll ga
        let pa := takePages g.handle r s1 (SMap.get {} s1.handles g.handle).owned
        let s2 := s1.applyAll pa
        let area := s2.hbmNext
        let saves := area + (128 + 64 * x.w * x.h + 65535) / 65536 * 65536
        let locks := loadLocks s2 ctx g.handle v
        ga ++ pa ++ [.reg ctx (.put { r with treca := area, imageAt := saves, baseAt := s.now + 1 + s2.free 0 0 }),
          .pkg (.hbmNext (saves + (x.w * x.h * Config.saveMax + 65535) / 65536 * 65536)), .pkg (.takeFree 1),
          .pkg (.nextCtx (ctx % 65535 + 1)), .pkg (.ctxBusy (ctx :: s.ctxBusy)), .pkg (.graph (g.setNode node { x with st := .running ctx }))] ++
          ((placed x.w x.h (x0, y0)).map fun q => .pkg (.owner q ctx)) ++
          (r.ids.flatMap fun id => (loadActs s2 g node x v ctx locks).map (.core id))
      | _, _ => []
/-- NODE_REQUEUE (R318): the acting region's drained node returns to the ready list; a handle that was closing is free after its last
context (R349). -/
def evNodeRequeue (s : State) : List Act := requeueNode s s.rr ++ freeContext s s.ctx ++ closeHandle s s.rr.handle

-- The meanings: one for each instruction of this file.
/-- NODE_REQUEUE (R318). -/
def execNodeRequeue (s : State) : Host.Outcome State Fault Refusal := settle s (evNodeRequeue s)
/-- GRAPH_CHECK (R265). -/
def execGraphCheck (s : State) : Host.Outcome State Fault Refusal := settle s (evGraphCheck s)
/-- NODE_READY (R269). -/
def execNodeReady (gid : Nat) (node : Nat) (s : State) : Host.Outcome State Fault Refusal := settle s (evNodeReady gid node s)
/-- GANG_LAUNCH (R275). -/
def execGangLaunch (gid : Nat) (node : Nat) (s : State) : Host.Outcome State Fault Refusal := settle s (evGangLaunch gid node s)
/-- NODE_COMPLETION (R282). -/
def execNodeCompletion (s : State) : Host.Outcome State Fault Refusal := settle s (evNodeCompletion s)
/-- COALESCING_WINDOW_CLOSE (R285). -/
def execCoalescingWindowClose (s : State) : Host.Outcome State Fault Refusal := settle s (evCoalescingWindowClose s)
/-- STAMP_GLOBALLY_VISIBLE (R195). -/
def execStampGloballyVisible (nodeRec : Nat × Nat) (s : State) : Host.Outcome State Fault Refusal := settle s (evStampGloballyVisible nodeRec.1 nodeRec.2 s)

end Sys2Proof.Machine
end

