-- ==== Sys2Proof/Machine/Recovery.lean ====
section
/-! DEFINITION. Class 6 and recovery regions: opening, preserving, closing and restoring (R205 to R211, R224, R225, R313, R314). -/

namespace Sys2Proof.Machine

/-! ## Words -/

/-- The arena that an outermost RBEGIN may not use: past offset 0x4_FDFF, or over a tensor map of the image; an arena of no bytes
reaches and overlaps nothing (R224). -/
def arenaBarred (s : State) : Bool :=
  let a := s.cc.arena
  decide (0 < a.2) && (decide (Config.saveArea < a.1 + a.2) || s.rr.tmaps.any fun m => decide (m < a.1 + a.2 ∧ a.1 < m + 256))
/-- RBEGIN (R206): the core's arrival; it waits for the release of the rendezvous. -/
def planRbegin (l : BitVec 5) (s : State) : Plan :=
  s.notTimed <|
  if 4 ≤ s.cc.levels.length then s.trap RDEPTH
  else if s.cc.levels = [] ∧ arenaBarred s then s.trapAt SCOPE (spAddr s.cc.arena.1)
  else startWait s false (.rbegin true) (some l.toNat) []
/-- REND (R208). -/
def planRend (l : BitVec 5) (s : State) : Plan :=
  s.notTimed <| if s.cc.levels = [] then s.trap ILLEGAL else startWait s false (.rend true) (some l.toNat) []
/-- RABORT raises its event and the stream goes on (R209, R311; assumptions 15). -/
def planRabort (s : State) : Plan :=
  if s.cc.levels = [] then s.trap ILLEGAL
  else .acts [.reg s.ctx (.raise { s.fault SWTRAP with info := 0xFFFF })]
/-- RPOL (R210). -/
def planRpol (a : BitVec 6) (s : State) : Plan :=
  untagged s [a.toNat] (.acts [s.after 1 0 (.rpol s.cur (fld (s.val a.toNat).toNat 0 3))])
/-- SAFEPT (R211). Of two that a core issues in one instant the last one's descriptor stands (the model's choice; assumptions 68). -/
def planSafept (i : BitVec 8) (s : State) : Plan :=
  if s.rr.live.length ≤ i.toNat then s.trap ILLEGAL else s.notTimed (.acts [s.upd (.safept (some i.toNat))])

/-- A record's bytes in the arena: header and payload, rounded up (R224). -/
def recordSize (payload : Nat) : Nat := 64 + roundUp64 payload
def UndoRec.size (r : UndoRec) : Nat := recordSize r.len
/-- Item n of a kind (1 scalars, 2 tiles, 3 accumulators) is in a record (R225). -/
def UndoRec.holds (r : UndoRec) (kind n : Nat) : Bool :=
  r.kind = kind && (if kind = 3 then fld r.first n 1 = 1 else decide (r.first ≤ n ∧ n ≤ r.last))
/-- A core preserves item n of a kind at a level. -/
def Core.preserved (c : Core) (lv kind n : Nat) : Bool := c.undo.any fun r => r.level = lv && r.holds kind n
/-- The runs of consecutive numbers of a rising list: first and last of each. -/
def runsOf : List Nat → List (Nat × Nat)
  | [] => []
  | n :: l => match runsOf l with
    | (a, b) :: rs => if a = n + 1 then (n, b) :: rs else (n, n) :: (a, b) :: rs
    | [] => [(n, n)]
/-- The payload of a run of items (R225). -/
def tilePayload (c : Core) (t : Nat) : List Byte :=
  ((List.range 16).flatMap fun i => bytesOf (c.row t i).toNat 256) ++ bytesOf (c.side t).toNat 256 ++
    bytesOf ((c.ttag t).toNat + if c.tfull t then 16 else 0) 16
def accPayload (c : Core) (k : Nat) : List Byte :=
  (List.range 256).flatMap fun p =>
    let e := SMap.get {} c.accs (k * 256 + p)
    bytesOf (e.win.toNat + e.exp.toNat * 2 ^ 48 + e.spec.toNat * 2 ^ 58 + if p = 0 then (c.atag k).toNat * 2 ^ 60 else 0) 8
def payloadOf (c : Core) (kind : Nat) (items : List Nat) : List Byte :=
  items.flatMap fun n =>
    if kind = 1 then let r := c.reg n; bytesOf (r.val.toNat + r.tag.toNat * 2 ^ 64) 16
    else if kind = 2 then tilePayload c n else accPayload c n
def payloadLen (kind n : Nat) : Nat := n * (if kind = 1 then 16 else if kind = 2 then 4368 else 2048)
/-- Place the records of runs, one after another; the first that does not fit raises UNDOOVF (R207, R224, R309). -/
def placeRuns (s : State) (kind lv : Nat) : Nat → List (Nat × Nat) → List Act → Plan
  | _, [], acts => .acts acts
  | top, (a, b) :: rs, acts =>
    let c := s.cc
    let len := payloadLen kind (b - a + 1)
    let size := recordSize len
    if c.arena.2 < top + size then .trap { s.fault UNDOOVF with wobj := lv, wval1 := size, wval2 := c.arena.2 - top }
    else
      let first := if kind = 3 then (2 ^ (b - a + 1) - 1) * 2 ^ a else a
      let last := if kind = 3 then 0 else b
      let off := c.arena.1 + top
      let items := (List.range (b - a + 1)).map (a + ·)
      placeRuns s kind lv (top + size) rs (acts ++
        [s.upd (.spad off (undoHeader kind lv len first last s.cyc ++ payloadOf c kind items)), s.upd (.spadBad off size false),
         s.upd (.undoPush ⟨lv, kind, first, last, off, len⟩ (top + size))])
/-- RPRESV.S, .T and .C: the items not yet preserved at the innermost level are captured as they stand (R207). -/
def preserve (s : State) (kind : Nat) (items : List Nat) (bad : Nat → Bool) : Plan :=
  let c := s.cc
  let lv := c.levels.length
  let todo := items.filter fun n => !c.preserved lv kind n
  if lv = 0 then s.trap ILLEGAL
  else if todo.any bad then s.trap UECC
  else placeRuns s kind lv c.undoTop (runsOf todo) []
/-- The numbers from a to b. -/
def upto (a b : Nat) : List Nat := (List.range (b + 1 - a)).map (a + ·)
def planRpresvS (f l : BitVec 6) (s : State) : Plan :=
  preserve s 1 (upto f.toNat l.toNat) fun n => s.bad n
def planRpresvT (f l : BitVec 7) (s : State) : Plan :=
  preserve s 2 (upto f.toNat l.toNat) fun n => s.cc.tileErr n
def planRpresvC (m : BitVec 8) (s : State) : Plan :=
  preserve s 3 ((List.range 8).filter fun k => m.getLsbD k) fun k => s.cc.accErr k (List.range 256)
/-- RPRESV.M names a scratchpad range; each line is captured at its first write (R207). -/
def planRpresvM (a b : BitVec 6) (s : State) : Plan :=
  let c := s.cc
  let lv := c.levels.length
  let ad := s.val a.toNat
  let n := (s.val b.toNat).toNat
  let off := ad.toNat % 2 ^ 56
  if lv = 0 then s.trap ILLEGAL
  else if s.bad a.toNat ∨ s.bad b.toNat then s.trap UECC
  else if ad.toNat / 2 ^ 56 ≠ 0x80 ∨ Config.spadBytes ≤ off then s.trapAt SCOPE ad.toNat
  else if off % 64 ≠ 0 ∨ n % 64 ≠ 0 then s.trapAt ALIGN ad.toNat
  else if Config.spadBytes < off + n then s.trapAt SCOPE ad.toNat
  else if 8 ≤ (c.undo.filter fun r => r.kind = 4 ∧ r.level = lv).length then s.trap ILLEGAL
  else if c.arena.2 < c.undoTop + 64 then
    .trap { s.fault UNDOOVF with wobj := lv, wval1 := 64, wval2 := c.arena.2 - c.undoTop }
  else
    let at_ := c.arena.1 + c.undoTop
    .acts [s.upd (.spad at_ (undoHeader 4 lv 0 off n s.cyc)), s.upd (.spadBad at_ 64 false),
           s.upd (.undoPush ⟨lv, 4, off, n, at_, 0⟩ (c.undoTop + 64))]

/-! ## Opening and closing a level -/

/-- The open snapshot (R313). -/
def snapshotOf (r : Region) (c : Core) : Snapshot :=
  { sOpen := r.cyc - r.ibase, instant := r.instant, clocks := c.clocks, preds := c.preds, delays := c.delays, loops := c.loops
    tokens := c.tokens, bars := c.bars, btPhase := c.btPhase, safept := c.safept }
/-- The level an open adds: the word address after RBEGIN's bundle, which is the last that the core has issued, step counters, no
retries, the pending limit (R206). -/
def levelOf (r : Region) (c : Core) : Level :=
  { restart := c.issPc + bundleLen r.code c.issPc, stepMx := c.mx.step, stepVx := c.vx.step, stepCp := c.cp.step, top := c.undoTop, retries := 0
    limit := c.pendLimit, snap := snapshotOf r c }
/-- RECOVERY_REGION_OPEN (R206): every core goes one level deeper and issues its next bundle now. -/
def evRecoveryRegionOpen (s : State) : List Act :=
  let r := s.rr
  .reg s.ctx (.rdv none) :: (s.live r).flatMap fun id =>
    let c := s.core id
    [.core id (.levels (levelOf r c :: c.levels)), .core id (.waits (c.waits.filter fun w => w.kind ≠ .rbegin true)), .core id (.nextAt (max c.nextAt r.cyc))]

/-- Every item of a record is preserved by the enclosing level too (R208). -/
def duplicate (c : Core) (lv : Nat) (r : UndoRec) : Bool :=
  if r.kind = 1 ∨ r.kind = 2 then (upto r.first r.last).all fun n => c.preserved lv r.kind n
  else if r.kind = 3 then (List.range 8).all fun n => fld r.first n 1 = 0 || c.preserved lv 3 n
  else if r.kind = 5 then c.undo.any fun q => q.level = lv ∧ q.kind = 5 ∧ q.first = r.first
  else false
/-- What closing the innermost level does to a core's records and held stores (R208, R224). -/
def closeLevel (c : Core) : List CAct :=
  let n := c.levels.length
  let staged := c.staging.map fun e => if e.level = n then { e with level := n - 1 } else e
  if n ≤ 1 then [.undo [] 0, .staging staged, .levels []]
  else
    let keep := c.undo.filter fun r => !(r.level = n && duplicate c (n - 1) r)
    (keep.filterMap fun r => if r.level = n then some (.spad (r.off + 2) [BitVec.ofNat 8 (n - 1)]) else none) ++
      [.undo (keep.map fun r => if r.level = n then { r with level := n - 1 } else r) c.undoTop, .staging staged, .levels (c.levels.drop 1)]
/-- RECOVERY_REGION_CLOSE (R208): every core's innermost level closes and its next bundle issues now; a KEND goes on to its next
level, or to the end of the group (R77). -/
def evRecoveryRegionClose (s : State) : List Act :=
  let r := s.rr
  .reg s.ctx (.rdv none) :: (s.live r).flatMap fun id =>
    let c := s.core id
    (closeLevel c).map (.core id) ++
      if c.kendPend then
        let rest := c.waits.filter fun w => w.kind ≠ .rend true
        if 1 < c.levels.length then [.core id (.waits (rest ++ [⟨.rend true, r.cyc, none⟩]))]
        else [.core id (.waits rest), .core id (.kendPend false), .core id (.kend true), .core id (.arrived true 0)]
      else [.core id (.waits (c.waits.filter fun w => w.kind ≠ .rend true)), .core id (.nextAt (max c.nextAt r.cyc))]

/-! ## Restoring (R314) -/

/-- The updates that bring back one record's items, read from the arena as it stands. -/
def restoreRecord (c : Core) (r : UndoRec) : List CAct :=
  let at_ := r.off + 64
  if r.kind = 1 then
    (upto r.first r.last).map fun n =>
      let p := at_ + 16 * (n - r.first)
      .reg n (BitVec.ofNat 64 (c.spNat p 8)) (BitVec.ofNat 4 (c.spNat (p + 8) 1)) false
  else if r.kind = 2 then
    (upto r.first r.last).flatMap fun t =>
      let p := at_ + 4368 * (t - r.first)
      let st := c.spNat (p + 4352) 1
      ((List.range 16).map fun i => CAct.row t i (BitVec.ofNat 2048 (c.spNat (p + 256 * i) 256)) 0) ++
        [.side t (BitVec.ofNat 2048 (c.spNat (p + 4096) 256)) 0, .tileTag t (BitVec.ofNat 4 st), .tileFull t (fld st 4 1 = 1)]
  else if r.kind = 3 then
    let ks := (List.range 8).filter fun k => fld r.first k 1 = 1
    ((List.range ks.length).zip ks).flatMap fun q =>
      let p := at_ + 2048 * q.1
      ((List.range 256).map fun i =>
        let v := c.spNat (p + 8 * i) 8
        CAct.acc q.2 (i / 16) (i % 16) ⟨bits v 58 2, bits v 48 10, bits v 0 48, false⟩) ++ [.accTag q.2 (bits (c.spNat p 8) 60 4)]
  else if r.kind = 5 then
    [.spad r.first (bytesOf (c.spNat at_ 64) 64), .spadBad r.first 64 false]
  else []
/-- The open snapshot comes back. -/
def restoreSnapshot (c : Core) (p : Snapshot) : List CAct :=
  .clocksClear :: p.clocks.map (fun q => CAct.clock q.1 q.2) ++
    ((List.range 16).map fun n => CAct.pred n (SMap.get {} p.preds n)) ++
    ((List.range 16).flatMap fun x =>
      let d := SMap.get {} p.delays x
      CAct.delayInit x d.committed d.clk :: if d.has then [.delayStage x d.staged] else []) ++
    [.loops p.loops, .loopsOld p.loops] ++
    ((List.range 32).map fun t => CAct.token t (SMap.get 0 p.tokens t)) ++
    ((List.range 16).map fun b => CAct.bar b (SMap.get {} p.bars b)) ++
    ((List.range 8).map fun b => CAct.btPhase b (SMap.get false p.btPhase b)) ++ (if c.kendPend then [.kendPend false] else [])
/-- The records of a level, newest first. -/
def Core.recordsOf (c : Core) (lv : Nat) : List UndoRec := (c.undo.filter fun r => r.level = lv).reverse
/-- The bytes of a core's records at a level, headers included (R315). -/
def Core.recordBytes (c : Core) (lv : Nat) : Nat := ((c.recordsOf lv).map UndoRec.size).sum
/-- A record or line of a level carries an uncorrectable error: a restore that meets one leads to a warm reset (R315). -/
def Core.recordErr (c : Core) (lv : Nat) : Bool := (c.recordsOf lv).any fun r => c.spErr (r.off + 64) r.len
/-- The rollback of level n on one core (R314); base is the cycle at which it restarts. A safe point offered keeps its value where the level
opened in the instant that runs, inst; else the instant that the core returns to has the one it had at the open (R211). -/
def rollbackCore (c : Core) (n base inst : Nat) : List CAct :=
  match (c.levels.drop (c.levels.length - n)).head? with
  | none => []
  | some lv =>
    (c.recordsOf n).flatMap (restoreRecord c) ++ restoreSnapshot c lv.snap ++
      [.staging (c.staging.filter fun e => e.level < n), .eng 0 (c.mx.emptied lv.stepMx base), .eng 1 (c.vx.emptied lv.stepVx base),
       .eng 2 (c.cp.emptied lv.stepCp base), .inboxClear, .undo (c.undo.filter fun r => r.level < n) lv.top,
       .levels ({ lv with retries := lv.retries + 1 } :: c.levels.drop (c.levels.length - n + 1)),
       .pc lv.restart, .issPc lv.restart, .npc lv.restart 1, .nextAt base, .xfer 0, .held false, .trapped false, .waits [], .seg none, .segSaved none, .segBuf [],
       .arrived false 0, .kend false, .safept (if lv.snap.instant = inst then c.safept else lv.snap.safept)]

-- The meanings: one for each instruction of this file.
/-- RBEGIN (R206). -/
def execRbegin (l : BitVec 5) (s : State) : Host.Outcome State Fault Refusal := resolve s (planRbegin l s)
/-- RPRESV_S (R207). -/
def execRpresvS (f : BitVec 6) (l : BitVec 6) (s : State) : Host.Outcome State Fault Refusal := resolve s (planRpresvS f l s)
/-- RPRESV_T (R207). -/
def execRpresvT (f : BitVec 7) (l : BitVec 7) (s : State) : Host.Outcome State Fault Refusal := resolve s (planRpresvT f l s)
/-- RPRESV_M (R207). -/
def execRpresvM (a : BitVec 6) (b : BitVec 6) (s : State) : Host.Outcome State Fault Refusal := resolve s (planRpresvM a b s)
/-- RPRESV_C (R207). -/
def execRpresvC (m : BitVec 8) (s : State) : Host.Outcome State Fault Refusal := resolve s (planRpresvC m s)
/-- REND (R208). -/
def execRend (l : BitVec 5) (s : State) : Host.Outcome State Fault Refusal := resolve s (planRend l s)
/-- RABORT (R209). -/
def execRabort (s : State) : Host.Outcome State Fault Refusal := resolve s (planRabort s)
/-- RPOL (R210). -/
def execRpol (a : BitVec 6) (s : State) : Host.Outcome State Fault Refusal := resolve s (planRpol a s)
/-- SAFEPT (R211). -/
def execSafept (i : BitVec 8) (s : State) : Host.Outcome State Fault Refusal := resolve s (planSafept i s)
/-- RECOVERY_REGION_OPEN (R206). -/
def execRecoveryRegionOpen (s : State) : Host.Outcome State Fault Refusal := settle s (evRecoveryRegionOpen s)
/-- RECOVERY_REGION_CLOSE (R208). -/
def execRecoveryRegionClose (s : State) : Host.Outcome State Fault Refusal := settle s (evRecoveryRegionClose s)

end Sys2Proof.Machine
end

