-- ==== Sys2Proof/Machine/System.lean ====
section
/-! DEFINITION. Class 7 and the events of CSR writes: CSRs, traps and the return from them, privileged words (R204, R212 to R219,
R312, R337 to R340). -/

namespace Sys2Proof.Machine

/-! ## The CSR map (R215) -/

/-- A CSR whose every access needs system mode, or whose writes do (R204, R215). -/
def csrSystem (n : Nat) : Bool := decide (0x050 ≤ n ∧ n ≤ 0x054) || n = 0x070
def csrSystemWrite (n : Nat) : Bool := n = 0x034 || n = 0x036
/-- Bits of the RW fields of a CSR that the core holds; 0 where it has none. -/
def csrMask (n : Nat) : Nat :=
  if n = 0x010 then 0xF
  else if n = 0x011 then 7
  else if n = 0x013 then 3
  else if 0x014 ≤ n ∧ n ≤ 0x017 then 2 ^ 32 - 1
  else if n = 0x018 ∨ n = 0x01C then 0xFFFF
  else if 0x019 ≤ n ∧ n ≤ 0x01B then 2 ^ 64 - 1
  else if n = 0x024 then 2 ^ 19 - 1
  else if n = 0x051 then 2 ^ 64 - 1
  else if n = 0x052 ∨ n = 0x054 then 2 ^ 13 - 1
  else if n = 0x062 then (2 ^ 11 - 1) * 2 ^ 32 + (2 ^ 13 - 1) * 2 ^ 6
  else if n = 0x070 then 0xFF
  else 0
/-- The value a CSR reads at the acting core; nothing where the map does not list it. -/
def csrRead (s : State) (n : Nat) : Option DWord :=
  let c := s.cc
  let r := s.rr
  let w := fun (x : Nat) => some (BitVec.ofNat 64 x)
  if n = 0x000 then w r.cyc
  else if n = 0x001 then w r.ibase
  else if n = 0x002 then w r.instant
  else if n = 0x003 then w s.dtime
  else if n = 0x012 then w r.fidmax
  else if n = 0x020 then w (r.gx s.vidx)
  else if n = 0x021 then w (r.gy s.vidx)
  else if n = 0x022 then w (r.dieidx s.vidx)
  else if n = 0x023 then w (r.corenum s.vidx)
  else if n = 0x030 then w (if r.ps then 1 else 0)
  else if n = 0x031 then w (SMap.get {} s.clusters (r.cluster s.vidx)).thrrsn.toNat
  else if n = 0x032 then w (r.energy % 2 ^ 32)
  else if n = 0x033 then w c.enhi.toNat
  else if n = 0x034 then w r.quota
  else if n = 0x035 then w 0
  else if n = 0x036 then w r.quant
  else if n = 0x050 then some (c.csr n)
  else if n = 0x053 then w r.treca
  else if n = 0x060 then w c.levels.length
  else if n = 0x061 then w ((c.levels.head?.map fun l => l.limit * 16 + l.retries).getD 0)
  else if 0x100 ≤ n ∧ n ≤ 0x17F then w (SMap.get 0 c.hist (n - 0x100)).toNat
  else if csrMask n ≠ 0 then some (c.csr n)
  else none

/-- The accumulator's low half lands in d with tag k1 and its high half in ENHI (R339). -/
def enloActs (s : State) (d : Nat) : List CAct :=
  [.reg d (BitVec.ofNat 64 (s.rr.energy % 2 ^ 32)) 1 false, .enhi (BitVec.ofNat 32 (s.rr.energy / 2 ^ 32))]
/-- CSRR (R213). -/
def planCsrr (d : BitVec 6) (c : BitVec 12) (s : State) : Plan :=
  match csrRead s c.toNat with
  | none => s.trap ILLEGAL
  | some v =>
    if csrSystem c.toNat && s.cc.mode = .user then s.trap PRIV
    else .acts [s.lands 1 0 (if c = 0x032 then enloActs s d.toNat else [.reg d.toNat v 1 false])]
/-- CSRW, CSRS and CSRC (R213): kind 0, 1, 2. -/
def csrStore (s : State) (a c kind : Nat) : Plan :=
  match csrRead s c with
  | none => s.trap ILLEGAL
  | some _ =>
    if (csrSystem c || csrSystemWrite c) && s.cc.mode = .user then s.trap PRIV
    else untagged s [a] (.acts [s.after 1 0 (.csrWrite s.cur c kind (s.val a))])
def planCsrw (a : BitVec 6) (c : BitVec 12) (s : State) : Plan := csrStore s a.toNat c.toNat 0
def planCsrs (a : BitVec 6) (c : BitVec 12) (s : State) : Plan := csrStore s a.toNat c.toNat 1
def planCsrc (a : BitVec 6) (c : BitVec 12) (s : State) : Plan := csrStore s a.toNat c.toNat 2
/-- A field's new value: written, set or cleared under a mask (R6, R7, R213). -/
def fieldNew (old v mask : DWord) (kind : Nat) : DWord :=
  if kind = 0 then (old &&& ~~~mask) ||| (v &&& mask) else if kind = 1 then old ||| (v &&& mask) else old &&& ~~~(v &&& mask)
/-- A quota is written: a value above the accumulator clears the exhausted flag. An instant that waits starts at the first tick after the write,
and timer due times that it passes over are journaled; one that runs loses no tick (R286, R340). -/
def quotaActs (s : State) (ctx q : Nat) : List Act :=
  let r := s.region ctx
  let clears := decide (r.energy < q)
  .reg ctx (.quota q clears) ::
    if clears && r.exh && r.between then
      ((List.range (r.dueAfter s.dtime - r.nextDue)).map fun i => s.note (r.dieidx 0) 9 ctx 0 (r.d0 + r.period * (r.nextDue + i)))
    else []
/-- A CSR write lands at core id (R6, R7, R213, R215, R219, R330, R335, R337, R340). -/
def csrWriteActs (s : State) (id n kind : Nat) (v : DWord) : List Act :=
  let c := s.core id
  let ctx := id / 2048
  let r := s.region ctx
  if n = 0x031 then if kind = 0 then [.pkg (.thrClear (r.cluster (id % 2048)) (BitVec.ofNat 5 v.toNat))] else []
  else if n = 0x034 then quotaActs s ctx (fieldNew (BitVec.ofNat 64 r.quota) v (BitVec.allOnes 64) kind).toNat
  else if n = 0x035 then if kind = 0 then [.reg ctx .reaction] else []
  else if n = 0x036 then [.reg ctx (.quant (fieldNew (BitVec.ofNat 64 r.quant) v (BitVec.allOnes 64) kind).toNat)]
  else if csrMask n = 0 then []
  else
    let x := fieldNew (c.csr n) v (BitVec.ofNat 64 (csrMask n)) kind
    if n = 0x062 then
      if 0 < c.levels.length then []
      else [.core id (.csr n (BitVec.ofNat 64 (fld x.toNat 6 13 * 2 ^ 6 + min 1024 (fld x.toNat 32 11) * 2 ^ 32)))]
    else if n = 0x070 then if x = 0x10 ∨ x = 0x0F then [.core id (.csr n x)] else []
    else .core id (.csr n x) :: if n = 0x014 then [.core id (.errRem 0)] else []
/-- The events of R215's registers at the acting core, as each write lands. -/
def evThrrsn (v : DWord) (s : State) : List Act := csrWriteActs s s.cur 0x031 0 v
def evEnlo (d : Nat) (s : State) : List Act := (enloActs s d).map (.core s.cur)
def evPwrack (s : State) : List Act := csrWriteActs s s.cur 0x035 0 0
def evErrinj (v : DWord) (s : State) : List Act := csrWriteActs s s.cur 0x070 0 v
def evUndoa (v : DWord) (s : State) : List Act := csrWriteActs s s.cur 0x062 0 v
def evErrcnt (n : Nat) (v : DWord) (s : State) : List Act := csrWriteActs s s.cur (0x014 + n % 4) 0 v
/-- QUOTA is written in system mode, or by the host (R340). -/
def evQuota (v : DWord) (s : State) : List Act := csrWriteActs s s.cur 0x034 0 v
/-- FIDEL (R218). -/
def planFidel (n : BitVec 2) (s : State) : Plan := .acts [s.after 1 0 (.csrWrite s.cur 0x013 0 (n.setWidth 64))]
/-- CLKDIV: the divisor waits for the next instant start; it is a power reaction as it lands (R218, R335). -/
def planClkdiv (u : BitVec 2) (v : BitVec 3) (s : State) : Plan :=
  .acts [s.lands 1 0 [.divNext u.toNat (v.toNat + 1)], s.reacts]

/-! ## Traps and the return from them -/

/-- TRAP and BREAK (R214). -/
def planTrap (c : BitVec 16) (s : State) : Plan := .trap { s.fault SWTRAP with info := c.toNat, next := true }
def planBrk (c : BitVec 16) (s : State) : Plan := .trap { s.fault BREAKC with info := c.toNat, next := true }

/-- A wait as it goes on after a resume (R312): its expiry moves by d, and its arrival at a rendezvous is gone, for the freeze
cleared it (R302); only the unbounded REND of KEND arrives again (assumptions 37). -/
def resumedWait (d : Nat) (w : Wait) : Wait :=
  let w' := w.shift d
  match w.kind with
  | .rbegin _ => { w' with kind := .rbegin w'.due.isNone }
  | .rend _ => { w' with kind := .rend w'.due.isNone }
  | _ => w'
/-- An engine resumes its entry at its step, at v or when it can next dequeue (R173, R312). -/
def resumeEng (g : Engine) (v : Nat) : Engine :=
  { g with freeAt := max g.freeAt v, due := max g.due v, stopped := false, blocked := false, xm := []
           queue := g.queue.map fun q => { q with faulted := false } }
/-- What a resume at cycle v shifts on a core by d: segment, waits, engines, kept arrivals, the next issue (R312, R376). A core
stopped at a trapping bundle of its own resumes there, as every other core resumes at its PC. -/
def resumeCore (c : Core) (d v : Nat) : List CAct :=
  let moved := c.waits.map (resumedWait d)
  [.seg (c.seg.map fun g => { g with start := g.start + d }), .segSaved (c.segSaved.map fun g => { g with start := g.start + d }),
   .waits moved, .eng 0 (resumeEng c.mx v), .eng 1 (resumeEng c.vx v), .eng 2 (resumeEng c.cp v),
   .arrived c.arrived (if c.arrCyc = 0 then 0 else c.arrCyc + d), .trapped false, .nextAt (max (c.nextAt + d) v)]
/-- The region resumes 64 cycles after the handler ends, with the cores who (R312). -/
def resumeRegion (s : State) (who : List Nat) : List Act :=
  let v := s.cyc + Config.resyncMargin
  let d := v - s.rr.frz
  .reg s.ctx (.resume d v) :: who.flatMap fun id => (resumeCore (s.core id) d v).map (.core id)
/-- TRET (R217): outside the handler TRETX; a reserved bit of TRAPST BADSTAT; otherwise the mode becomes PMODE and the region
resumes, the core at TRAPPC or after its bundle, whatever loop the bundle ends. Where the waits of the interrupted stream go on, so does
the address of the bundle that began them (R214). -/
def planTret (s : State) : Plan :=
  let c := s.cc
  if !c.inHandler then s.trap TRETX
  else s.notTimed <|
    if (c.csr 0x051).toNat / 8 ≠ 0 then s.trap BADSTAT
    else
      let v := s.cyc + Config.resyncMargin
      let l := leaveHandler s.rr c
      let c' := l.foldl CAct.apply c
      let d := v - s.rr.frz
      .acts (resumeRegion s (s.live s.rr) ++ l.map s.upd ++
        [s.upd (.seg (c'.seg.map fun g => { g with start := g.start + d })), s.upd (.xfer 3),
         s.upd (.issPc (fld (c.csr 0x052).toNat 0 13))] ++
        if c'.pc = c.pcSaved ∧ fld (c.csr 0x051).toNat 2 1 = 0 then
          [s.upd (.issPc c.issSaved), s.upd (.waits (c.waitsSaved.map (resumedWait d))), s.upd (.npc c'.pc (max (c.nextSaved + d) v - s.cyc))]
        else [s.upd (.npc c'.pc (v - s.cyc))])

/-! ## Privileged words (R219) -/

/-- A word that only system mode may issue (R204). -/
def privileged (s : State) (p : Plan) : Plan := if s.cc.mode = .user then s.trap PRIV else p
/-- HALTG ends the group at once: its locks end and its engines run no further step; the handler's HALTG resumes the others (R219, R238,
R312). -/
def planHaltg (s : State) : Plan :=
  let c := s.cc
  privileged s <| s.notTimed <| .acts (
    (if c.inHandler then resumeRegion s ((s.live s.rr).filter (· ≠ s.cur)) else []) ++
    ([CAct.levels [], .undo [] 0, .staging [], .kend false, .ended true, .inHandler false, .arrived true (s.cyc + 1),
      .tlb (c.tlb.map fun e => { e with locked := false }), .eng 0 (c.mx.emptied c.mx.step s.cyc), .eng 1 (c.vx.emptied c.vx.step s.cyc),
      .eng 2 (c.cp.emptied c.cp.step s.cyc)].map s.upd))
/-- KILLC (R219, R325). -/
def planKillc (a : BitVec 6) (s : State) : Plan :=
  privileged s <| memIssue s [a.toNat] true fun _ => .acts [.reg (fld (s.val a.toNat).toNat 0 16) (.kill 2)]

/-- The pages of a range that the core TLB holds, in order, up to a count: the entries, and the first address that none covers. -/
def tlbPages (c : Core) (ctx stop : Nat) : Nat → Nat → List TlbEnt → List TlbEnt × Option Nat
  | 0, _, l => (l, none)
  | n + 1, va, l =>
    if stop ≤ va then (l, none)
    else match c.tlbHit ctx va with
      | none => (l, some va)
      | some e => tlbPages c ctx stop n (e.base + e.size) (l ++ [e])
/-- What TLBLK does on the translations as they stand: the locked TLB, the address it still waits for, or too many locks (R219). -/
inductive LockRes where
  | done (l : List TlbEnt)
  | walk (va : Nat)
  | full
  deriving DecidableEq, Repr
def tryLock (c : Core) (ctx lo len : Nat) : LockRes :=
  let p := tlbPages c ctx (lo + len) (Config.tlbLockMax + 1) lo []
  let l := c.tlb.map fun e => if p.1.contains e then { e with locked := true } else e
  if Config.tlbLockMax < (l.filter fun e => e.locked).length then .full
  else match p.2 with
    | some va => .walk va
    | none => .done l
/-- TLBLK (R219): with s(b) = 0 every lock ends; else the stream is held until the range's pages are in the TLB. -/
def planTlblk (a b : BitVec 6) (s : State) : Plan :=
  let lo := (s.val a.toNat).toNat
  let len := (s.val b.toNat).toNat
  privileged s <| memIssue s [a.toNat, b.toNat] true fun _ =>
    if len = 0 then .acts [s.upd (.tlb (s.cc.tlb.map fun e => { e with locked := false }))]
    else if 2 ^ 52 < lo + len then s.trapAt XLATE lo
    else match tryLock s.cc s.ctx lo len with
      | .done l => .acts [s.upd (.tlb l)]
      | .full => s.trapAt XLATE lo
      | .walk va => startWait s false (.tlblk lo len) none (s.walkReq va)

-- The meanings: one for each instruction of this file.
/-- CSRR (R213). -/
def execCsrr (d : BitVec 6) (c : BitVec 12) (s : State) : Host.Outcome State Fault Refusal := resolve s (planCsrr d c s)
/-- CSRW (R213). -/
def execCsrw (a : BitVec 6) (c : BitVec 12) (s : State) : Host.Outcome State Fault Refusal := resolve s (planCsrw a c s)
/-- CSRS (R213). -/
def execCsrs (a : BitVec 6) (c : BitVec 12) (s : State) : Host.Outcome State Fault Refusal := resolve s (planCsrs a c s)
/-- CSRC (R213). -/
def execCsrc (a : BitVec 6) (c : BitVec 12) (s : State) : Host.Outcome State Fault Refusal := resolve s (planCsrc a c s)
/-- TRAP (R214). -/
def execTrap (c : BitVec 16) (s : State) : Host.Outcome State Fault Refusal := resolve s (planTrap c s)
/-- TRET (R217). -/
def execTret (s : State) : Host.Outcome State Fault Refusal := resolve s (planTret s)
/-- BREAK (R214). -/
def execBrk (c : BitVec 16) (s : State) : Host.Outcome State Fault Refusal := resolve s (planBrk c s)
/-- FIDEL (R218). -/
def execFidel (n : BitVec 2) (s : State) : Host.Outcome State Fault Refusal := resolve s (planFidel n s)
/-- CLKDIV (R218). -/
def execClkdiv (u : BitVec 2) (v : BitVec 3) (s : State) : Host.Outcome State Fault Refusal := resolve s (planClkdiv u v s)
/-- HALTG (R219). -/
def execHaltg (s : State) : Host.Outcome State Fault Refusal := resolve s (planHaltg s)
/-- KILLC (R219). -/
def execKillc (a : BitVec 6) (s : State) : Host.Outcome State Fault Refusal := resolve s (planKillc a s)
/-- TLBLK (R219). -/
def execTlblk (a : BitVec 6) (b : BitVec 6) (s : State) : Host.Outcome State Fault Refusal := resolve s (planTlblk a b s)
/-- THRRSN (R337). -/
def execThrrsn (v : DWord) (s : State) : Host.Outcome State Fault Refusal := settle s (evThrrsn v s)
/-- ENLO (R339). -/
def execEnlo (d : Nat) (s : State) : Host.Outcome State Fault Refusal := settle s (evEnlo d s)
/-- PWRACK (R335). -/
def execPwrack (s : State) : Host.Outcome State Fault Refusal := settle s (evPwrack s)
/-- ERRINJ (R219). -/
def execErrinj (v : DWord) (s : State) : Host.Outcome State Fault Refusal := settle s (evErrinj v s)
/-- UNDOA (R215). -/
def execUndoa (v : DWord) (s : State) : Host.Outcome State Fault Refusal := settle s (evUndoa v s)
/-- ERRCNT (R330). -/
def execErrcnt (n : Nat) (v : DWord) (s : State) : Host.Outcome State Fault Refusal := settle s (evErrcnt n v s)
/-- QUOTA (R340). -/
def execQuota (v : DWord) (s : State) : Host.Outcome State Fault Refusal := settle s (evQuota v s)

end Sys2Proof.Machine
end

