-- ==== Sys2Proof/Machine/Instant.lean ====
section
/-! DEFINITION. Instants, commits, safe points, swaps and resumes of a region (R26, R27, R200, R211, R240, R279 to R281, R286 to R289,
R300, R301, R303, R322, R323). -/

namespace Sys2Proof.Machine

/-! ## Instant starts -/

/-- No writer of a channel that the region reads still has an instant before logical time (t, ctx), but for a channel freed by
QWAIT and a writer that waits on a full QUEUE of this reader (R287 to R289). -/
def State.inputsFixed (s : State) (ctx t : Nat) : Bool :=
  let r := s.region ctx
  (s.channels ctx).all fun p =>
    p.2.rnode ≠ r.node || r.qwaited.contains p.1 ||
      match s.writerCtx ctx p.2 with
      | none => true
      | some w => !s.openBefore (s.waitsOnReader ctx) w t ctx
/-- The region is waiting for a start and can have it in this cycle, which it runs (R26, R287, R336, R340). -/
def State.startReady (s : State) (ctx : Nat) : Bool :=
  let r := s.region ctx
  r.phase = .run && r.between && !r.exh && !(r.skip ≠ 0 && r.skipCnt ≠ 0) && decide (r.readyAt ≤ r.cyc) && r.released.isEmpty && !(s.live r).isEmpty &&
    match s.tick ctx with
    | some p => s.inputsFixed ctx p.1
    | none => false
/-- (t, c) is not later than (T, C). -/
def notLater (v : ChVal) (t c : Nat) : Bool := decide (v.t < t) || (v.t = t && decide (v.c ≤ c))
/-- What a core does at an instant start: clocks k2 to k15 undefined, delays kept, attributes cleared, divisors taken (R26, R180,
R218, R317). -/
def startCore (r : Region) (c : Core) : List CAct :=
  [.clocksClear, .delaySnap, .arrived false 0, .safept none, .instPc c.pc, .nextAt r.cyc] ++
    ([0, 1, 2].map fun e => CAct.engAttr e none none none) ++
    ([0, 1, 2, 3].flatMap fun u =>
      let n := SMap.get 0 c.divNext u
      if n = 0 then [] else [CAct.div u n, .divNext u 0])
/-- INSTANT_START (R26, R286, R287). -/
def evInstantStart (s : State) : List Act :=
  let ctx := s.ctx
  let r := s.rr
  let tk := (s.tick ctx).getD (s.dtime, r.nextDue)
  let t := tk.1
  let mine := (s.channels ctx).filter fun p => p.2.rnode = r.node
  let seenNow := fun (k : Chan) => k.vals.filter fun v => notLater v t ctx
  let snap := mine.map fun p => (p.1, seenNow p.2)
  let seen : Nat := match s.chan ctx r.clkCh with
    | some k => ((seenNow k).map fun v => v.t + 1).foldl max r.seen
    | none => r.seen
  let missed := if r.clkSrc = 3 then (List.range (tk.2 - 1)).filter fun i => r.nextDue ≤ i else []
  (missed.map fun i => s.note (r.dieidx 0) 9 ctx 0 (r.d0 + r.period * i)) ++
    [.reg ctx (.put { r with ibase := r.cyc, instant := r.instant + 1, ltime := t, between := false, nextDue := tk.2, seen := seen
                             chSnap := snap, qwaited := [], retried := false, commitDue := none })] ++
    ((s.live r).flatMap fun id => (startCore r (s.core id)).map (.core id)) ++
    match s.graphs.find? fun g => g.gid = r.gid with
    | some g => [.pkg (.graph { g with chans := g.chans.map fun k =>
        if k.rnode = r.node ∧ k.kind = 0 then { k with vals := k.vals.drop ((seenNow k).length - 1) } else k })]
    | none => []

/-! ## The commit -/

/-- The items of a save image (R322): what the descriptor names, and what is always saved; the rest as at launch. -/
def named {α : Type} [DecidableEq α] (m : SMap α) (keep : Nat → Bool) : SMap α := m.filter fun p => keep p.1
def inRanges (l : List (Nat × Nat)) (off : Nat) : Bool := l.any fun p => decide (p.1 ≤ off ∧ off < p.1 + p.2)
def savedRanges (d : Live) (c : Core) : List (Nat × Nat) := d.m ++ if 0 < c.levels.length then [c.arena] else []
def saveCore (d : Live) (c : Core) : Core :=
  let sm := fun (n : Nat) => d.s.getLsbD n
  let tm := fun (n : Nat) => d.t.getLsbD n
  let rm := inRanges (savedRanges d c)
  { regs := named c.regs sm, rows := named c.rows fun k => tm (k / 16), rowBad := named c.rowBad fun k => tm (k / 16)
    sides := named c.sides tm, sideBad := named c.sideBad tm, tileTag := named c.tileTag tm, tileFull := named c.tileFull tm
    accs := named c.accs fun k => d.c.getLsbD (k / 256), accTag := named c.accTag fun k => d.c.getLsbD k
    slotCols := c.slotCols, slotSides := c.slotSides, slotBad := c.slotBad, slotTag := c.slotTag, clocks := c.clocks, preds := c.preds
    delays := c.delays, loops := c.loops, loopsOld := c.loops, tokens := c.tokens, bars := c.bars, btPhase := c.btPhase
    btArr := c.btArr, btOwed := c.btArr, fmt := c.fmt, hist := c.hist, csrs := named c.csrs (· ≠ 0x050), pc := c.pc, instPc := c.instPc
    ended := c.ended, safept := c.safept, mx := { seq := c.mx.seq }, vx := { seq := c.vx.seq }, cp := { seq := c.cp.seq }, copyCount := c.copyCount
    spad := named c.spad rm, spadBad := named c.spadBad fun w => (List.range 8).any fun i => rm (8 * w + i), staging := c.staging.filter fun e => 0 < e.level
    tagTab := c.tagTab, tlb := c.tlb.filter fun e => e.locked, inboxN := c.inboxN, inboxE := c.inboxE
    inboxS := c.inboxS, inboxW := c.inboxW, undo := c.undo, undoTop := c.undoTop, levels := c.levels
    serial := c.serial }
/-- The bytes of a core's image (R322). -/
def saveBytes (d : Live) (c : Core) : Nat :=
  let ones := fun (n w : Nat) => ((List.range w).filter fun i => fld n i 1 = 1).length
  Config.saveFixed + 16 * ones d.s.toNat 64 + 4368 * ones d.t.toNat 96 + 2048 * ones d.c.toNat 8 + (d.m.map Prod.snd).sum +
    if 0 < c.levels.length then c.arena.2 + 16 * (c.staging.filter fun e => 0 < e.level).length + Config.saveSnapshot * c.levels.length else 0
/-- The descriptor a core saves by; descriptor 256 stands for every item (R318, R322). -/
def wholeLive : Live := { s := BitVec.allOnes 64, t := BitVec.allOnes 96, c := BitVec.allOnes 8, m := [(0, Config.spadBytes)] }
def liveOf (r : Region) (c : Core) : Live := match c.safept with
  | some n => if n = 256 then wholeLive else r.live.getD n ⟨0, 0, 0, []⟩
  | none => ⟨0, 0, 0, []⟩
/-- Numeric flags of a core's work that arrive after its save: of results on their way, and of a cell read that has yet to sample (R324). -/
def lateFlags (s : State) (r : Region) (id : Nat) : Nat :=
  let of := fun (l : List CAct) => l.foldl (fun n a => match a with | .orFlags v => n ||| v | _ => n) 0
  r.agenda.foldl (fun n e => match e.2 with
    | .land c l => if c = id then n ||| of l else n
    | .sample c t off _ _ _ _ _ op _ _ _ _ => if c = id ∧ op = 13 then n ||| (cellRead ((s.core t).spNat off 16)).2 else n
    | _ => n) 0
/-- An agenda whose landings bring no flags: those of a context that is out have joined its saved FLAGS. A cell read that has yet to sample
becomes one without flags, op 15 (R324). -/
def flagless (l : List (Key × Item)) : List (Key × Item) :=
  l.map fun e => match e.2 with
    | .sample c t off ad n sg d tg op b cmp due tm => (e.1, .sample c t off ad n sg d tg (if op = 13 then 15 else op) b cmp due tm)
    | .land c a => (e.1, .land c (a.filter fun x => match x with | .orFlags _ => false | _ => true))
    | _ => e
/-- The region goes to its save images, in the area that its launch allocated; their layout is not given, so what a byte of the area reads as
is free (assumptions 25). The save ends ⌈b/256⌉ cycles later and is visible at a time that is a free value (R322). -/
def saveRegion (s : State) (ctx : Nat) (whole : Bool) : List Act :=
  let r := s.region ctx
  let cs := r.ids.map fun id =>
    let c := CAct.apply (s.core id) (.orFlags (lateFlags s r id))
    if whole then CAct.apply c (.safept (some 256)) else c
  let n := ((cs.map fun c => (saveBytes (liveOf r c) c + 255) / 256)).foldl max 0
  [.reg ctx (.put { r with phase := .saving, images := cs.map fun c => saveCore (liveOf r c) c, saveEnd := n, agenda := flagless r.agenda }),
   .pkg (.later (s.now + n + 1 + s.free 0 Config.visibleBound) (.ev (coreId ctx 0) .swapComplete)), .pkg (.takeFree 1)]
/-- Values of a channel with new ones in the order of logical time (R287). -/
def joinVals (new old : List ChVal) (t c : Nat) : List ChVal :=
  (old.filter fun v => notLater v t c) ++ new ++ old.filter fun v => !notLater v t c
/-- A graph's channels after a region's commit: pops are final, staged values join with the instant's logical time, in its order (R27, R201,
R202, R287). -/
def commitChans (s : State) (ctx : Nat) (g : Graph) : Graph :=
  let r := s.region ctx
  { g with chans := ((List.range g.chans.length).zip g.chans).map fun p =>
      let k := popped s ctx p
      let vs := s.stagedFor ctx p.1
      if k.wnode = r.node then
        { k with vals := joinVals ((if k.kind = 0 then vs.getLast?.toList else vs).map fun v => ⟨r.ltime, ctx, v⟩) k.vals r.ltime ctx }
      else k }
/-- INSTANT_COMMIT (R27): channel writes, staged stores and delay updates perform together; KEND ends its group; a pending swap
is taken at a safe point (R77, R211, R280), and during a warm reset a region that it keeps is saved in full at a commit within 5 ms
(R318). A commit that would overfill a QUEUE waits (R201). -/
def evInstantCommit (s : State) : List Act :=
  let ctx := s.ctx
  let r := s.rr
  if !(s.commitFull ctx).isEmpty then []
  else
    let out := r.ids.flatMap fun id => (s.core id).staging.filter fun e => e.level = 0 ∧ e.kind ≠ .mark
    let acts : List Act :=
      (match s.graphs.find? fun g => g.gid = r.gid with | some g => [.pkg (.graph (commitChans s ctx g))] | none => []) ++
      (r.ids.flatMap fun id =>
        let c := s.core id
        ([CAct.delayCommit, .staging (c.staging.filter fun e => 0 < e.level), .chStagedClear, .chPopsClear] ++
          if c.kend && !c.ended then
            [CAct.ended true, .kend false, .arrived true (r.cyc + 1), .tlb (c.tlb.map fun e => { e with locked := false })] else []).map (.core id)) ++
      [.reg ctx (.put { r with between := true, commitDue := none, ltimeDone := r.ltime, readyAt := r.cyc + 1, released := r.released ++ out
                               visibleAt := if out = [] then r.visibleAt else max r.visibleAt (s.now + 1 + s.free 0 Config.visibleBound) })] ++
      if out = [] then [] else [.pkg (.takeFree 1)]
    let s1 := s.applyAll acts
    let alive := s1.live (s1.region ctx)
    let swap := r.swapPend && !alive.isEmpty && alive.all fun id => (s1.core id).safept.isSome
    acts ++ if !s.booted && s.kept.contains ctx && decide (s.dtime ≤ s.keptUntil) && !alive.isEmpty then saveRegion s1 ctx true
      else if swap then saveRegion s1 ctx false else []
/-- One released entry takes effect (R153, R159, R160, R203, R240). -/
def applyEntry (s : State) (h : Nat) (e : StEntry) : List Act :=
  match e.kind with
  | .store => memWrite ((e.bytes.filter fun b => !s.peerDown b.key).map fun b => (b.key, b.val)) e.bad
  | .acell => memWrite (e.bytes.map fun b => (b.key, b.val)) e.bad
  | .afadd x =>
    let old := e.bytes.foldr (fun b n => (s.byte b.key).toNat + 256 * n) 0
    memWrite ((e.bytes.map StByte.key).zip (bytesOf (cellAdd old x.toNat) 16)) false
  | .nodeq rec => orHeld s (s.cur / 2048 * 2048) (.stampGloballyVisible (h, rec)) (nodePush s h rec)
  | .glnch va => orHeld s 0 (.submit h (BitVec.ofNat 64 va)) (submitGraph s h va)
  | .mark => []
def applyEntries (h : Nat) : State → List StEntry → List Act
  | _, [] => []
  | s, e :: l => let a := applyEntry s h e; a ++ applyEntries h (s.applyAll a) l
/-- STAGED_WRITE_APPLY (R27, R240): the released entries, by core and staging order. -/
def evStagedWriteApply (s : State) : List Act :=
  .reg s.ctx (.put { s.rr with released := [] }) :: applyEntries s.rr.handle s s.rr.released

/-! ## Barrier tags -/

/-- BARRIER_RELEASE (R200, R301): the tag's phase flips at every core, and the arrivals are gone. -/
def evBarrierRelease (tag : Nat) (s : State) : List Act :=
  .reg s.ctx (.btDue tag 0) :: s.rr.ids.flatMap fun id =>
    let c := s.core id
    [.core id (.btPhase tag (!SMap.get false c.btPhase tag)), .core id (.btArr tag false), .core id (.btOwed tag false)]

/-! ## Swaps, resumes, quanta -/

/-- QUANTUM_EXPIRY (R279). -/
def evQuantumExpiry (s : State) : List Act := [.reg s.ctx (.put { s.rr with quantExp := true })]
/-- SWAP_COMPLETE (R281, R322): the region's cores are freed and its node returns to the ready list. -/
def evSwapComplete (s : State) : List Act :=
  let r := s.rr
  if r.phase ≠ .saving then []
  else
    (match s.graphs.find? fun g => g.gid = r.gid with
     | some g => match g.nodes[r.node]? with
       | some x => [.pkg (.graph (g.setNode r.node { x with st := .ready s.dtime, swapped := s.ctx }))]
       | none => []
     | none => []) ++
    ((s.owner.filter fun p => p.2 = s.ctx).map fun p => .pkg (.owner p.1 0)) ++
    [.pkg (.dropCores s.ctx (r.w * r.h)), .reg s.ctx (.put { r with phase := .out, swapPend := false, ps := false, deadline := none, skip := 0 })]
/-- A core as it reads at the resume: what its image holds, and the rest as at launch, error marks too (R322, R323, R324). -/
def resumed (fresh img : Core) (ranges : List (Nat × Nat)) : Core :=
  let sp := fun (m : SMap Byte) => ranges.foldl (fun m p =>
    (List.range p.2).foldl (fun m i => SMap.set 0 m (p.1 + i) (SMap.get 0 img.spad (p.1 + i))) m) m
  { img with tables := fresh.tables, spad := sp fresh.spad
             spadBad := (ranges.flatMap fun p => dwordsOf p.1 p.2).foldl (fun m w => SMap.set false m w (SMap.get false img.spadBad w)) fresh.spadBad }
/-- PREEMPT_RESUME (R281, R323): the acting context's swapped-out region takes the first usable placement that is free to it and restores
its image; CYC goes on at the saved commit + 1 at a base cycle that follows the restore by 48 cycles. -/
def evPreemptResume (s : State) : List Act :=
  let ctx := s.ctx
  let r := s.rr
  match s.graphs.find? fun g => g.gid = r.gid with
  | none => []
  | some g => match g.nodes[r.node]? with
    | none => []
    | some x => match s.placeFor r.gid r.node r.w r.h r.dies, s.vofAt g.handle x.kptr with
      | some (x0, y0), some v =>
        if r.phase ≠ .out then [] else
        let fresh := (loadActs s g r.node x v ctx []).foldl CAct.apply ({} : Core)
        .reg ctx (.put { r with phase := .loading, x0 := x0, y0 := y0, cyc := r.cyc + 1, between := true, readyAt := r.cyc + 1, images := []
                                baseAt := s.now + 1 + s.free 0 0 + r.saveEnd + Config.treeDelay }) ::
          .pkg (.takeFree 1) :: .pkg (.graph (g.setNode r.node { x with st := .running ctx, swapped := 0 })) ::
          ((placed r.w r.h (x0, y0)).map fun q => .pkg (.owner q ctx)) ++
          ((List.range r.images.length).zip r.images).map fun p =>
            .restore (coreId ctx p.1) (resumed fresh p.2 (savedRanges (liveOf r p.2) p.2))
      | _, _ => []

-- The meanings: one for each instruction of this file.
/-- INSTANT_START (R26). -/
def execInstantStart (s : State) : Host.Outcome State Fault Refusal := settle s (evInstantStart s)
/-- INSTANT_COMMIT (R27). -/
def execInstantCommit (s : State) : Host.Outcome State Fault Refusal := settle s (evInstantCommit s)
/-- SWAP_COMPLETE (R322). -/
def execSwapComplete (s : State) : Host.Outcome State Fault Refusal := settle s (evSwapComplete s)
/-- PREEMPT_RESUME (R323). -/
def execPreemptResume (s : State) : Host.Outcome State Fault Refusal := settle s (evPreemptResume s)
/-- STAGED_WRITE_APPLY (R240). -/
def execStagedWriteApply (s : State) : Host.Outcome State Fault Refusal := settle s (evStagedWriteApply s)
/-- BARRIER_RELEASE (R200). -/
def execBarrierRelease (tag : Nat) (s : State) : Host.Outcome State Fault Refusal := settle s (evBarrierRelease tag s)
/-- QUANTUM_EXPIRY (R279). -/
def execQuantumExpiry (s : State) : Host.Outcome State Fault Refusal := settle s (evQuantumExpiry s)

end Sys2Proof.Machine
end

