-- ==== Sys2Proof/Machine/Freeze.lean ====
section
/-! DEFINITION. Freeze, stop, composite record, and the actions on a fault: handler, rollback, retry, re-queue, kill, warm reset
(R293, R302 to R319, R325). -/

namespace Sys2Proof.Machine

/-! ## Freeze and stop (R302, R304) -/

/-- A walk without the control cores of a region among those that wait for it: a held bundle asks again when it is next checked, and a
bundle that a rollback discards asks no more (R235, R302, R314). -/
def Walk.unheld (ids : List Nat) (w : Walk) : Walk := { w with waiters := w.waiters.filter fun x => !(ids.contains x.1 && x.2.1 = 3) }
/-- FREEZE (R302): pending releases are cancelled and arrivals cleared, but for the arrivals at the commit. -/
def evFreeze (s : State) : List Act :=
  let r := s.rr
  if r.phase ≠ .run then []
  else .reg s.ctx (.put { r with phase := .stopping, frozen := true, btDue := [], rdvDue := none, commitDue := none }) ::
    .pkg (.walks (s.walks.map (Walk.unheld r.ids))) :: r.ids.flatMap fun id => (List.range 8).map fun b => .core id (.btArr b false)
/-- An engine has stopped: it runs no entry, or the one at its head stopped where it faults or is blocked (R304). -/
def Engine.atRest (g : Engine) : Bool := (!g.running || g.stopped) && g.finishing.isEmpty
/-- A link word on its way. -/
def Item.isLinkWord : Item → Bool
  | .linkWord _ _ _ => true
  | _ => false
/-- The region is at its stop cycle, the first at or after F + 48 with engines at rest, every timed write performed, every untimed
access and copy done (R304). A result of a register, a tile or a flag that is still to land counts as a timed write (the model's reading;
assumptions 72), and a link word, which is discarded, does not (R302). A fault in the handler finds the region frozen, and its own F counts. -/
def State.stopReached (s : State) (ctx : Nat) : Bool :=
  let r := s.region ctx
  r.phase = .stopping && (r.fault.all fun w => decide (w.cyc + Config.treeDelay ≤ r.cyc)) && (r.agenda.all fun e => e.2.isLinkWord) && r.copies.isEmpty && r.ids.all fun id =>
    let c := s.core id
    c.mx.atRest && c.vx.atRest && c.cp.atRest && c.untimed.isEmpty

/-! ## The composite record (R293, R307, R308, R310) -/

/-- An engine block. -/
def engineBlock (g : Engine) (faulting : Bool) : Nat :=
  let q := g.queue.head?
  (if g.running then g.headSeq.toNat else g.seq.toNat) + g.step % 2 ^ 16 * 2 ^ 32 +
    (if g.running then g.rep else (q.map QEntry.reps).getD 0) % 2 ^ 16 * 2 ^ 48 + (if g.running then 2 ^ 64 else 0) +
    (if faulting then 2 ^ 65 else 0) + (if (q.map QEntry.timed).getD false then 2 ^ 66 else 0) + g.queue.length * 2 ^ 72
/-- The four identity bytes of a core. -/
def identity (r : Region) (v : Nat) : Nat := r.gx v + r.gy v * 2 ^ 8 + r.dieidx v * 2 ^ 16 + r.corenum v * 2 ^ 24
/-- A core entry. -/
def coreEntry (r : Region) (c : Core) (v : Nat) (f : FaultInfo) : Nat :=
  let mine := fun e => decide (f.core % 2048 = v) && decide (f.eng = e)
  identity r v + (if c.seg.isSome || c.segSaved.isSome then 2 ^ 36 else 0) + (if c.waits ≠ [] then 2 ^ 37 else 0) + (if c.inHandler then 2 ^ 38 else 0) +
    (if c.ended then 2 ^ 39 else 0) + c.pc * 2 ^ 64 + engineBlock c.mx (mine 0) * 2 ^ 128 + engineBlock c.vx (mine 1) * 2 ^ 224 +
    engineBlock c.cp (mine 2) * 2 ^ 320
/-- A queue entry in R293's layout. -/
def entryBits (ctx e : Nat) (g : Engine) : Nat :=
  match g.queue.head? with
  | none => 0
  | some q =>
    let opt := fun (x : Option Nat) (bit lo : Nat) => match x with | some n => 2 ^ bit + n * 2 ^ lo | none => 0
    e + opt q.stok 18 13 + opt q.wtok 24 19 + opt q.guard 29 25 + (if q.timed then 2 ^ 30 else 0) + q.base * 2 ^ 31 +
      (q.count - 1) * 2 ^ 41 + q.reps * 2 ^ 49 + ctx % 2 ^ 16 * 2 ^ 80 + q.instant % 2 ^ 32 * 2 ^ 96 + q.stamp % 2 ^ 32 * 2 ^ 128 +
      (if g.taken then g.headSeq.toNat else 0) * 2 ^ 160
/-- The header of R307. -/
def recordHeader (s : State) (r : Region) (w : FaultWin) (action retry : Nat) : Nat :=
  let f := w.first
  let fc := s.core f.core
  let none_ := f.eng = 4
  f.code + f.eng * 2 ^ 8 + (if w.pseg then 2 ^ 16 else 0) + (if f.timed then 2 ^ 17 else 0) + (if w.inh then 2 ^ 18 else 0) +
    w.count * 2 ^ 32 + action * 2 ^ 40 + f.info * 2 ^ 48 + (if none_ then 0 else identity r (f.core % 2048)) * 2 ^ 64 +
    w.cyc * 2 ^ 128 + (w.cyc + Config.treeDelay) * 2 ^ 192 + w.ibase * 2 ^ 256 + w.instant * 2 ^ 320 + w.dtime * 2 ^ 384 +
    r.ctx % 2 ^ 16 * 2 ^ 448 + r.w * r.h * 2 ^ 464 + w.rdepth * 2 ^ 480 + retry % 2 ^ 8 * 2 ^ 488 + f.wobj % 2 ^ 64 * 2 ^ 512 +
    f.wval1 % 2 ^ 64 * 2 ^ 576 + f.wval2 % 2 ^ 64 * 2 ^ 640 + f.faddr % 2 ^ 64 * 2 ^ 704 + (if none_ then 0 else fc.pc) * 2 ^ 768 +
    f.fseq % 2 ^ 32 * 2 ^ 832 + w.other.toNat * 2 ^ 896
/-- The record and every core's save area are written at S; the HBM bytes perform at a later cycle that is a free value (R307,
R310). -/
def writeRecord (s : State) (r : Region) (w : FaultWin) (action retry : Nat) : List Act :=
  let head := bytesOf (recordHeader s r w action retry) 128
  let entries := r.ids.map fun id => bytesOf (coreEntry r (s.core id) (id % 2048) w.first) 64
  let all := head ++ entries.flatten
  ((r.ids.zip entries).map fun p =>
    let c := s.core p.1
    .core p.1 (.spad Config.saveArea (head ++ p.2 ++ bytesOf (entryBits r.ctx 0 c.mx) 24 ++ bytesOf (entryBits r.ctx 1 c.vx) 24 ++
      bytesOf (entryBits r.ctx 2 c.cp) 24))) ++
    r.ids.map (fun id => .core id (.spadBad Config.saveArea 264 false)) ++
    [.reg r.ctx (.visible (s.now + 1 + s.free 0 Config.visibleBound)), .pkg (.later (s.now + 1 + s.free 0 Config.visibleBound) (.write (((List.range all.length).zip all).map fun p => (memKey 0 (r.treca + p.1), p.2)))),
     .pkg (.takeFree 1), s.note (r.dieidx (w.first.core % 2048)) 4 r.ctx (w.first.core % 2048) w.first.code]

/-! ## The choice of an action (R311, R316) -/

/-- The code rolls back (R311); RABORT is code 0x15 with INFO 0xFFFF. -/
def rollbackClass (f : FaultInfo) : Bool :=
  f.code = SEGSIG || f.code = FIDERR || f.code = UECC || (f.code = SWTRAP && f.info = 0xFFFF && !f.next)
/-- Level n of a core. -/
def Core.level (c : Core) (n : Nat) : Option Level := if n = 0 then none else (c.levels.drop (c.levels.length - n)).head?
/-- The deepest level, from n outward, that every live core may retry once more. -/
def retryLevel (s : State) (r : Region) : Nat → Option Nat
  | 0 => none
  | n + 1 =>
    if (s.live r).all fun id => match (s.core id).level (n + 1) with | some l => decide (l.retries + 1 ≤ l.limit) | none => true
    then some (n + 1) else retryLevel s r n
/-- Retry count that level n reaches with this event. -/
def retryCount (s : State) (r : Region) (n : Nat) : Nat :=
  ((s.live r).map fun id => (((s.core id).level n).map fun l => l.retries + 1).getD 0).foldl max 0
/-- ACTION, the level to roll back, and RETRY: 0 handler, 1 rollback, 2 instant retry, 3 re-queue, 4 kill, 5 warm reset. -/
def chooseAction (s : State) (r : Region) (w : FaultWin) : Nat × Nat × Nat :=
  let deep := ((s.live r).map fun id => (s.core id).levels.length).foldl max 0
  if r.action = 4 ∨ w.inh then (4, 0, 0)
  else if w.first.code = KILLED ∨ w.first.code = BADSTAT then (4, 0, 0)
  else if !rollbackClass w.first then (0, 0, 0)
  else
    let last := if r.rst && !r.requeued then 3 else 4
    if deep = 0 then if r.retried then (last, 0, 0) else (2, 0, 0)
    else match retryLevel s r deep with
      | some n => if (s.live r).any fun id => (s.core id).recordErr n then (5, n, retryCount s r n) else (1, n, retryCount s r n)
      | none => (last, 0, retryCount s r 1)

/-! ## The actions -/

/-- The handler starts on the faulting core one cycle later; every other core stays frozen (R214, R311). -/
def startHandler (s : State) (r : Region) (w : FaultWin) : List Act :=
  .reg r.ctx (.put { r with phase := .handler w.first.core, fault := none, frz := w.cyc + Config.treeDelay }) ::
    (enterHandler w.first w.pseg (s.core w.first.core) r.cyc).map (.core w.first.core)
/-- Level n is restored on every core; all restart at the new base (R314, R315). -/
def startRollback (s : State) (r : Region) (w : FaultWin) (n : Nat) : List Act :=
  let live := s.live r
  let f48 := w.cyc + Config.treeDelay
  let restore := (live.map fun id => 16 + ((s.core id).recordBytes n + 255) / 256).foldl max 16
  let base := f48 + (r.cyc - f48 + restore) + Config.resyncMargin
  let inst := (live.head?.bind fun id => ((s.core id).level n).map fun l => l.snap.instant).getD r.instant
  .reg r.ctx (.put { r with phase := .restoring base, fault := none, frz := f48, instant := inst, between := false, commitDue := none }) ::
    live.flatMap fun id => (rollbackCore (s.core id) n base r.instant).map (.core id)
/-- What an instant retry does on a core (R317). -/
def retryCore (c : Core) (base : Nat) : List CAct :=
  [.clocksClear, .staging (c.staging.filter fun e => 0 < e.level), .chStagedClear, .chPopsClear, .delayRestore,
   .eng 0 (c.mx.emptied c.mx.step base), .eng 1 (c.vx.emptied c.vx.step base), .eng 2 (c.cp.emptied c.cp.step base),
   .loops (loopsAfter 1 c.pc c.instPc c.loops).1, .loopsOld (loopsAfter 1 c.pc c.instPc c.loops).1, .pc c.instPc, .issPc c.instPc,
   .npc c.instPc 1, .nextAt base, .xfer 0, .held false, .trapped false, .waits [], .seg none, .segBuf [], .arrived false 0,
   .kend false, .kendPend false, .safept none]
def startRetry (s : State) (r : Region) (w : FaultWin) : List Act :=
  let f48 := w.cyc + Config.treeDelay
  let base := f48 + (r.cyc - f48 + 16) + Config.resyncMargin
  .reg r.ctx (.put { r with phase := .restoring base, fault := none, frz := f48, retried := true, between := false, commitDue := none }) ::
    (s.live r).flatMap fun id => (retryCore (s.core id) base).map (.core id)
/-- The kill drain starts: staged and held writes are discarded and queues emptied; it ends at a time that is a free value, and not
before the writes that the node has released are visible (R277, R283, R318, R325). -/
def startDrain (s : State) (r : Region) (action status : Nat) : List Act :=
  [.reg r.ctx (.put { r with phase := .killed, fault := none, frozen := true, action := action, status := status, killAt := s.dtime
                             released := [], commitDue := none, rdvDue := none, btDue := [], agenda := [], copies := [] }),
   .pkg (.later (max (s.now + 1 + s.free 0 0) r.visibleAt) (.ev (coreId r.ctx 0) .killDrainComplete)), .pkg (.takeFree 1)] ++
    r.ids.flatMap fun id =>
      let c := s.core id
      ([CAct.staging [], .chStagedClear, .chPopsClear, .untimedSet [], .levels [], .undo [] 0, .waits [], .inHandler false,
        .eng 0 (c.mx.emptied c.mx.step 0), .eng 1 (c.vx.emptied c.vx.step 0), .eng 2 (c.cp.emptied c.cp.step 0)]).map (.core id)
/-- A warm reset starts (R318, R319): the firmware stops, every region that the failure does not touch and that reaches a commit within
5 ms is saved there, and within 50 ms the package goes through Dawn, at a time that is a free value. A failure while one is under way
only touches more; before the first Dawn there is nothing to reset. -/
def warmReset (s : State) (touched : List Nat) : List Act :=
  let fit := fun (r : Region) => match r.phase with
    | .loading => true
    | .run => !r.frozen
    | .out => true
    | .saving => true
    | _ => false
  let kept := (s.regions.filter fun p => fit p.2 && !touched.contains p.1).map Prod.fst
  if !s.booted then (if s.dawnCold then [] else [.pkg (.kept (s.kept.filter fun c => !touched.contains c) s.keptUntil)])
  else [.pkg (.booted false false), .pkg (.dawnCold false), .pkg (.kept kept (s.dtime + 5000000)),
    .pkg (.later (s.now + 5040000 + s.free 0 40000000) (.ev 0 .dawn)), .pkg (.takeFree 1), s.note 0 10 (touched.headD 0) 0 0]

/-- REGION_STOP (R304 to R317, R325): the record, then the action. A kill of a region that was stopped already has no new record. -/
def evRegionStop (s : State) : List Act :=
  let r := s.rr
  match r.fault with
  | none => if r.action = 4 then startDrain s r 4 r.status else []
  | some w =>
    let (action, n, retry) := chooseAction s r w
    let a := writeRecord s r w action retry
    let s1 := s.applyAll a
    let r1 := s1.rr
    a ++ match action with
      | 0 => startHandler s1 r1 w
      | 1 => startRollback s1 r1 w n
      | 2 => startRetry s1 r1 w
      | 5 => startDrain s1 r1 5 4 ++ warmReset (s1.applyAll (startDrain s1 r1 5 4)) [s.ctx]
      | _ => startDrain s1 r1 action (if r.action = 4 then r.status else 1)
/-- ROLLBACK_RESTART (R315, R317): every core issues its restart address at the new base; IBASE is the base, less the offset at
which the level opened. -/
def evRollbackRestart (s : State) : List Act :=
  let r := s.rr
  let off := ((s.live r).head?.bind fun id => (s.core id).levels.head?.map fun l => l.snap.sOpen).getD 0
  match r.phase with
  | .restoring _ => [.reg s.ctx (.put { r with phase := .run, frozen := false, ibase := r.cyc - off })]
  | _ => []
/-- KILL_DRAIN_COMPLETE (R325): TLB entries are invalidated, cores freed and the number released; the node completes, or goes on
to its re-queue (R318). In Dusk the drain is complete, and the completion is held (R358). -/
def evKillDrainComplete (s : State) : List Act :=
  let r := s.rr
  let done := nodeDone s r.gid r.node r.status ++ freeContext s s.ctx ++ closeHandle s r.handle
  if r.phase = .drained ∧ r.action = 4 then orHeld s s.cur .killDrainComplete done
  else if r.phase ≠ .killed ∨ r.action = 5 then []
  else if r.action = 3 ∨ s.dusk then
    .reg s.ctx (.put { r with phase := .drained }) :: if r.action = 3 then [] else orHeld s s.cur .killDrainComplete []
  else done
/-- KILL_DRAIN_TIMEOUT (R318). -/
def evKillDrainTimeout (s : State) : List Act := if s.rr.phase = .killed then warmReset s [s.ctx] else []
/-- HEARTBEAT_MISSED (R318, R359). -/
def evHeartbeatMissed (s : State) : List Act := warmReset s []

-- The meanings: one for each instruction of this file.
/-- FREEZE (R302). -/
def execFreeze (s : State) : Host.Outcome State Fault Refusal := settle s (evFreeze s)
/-- REGION_STOP (R304). -/
def execRegionStop (s : State) : Host.Outcome State Fault Refusal := settle s (evRegionStop s)
/-- ROLLBACK_RESTART (R315). -/
def execRollbackRestart (s : State) : Host.Outcome State Fault Refusal := settle s (evRollbackRestart s)
/-- KILL_DRAIN_COMPLETE (R325). -/
def execKillDrainComplete (s : State) : Host.Outcome State Fault Refusal := settle s (evKillDrainComplete s)
/-- KILL_DRAIN_TIMEOUT (R318). -/
def execKillDrainTimeout (s : State) : Host.Outcome State Fault Refusal := settle s (evKillDrainTimeout s)
/-- HEARTBEAT_MISSED (R318). -/
def execHeartbeatMissed (s : State) : Host.Outcome State Fault Refusal := settle s (evHeartbeatMissed s)

end Sys2Proof.Machine
end

