-- ==== Sys2Proof/Machine/Power.lean ====
section
/-! DEFINITION. Twilight windows, the power-state predicate and energy accounting (R327, R331, R334 to R341). -/

namespace Sys2Proof.Machine

/-- The clusters that hold a core of a region. -/
def Region.clusters (r : Region) : List Nat := ((List.range (r.w * r.h)).map r.cluster).eraseDups
/-- CYC advances to the next cycle on a tick: always, or once in k cycles under forced skipping (R25, R336). -/
def Region.advances (r : Region) : Bool := r.phase.counts && (r.skip = 0 || decide (r.skip ≤ r.skipCnt + 1))
/-- The region skips the cycle that stands (R336). -/
def Region.skipped (r : Region) : Bool := r.skip ≠ 0 && r.skipCnt ≠ 0
/-- The turns of a cycle: regions that run in it, and those that only wait for an event. -/
def turnsOf (all runs : List (Nat × Region)) : List Turn :=
  let cores := runs.flatMap fun p => p.2.ids.flatMap fun id =>
    [Turn.control id true, .engine id 0, .engine id 1, .engine id 2, .control id false]
  [.inputs, .due] ++ runs.map (fun p => .agenda p.1) ++ all.map (fun p => .region p.1) ++ all.map (fun p => .region p.1) ++ cores ++
    runs.flatMap (fun p => [.agenda p.1, .settle p.1]) ++ [.sched, .tick]
/-- A region that skips the cycle that stands runs it after all, as its power state falls in it (R336). -/
def unskip (s : State) (ctx : Nat) : List Act :=
  let all := s.regions.filter fun p => p.2.phase ≠ .none
  let runs := all.filter fun p => (p.2.phase.counts && (!p.2.skipped || p.1 = ctx)) || (p.2.phase = .loading && decide (p.2.baseAt ≤ s.now))
  [.reg ctx .tickCyc, .pkg (.todo (turnsOf all runs))]
/-- POWER_STATE_CHANGE (R334, R335, R337): PS changes on every core of the region; a change from 0 to 1 opens a deadline, and the
reasons stand in THRRSN: CAP in every cluster of the region, the others in the cluster of the acting core (assumptions 19). A change to 0
ends skipping in its cycle (R336). -/
def evPowerStateChange (ps : Bool) (reasons : Nat) (s : State) : List Act :=
  let r := s.rr
  (if ps && reasons % 8 ≠ 0 then [.pkg (.thrSet (r.cluster s.vidx) (BitVec.ofNat 5 (reasons % 8)))] else []) ++
    (if ps && fld reasons 3 1 = 1 then r.clusters.map fun c => .pkg (.thrSet c 8) else []) ++
    (if ps then (if r.ps then [] else [.reg s.ctx (.ps true (some (s.dtime + 10000)))])
     else .reg s.ctx (.ps false none) :: if r.phase.counts && r.skipped then unskip s s.ctx else [])
/-- POWER_DEADLINE_EXPIRY (R336): skipping starts, one cycle in k, and k is a free value from 2 to 8. -/
def evPowerDeadlineExpiry (s : State) : List Act := [.reg s.ctx (.skip (2 + s.free 0 7)), .pkg (.takeFree 1)]

/-- A window trips for fidelity f: at least 2 detections, and more than c times the declared rate 2^(10 f - 60) times the
operations; the factor c is counted in units of 2^(-24) (R329, R331). -/
def trips (factor f ops det : Nat) : Bool := decide (2 ≤ det) && decide (factor * ops < det * 2 ^ 24 * 2 ^ (60 - 10 * f))
/-- The end of one cluster's window (R331): for each fidelity that trips it, one journal entry with the cluster, F and the new code, one with
ops_F and one with det_F (assumptions 10). -/
def windowEnd (s : State) (n : Nat) (k : Cluster) : List Act :=
  let code := if k.code < 16 then k.code + 1 else k.code
  let reset := { k with ops1 := 0, ops2 := 0, ops3 := 0, det1 := 0, det2 := 0, det3 := 0 }
  let hits := [(1, k.ops1, k.det1), (2, k.ops2, k.det2), (3, k.ops3, k.det3)].filter fun q => trips k.factor q.1 q.2.1 q.2.2
  let die := (if 6 ≤ n % 12 then 1 else 0) + if 4 ≤ n / 12 then 2 else 0
  if hits = [] then [.pkg (.cluster n reset)]
  else [.pkg (.cluster n { reset with code := code }), .pkg (.thrSet n 16)] ++ hits.flatMap fun q =>
    [s.note die 11 0 0 (n + q.1 * 2 ^ 8 + code * 2 ^ 16), s.note die 15 0 0 q.2.1, s.note die 16 0 0 q.2.2]
/-- TWILIGHT_WINDOW_END (R331), for every cluster. -/
def evTwilightWindowEnd (s : State) : List Act := s.clusters.flatMap fun p => windowEnd s p.1 p.2

/-- A region's accumulator after an amount is charged to it (R338 to R341). -/
def charge (r : Region) (n : Nat) : Region :=
  let full := decide (2 ^ 64 - 1 ≤ r.energy + n)
  let e := if r.esat then r.energy else min (2 ^ 64 - 1) (r.energy + n)
  let exh := r.exh || (r.quota ≠ 0 && decide (r.quota ≤ e))
  { r with energy := e, esat := r.esat || full, exh := exh, overE := if exh then e - r.quota else 0 }
/-- Nothing is charged to a context that is swapped out, or that waits exhausted (R338, R340). -/
def Region.charged (r : Region) : Bool :=
  r.phase ≠ .none && r.phase ≠ .out && !(r.exh && r.between)
/-- ENERGY_UPDATE (R338, R340, R341): each context is charged for the interval, how much is a free value (assumptions 19); its exhausted flag
and OVER follow, also where nothing is charged. -/
def evEnergyUpdate (s : State) : List Act :=
  let l := (List.range s.regions.length).zip s.regions
  (l.flatMap fun p =>
    let r := p.2.2
    if r.phase = .none then []
    else
      let r' := charge r (if r.charged then s.free p.1 (2 ^ 64) else 0)
      (if r' = r then [] else [.reg p.2.1 (.put r')]) ++ if r'.exh && !r.exh then [s.note (r.dieidx 0) 12 p.2.1 0 r'.energy] else []) ++ [.pkg (.takeFree s.regions.length)]

-- The meanings: one for each instruction of this file.
/-- POWER_STATE_CHANGE (R334). -/
def execPowerStateChange (ps : Bool) (reasons : Nat) (s : State) : Host.Outcome State Fault Refusal := settle s (evPowerStateChange ps reasons s)
/-- POWER_DEADLINE_EXPIRY (R336). -/
def execPowerDeadlineExpiry (s : State) : Host.Outcome State Fault Refusal := settle s (evPowerDeadlineExpiry s)
/-- TWILIGHT_WINDOW_END (R331). -/
def execTwilightWindowEnd (s : State) : Host.Outcome State Fault Refusal := settle s (evTwilightWindowEnd s)
/-- ENERGY_UPDATE (R338). -/
def execEnergyUpdate (s : State) : Host.Outcome State Fault Refusal := settle s (evEnergyUpdate s)

end Sys2Proof.Machine
end

