-- ==== Sys2Proof/Machine/Host.lean ====
section
/-! DEFINITION. Host registers, handles, command blocks, the memory window, Wyrex ports, time, measurements, live update and Dawn
(R342 to R360). -/

namespace Sys2Proof.Machine

/-! ## The capability list and the reads of the register window (R341, R344 to R348, R360) -/

/-- The cores that the fuse map enables, row py by row: bit px of word py (R271, R347). -/
def fuseRow (s : State) (py : Nat) : Nat := ((List.range Config.gridW).map fun px => if s.enabled (py * Config.gridW + px) then 2 ^ px else 0).sum
/-- The capabilities in order: identifier and body words (R347). -/
def capabilities (s : State) : List (Nat × List Nat) :=
  let slot := fun (n : Nat) => let x := SMap.get {} s.slots n; [x.version, x.build]
  [(1, [1, Config.tmid]), (2, [2 ^ 13 - 1]), (3, [3, 50, 40, 30]), (4, [0x0100, Config.linkVersion, 18]), (5, [0x0100, Config.abiVersion]),
   (6, s.fwActive :: (slot 0 ++ slot 1)), (7, [1, 1024]), (8, [4, 65536]),
   (9, ((List.range (Config.gridW * Config.gridH)).filter s.enabled).length :: (List.range Config.gridH).map (fuseRow s))]
/-- The list's words from an offset on, entries one behind the other: a header with NEXT, LEN, VER and ID before each body (R346). That
they stand without a gap, and VER, are not given (assumptions 61). -/
def capWords : Nat → List (Nat × List Nat) → List Nat
  | _, [] => []
  | off, (id, body) :: rest =>
    let len := 8 * (body.length + 1)
    (id + Config.capVersion id % 2 ^ 8 * 2 ^ 16 + len * 2 ^ 24 + (if rest = [] then 0 else off + len) * 2 ^ 40) :: body ++ capWords (off + len) rest
/-- The registers of the device control block (R345, R360). -/
def controlRead (s : State) (o : Nat) : Nat :=
  if o = 0x000 then s.powercap
  else if o = 0x010 then s.mwTier
  else if o = 0x018 then s.mwBase * 2 ^ 30
  else if o = 0x020 then s.timeOfs.toNat
  else if o = 0x028 then (if s.fwGo then 1 else 0) + s.fwActive * 2 + s.fwStatus * 2 ^ 8
  else if o = 0x030 then s.fwStage.toNat
  else if 0x040 ≤ o ∧ o < 0x060 then SMap.get 0 s.jhead ((o - 0x040) / 8)
  else if 0x060 ≤ o ∧ o < 0x080 then SMap.get 0 s.jlost ((o - 0x060) / 8)
  else 0
/-- The registers of a handle page (R348, R349); a write-only one reads 0. -/
def handleRead (k : Handle) (o : Nat) : Nat :=
  if o = 0x000 then k.ver + k.st * 2 ^ 30
  else if o = 0x008 then (if k.signReq then 1 else 0)
  else if o = 0x028 then (if k.busy then 2 ^ 63 else 0) + k.status
  else 0
/-- The energy record of a context, in words (R341); of a number that no context has it reads 0. -/
def energyRecord (s : State) (ctx : Nat) : List Nat :=
  let r := s.region ctx
  if r.phase = .none then [0, 0, 0, 0]
  else [ctx + (if r.esat then 2 ^ 16 else 0) + (if r.exh then 2 ^ 17 else 0), r.energy, r.quota, r.overE]
/-- The place past the register window at which the model puts the control register of Resizable BAR for the memory window: bits [13:8]
are n for a size of 2^(20 + n) bytes, from 8, 256 MiB, to 16, 64 GiB (R342, R343; PRESUMED; assumptions 5). -/
def barSizeReg : Nat := 2 ^ 25
/-- The 64-bit word that the host reads at an offset of the register window: 0 outside its blocks, in the capability list before Dawn has
ended, and everywhere in recovery (R344, R353, R356; assumptions 61). -/
def State.regRead (s : State) (off : Nat) : Nat :=
  if off = barSizeReg then (s.mwSize.log2 - 20) * 2 ^ 8
  else if s.recovery then 0
  else if off < 0x10000 then (if s.booted then (capWords 0 (capabilities s)).getD (off / 8) 0 else 0)
  else if off < 0x11000 then controlRead s (off - 0x10000)
  else if 0x100000 ≤ off ∧ off < 0x140000 then handleRead (SMap.get {} s.handles ((off - 0x100000) / 0x1000)) ((off - 0x100000) % 0x1000)
  else if 0x200000 ≤ off ∧ off < 0x400000 then (energyRecord s ((off - 0x200000) / 32)).getD ((off - 0x200000) % 32 / 8) 0
  else 0

/-! ## The event journal in memory (R357) -/

/-- The 32 bytes of a journal entry. -/
def JEnt.bytes (e : JEnt) : List Byte :=
  bytesOf e.dtime 8 ++ bytesOf e.instant 8 ++ bytesOf e.ctx 2 ++ bytesOf e.kind 2 ++ bytesOf e.core 4 ++ bytesOf e.data 8
/-- The ring's base and size in bytes, as the firmware reports them through the mailbox: the rings lie apart in HBM, below what the
firmware's allocator hands out (the model's choice; assumptions 10). -/
def journalReport (die : Nat) : Nat × Nat :=
  (die * 0x1C00000000 + 64 * (Config.journalBase die % (0x1C00000000 / 64 - Config.journalRing)), 32 * Config.journalRing)
/-- The entries of a die's journal that do not stand in its ring yet, by their index. -/
def journalNew (s : State) (die : Nat) : List (Nat × JEnt) :=
  let l := (s.journal.filter fun p => p.1 = die).map Prod.snd
  let first := SMap.get 0 s.jhead die - l.length
  ((List.range l.length).zip l).filterMap fun p => if SMap.get 0 s.jdone die ≤ first + p.1 then some (first + p.1, p.2) else none
/-- New entries of the journals are written to their rings, each over the oldest where the ring is full (R357). -/
def journalFlush (s : State) : List Act :=
  (List.range 4).flatMap fun d =>
    if SMap.get 0 s.jdone d = SMap.get 0 s.jhead d then []
    else
      memWrite ((journalNew s d).flatMap fun p =>
        ((List.range 32).zip p.2.bytes).map fun b => (memKey 0 ((journalReport d).1 + 32 * (p.1 % Config.journalRing) + b.1), b.2)) false ++
        [.pkg (.jdone d (SMap.get 0 s.jhead d))]
/-- The entries of all dies, merged by DTIME and then by die number. -/
def mergedJournal (s : State) : List (Nat × JEnt) :=
  let rec put (x : Nat × JEnt) : List (Nat × JEnt) → List (Nat × JEnt)
    | [] => [x]
    | y :: l => if x.2.dtime < y.2.dtime ∨ (x.2.dtime = y.2.dtime ∧ x.1 < y.1) then x :: y :: l else y :: put x l
  s.journal.foldl (fun l x => put x l) []

/-! ## The device control block and the memory window (R343 to R345) -/

/-- POWERCAP (R345). -/
def evPowercap (v : DWord) (_s : State) : List Act := [.pkg (.powercap (max 600 (min 2400 v.toNat)))]
/-- RESETREQ (R345). -/
def evResetreq (v : DWord) (s : State) : List Act := if v = 0x5741524D then warmReset s [] else []
/-- A byte lies in the area of a context's save image, whose layout is not given (R322; assumptions 25). -/
def State.imageByte (s : State) (key : Nat) : Bool :=
  s.regions.any fun p => p.2.images ≠ [] && decide (memKey 0 p.2.imageAt ≤ key) && decide (key < memKey 0 p.2.imageAt + p.2.w * p.2.h * Config.saveMax)
/-- The place of a byte of the memory window; none past the window's size or the tier's end (R343). -/
def State.window (s : State) (off : Nat) : Option Nat :=
  let pa := s.mwBase * 2 ^ 30 + off
  if off < s.mwSize ∧ pa < tierSize s.mwTier then some (memKey s.mwTier pa) else none
/-- The byte that the window reads at a place: free in a save image, else memory's. -/
def State.windowByte (s : State) (i key : Nat) : Nat := if s.imageByte key then s.free i 256 else (s.byte key).toNat
/-- HOST_MEMORY_ACCESS (R343): n bytes from an offset of the memory window; past the window's or the tier's end a read gives ones and a
write is discarded. A read of a poisoned block carries an error (R228). -/
def evHostMemoryAccess (off len : Nat) (wr : Bool) (data : Nat) (s : State) : List Act :=
  if wr then memWrite (((List.range len).zip (bytesOf data len)).filterMap fun p => (s.window (off + p.1)).map fun k => (k, p.2)) false
  else
    let keys := (List.range len).map fun i => s.window (off + i)
    let byte := fun (i : Nat) => match s.window (off + i) with | some k => s.windowByte i k | none => 255
    .pkg (.hostRead ((List.range len).foldr (fun i n => byte i + 256 * n) 0) (keys.any fun k => k.any s.memErr)) ::
      if s.mwTier = 0 && keys.any (fun k => k.any s.imageByte) then [.pkg (.takeFree len)] else []

/-! ## Handles (R348 to R350, R355) -/

/-- A handle is open. -/
def State.opened (s : State) (h : Nat) : Bool := let k := SMap.get {} s.handles h; k.st = 1 && !k.closing
/-- The graphs of a handle fail as it closes, and with them their nodes that wait for a relaunch: one with no node left that runs completes at
once, with status KILLED (R283, R349). -/
def failGraphs : State → List Graph → List Act
  | _, [] => []
  | s, g :: l =>
    let ends := fun (x : Node) => if x.again && x.swapped = 0 then { x with st := .failed } else x
    let a := graphPut s { g with checked := true, status := if g.status = 0 then 2 else g.status, nodes := g.nodes.map ends }
    a ++ failGraphs (s.applyAll a) l
/-- HOPEN (R349): the address space that opens is a table of the allocator's, empty; the one that closes is freed once the last context
of the handle has drained. In Dusk its contexts are killed, and the rest of the close is held (R358). What HOPEN does once the allocator has
used up the HBM is not given: it goes on to addresses past the tier (R2; the model's choice; assumptions 11). -/
def evHopen (h : Nat) (v : DWord) (s : State) : List Act :=
  let k := SMap.get {} s.handles h
  let ver := fld v.toNat 0 16
  if 64 ≤ h ∨ (k.closing ∧ ver ≠ 0) then []
  else if ver = 0 then
    if k.st ≠ 1 then [.pkg (.handle h { signReq := k.signReq })]
    else
      let mine := s.regions.filter fun p => p.2.handle = h ∧ p.2.phase ≠ .none
      let stop := if k.closing then [] else .pkg (.handle h { k with closing := true }) :: mine.map fun p => .reg p.1 (.kill 2)
      if s.dusk then (if k.closing then [] else stop ++ [.pkg (.heldWork (s.heldWork ++ [(0, .hopen h v)]))])
      else
        let s1 := s.applyAll stop
        let a := failGraphs s1 (s1.graphs.filter fun g => g.handle = h)
        stop ++ a ++ if mine.isEmpty then freeHandle (s1.applyAll a) h else []
  else if k.st = 1 then []
  else if ver / 256 = 1 then
    [.pkg (.handle h { st := 1, ver := min ver Config.abiVersion, signReq := k.signReq, root := s.hbmNext }),
     .pkg (.memClear (memKey 0 s.hbmNext) 65536), .pkg (.hbmNext (s.hbmNext + 65536)), .pkg (.memOwner ((h, memKey 0 s.hbmNext, 65536) :: s.memOwner))]
  else [.pkg (.handle h { st := 2, signReq := k.signReq })]
/-- HFLAGS (R348). -/
def evHflags (h : Nat) (v : DWord) (s : State) : List Act :=
  if 64 ≤ h ∨ s.handleBusy h then [] else [.pkg (.handle h { SMap.get {} s.handles h with signReq := v.getLsbD 0 })]
/-- SUBMIT (R264, R348). One that Dusk has held, before a close that it holds too, is applied in its order, and the close then fails its
graph (R283, R358). -/
def evSubmit (h : Nat) (v : DWord) (s : State) : List Act :=
  if s.opened h || ((SMap.get {} s.handles h).st = 1 && !s.dusk && s.closePending h) then orHeld s 0 (.submit h v) (submitGraph s h v.toNat) else []
/-- KILL (R325, R348). -/
def evKill (h : Nat) (v : DWord) (s : State) : List Act :=
  let ctx := fld v.toNat 0 16
  let r := s.region ctx
  if !s.opened h then []
  else if r.phase = .none ∨ r.handle ≠ h then [s.note 0 13 ctx 0 h]
  else [.reg ctx (.kill 2)]
/-- A write to HCMD (R350): the command runs, and ends at a cycle that is a free value; one at a time. -/
def hcmdStart (s : State) (h op blk : Nat) : List Act :=
  let k := SMap.get {} s.handles h
  if !s.opened h || k.busy then []
  else [.pkg (.handle h { k with busy := true }), .pkg (.later (s.now + 1 + s.free 0 0) (.hcmd h op blk)), .pkg (.takeFree 1)]
/-- The operation that a command block names (R350). -/
def State.blockOp (s : State) (blk : Nat) : Nat := s.bytesAt (memKey 0 blk) 8
/-- The row of an operation is a write to HCMD of a block that names it. -/
def hcmdRow (s : State) (h op blk : Nat) : List Act := if s.blockOp blk = op then hcmdStart s h op blk else []
def evHcmdMap (h blk : Nat) (s : State) : List Act := hcmdRow s h 1 blk
def evHcmdUnmap (h blk : Nat) (s : State) : List Act := hcmdRow s h 2 blk
def evHcmdAllocateMap (h blk : Nat) (s : State) : List Act := hcmdRow s h 3 blk
def evHcmdRegisterKey (h blk : Nat) (s : State) : List Act := hcmdRow s h 4 blk
/-- The key of the entry of a leaf's level on the path to a page, where the path has no leaf above it. -/
def State.slotFree (s : State) (h va level : Nat) : Bool :=
  match s.walkFrom va 3 (SMap.get {} s.handles h).root with
  | some p => decide (p.2 ≤ level)
  | none => true
/-- Physical bytes belong to another handle (R350). -/
def State.foreign (s : State) (h key n : Nat) : Bool :=
  s.memOwner.any fun p => p.1 ≠ h && decide (p.2.1 < key + n) && decide (key < p.2.1 + p.2.2)
/-- A TLB still holds an old translation of a range, or a walk to it is in flight (R239). -/
def State.rangeStale (s : State) (h lo n : Nat) : Bool :=
  let old := fun (e : TlbEnt) => s.meets h lo n e && (s.walk e.ctx e.base).map TlbEnt.pte ≠ some e.pte
  (s.dieTlb.any fun p => p.2.any old) || ((s.handleCores h).any fun c => c.tlb.any old) ||
    s.walks.any fun w => s.meets h lo n ⟨w.va, 1, w.ctx, 0, false⟩
/-- A command has run: it ends at once, or where it changed a range, once no TLB holds an old translation of it (R239, R350). -/
def hcmdEnds (s : State) (h status lo n : Nat) : List Act := [.pkg (.later (s.now + 1) (.hcmdEnd h status lo n))]
def hcmdEnd (s : State) (h status lo n : Nat) : List Act :=
  let k := SMap.get {} s.handles h
  if !s.opened h then []
  else if n ≠ 0 && s.rangeStale h lo n then hcmdEnds s h status lo n
  else [.pkg (.handle h { k with busy := false, status := status })]
/-- The handle's list of node-owned pages as n bytes from an address change: they leave it, or become one page of it (R230). -/
def ownedPage (k : Handle) (va n : Nat) (yes : Bool) : Handle :=
  { k with owned := (if yes then [va] else []) ++ k.owned.filter fun a => !(decide (va ≤ a) && decide (a < va + n)) }
/-- The pages of a range leave every TLB of the handle's contexts, and the translations that copy steps have collected (R239). -/
def invalidateRange (s : State) (h va n : Nat) : List Act :=
  (s.regions.filter fun p => p.2.handle = h ∧ p.2.phase ≠ .none).flatMap fun p =>
    let held := (s.dieTlb.flatMap Prod.snd) ++ p.2.ids.flatMap fun id => (s.core id).tlb ++ (s.core id).cp.xl
    let bases := (held.filter fun e => e.ctx = p.1 && s.meets h va n e).map TlbEnt.base
    ((va :: bases).eraseDups).map fun a => .pkg (.later (s.now + 1) (.ev (coreId p.1 0) (.tlbInvalidate p.1 a)))
/-- A page of a handle changes, and what else a larger leaf there maps stays as it is: not while a context has it locked; status 2 where its
tables find no memory (R239, R350). -/
def hcmdPage (s : State) (h op blk va level pte : Nat) (take : List Act) : List Act :=
  let s1 := s.applyAll take
  let l := take ++ ownActs s1 h (mapPage s1 h va level pte)
  if s.rangeLocked h va (pageSize level) then [.pkg (.later (s.now + 1) (.hcmd h op blk))]
  else if tierSize 0 < (s.applyAll l).hbmNext then hcmdEnds s h 2 0 0
  else
    let k := SMap.get {} s.handles h
    let split := match s.walkFrom va 3 k.root with | some p => if level < p.2 then splitOwned k va p.2 else k | none => k
    l ++ invalidateRange s h va (pageSize level) ++ [.pkg (.handle h (ownedPage split va (pageSize level) (pteV pte && pteNO pte)))] ++
    hcmdEnds s h 0 va (pageSize level)
/-- A command runs: its effect, or its refusal (status 1) or lack of memory (2); one whose handle has closed is gone (R230, R231, R239,
R350, R355). -/
def hcmdRun (s : State) (h op blk : Nat) : List Act :=
  let k := SMap.get {} s.handles h
  let rd := fun (i : Nat) => s.bytesAt (memKey 0 (blk + 8 * i)) 8
  let va := rd 1
  let pa := rd 2
  let attr := rd 3 / 2 ^ 39 * 2 ^ 39
  let leaf := pteLeaf attr
  let level := leaf - 1
  let size := pageSize level
  let good := fun (pte : Nat) => decide (1 ≤ leaf) && va % size = 0 && decide (va + size ≤ 2 ^ 52) && pteV pte && leafOk pte level && s.slotFree h va level
  let again := [Act.pkg (.later (s.now + 1) (.hcmd h op blk))]
  if !s.opened h then []
  else if (List.range 32).any fun i => s.memErr (memKey 0 (blk + i)) then hcmdEnds s h 1 0 0
  else if op = 1 then
    let pte := attr + pa / 4096
    let key := memKey (pteTier pte) pa
    if pa % 4096 ≠ 0 ∨ 2 ^ 51 ≤ pa ∨ !good pte ∨ (pteScope pte < 4 ∧ s.foreign h key size) then hcmdEnds s h 1 0 0
    else if s.nodeHeld key size then again
    else hcmdPage s h op blk va level pte []
  else if op = 2 then
    if leaf = 0 ∨ va % size ≠ 0 ∨ 2 ^ 52 < va + size ∨ !pteV (s.entryFrom va level 3 k.root) then hcmdEnds s h 1 0 0
    else hcmdPage s h op blk va level 0 []
  else if op = 3 then
    let next := if pteTier attr = 0 then s.hbmNext else s.lpdNext
    let base := (next + size - 1) / size * size
    if 2 ≤ pteTier attr ∨ !good attr then hcmdEnds s h 1 0 0
    else if tierSize (pteTier attr) < base + size then hcmdEnds s h 2 0 0
    else hcmdPage s h op blk va level (attr + base / 4096)
      [.pkg (if pteTier attr = 0 then .hbmNext (base + size) else .lpdNext (base + size)), .pkg (.memOwner ((h, memKey (pteTier attr) base, size) :: s.memOwner))]
  else if op = 4 ∧ k.keys.length < 4 ∧ !(List.range 132).any (fun i => s.memErr (memKey 0 (pa + i))) then
    .pkg (.handle h { k with keys := k.keys ++ [s.bytesAt (memKey 0 pa) 132] }) :: hcmdEnds s h 0 0 0
  else hcmdEnds s h 1 0 0
/-- A write to a register of a handle page (R348). -/
def handleWrite (s : State) (h o : Nat) (v : DWord) : List Act :=
  if o = 0x000 then evHopen h v s
  else if o = 0x008 then evHflags h v s
  else if o = 0x010 then evSubmit h v s
  else if o = 0x018 then evKill h v s
  else if o = 0x020 then hcmdStart s h (s.blockOp v.toNat) v.toNat
  else []

/-! ## Wyrex ports and time (R351, R352) -/

/-- The places of n bytes from an address on this module. -/
def moduleKeys (addr n : Nat) : List Nat := ((List.range n).filter fun i => decide (addr + i < 2 ^ 39)).map fun i => memKey 0 (addr + i)
/-- What an accepted flit for this module does: kinds 1 and 3 store its bytes, as a store or as a copy's; kind 2 loads; kind 16 + n is the
atomic of sub n, from version 1.1 on. A load or an atomic is answered (R237, R351; kind numbers, assumptions 19). -/
def flitActs (s : State) (port : Nat) (p : Port) (src kind addr len data : Nat) : List Act :=
  let n := min len 224
  let put := fun (q : Port) => [Act.pkg (.port port q)]
  let keys := moduleKeys addr n
  if kind = 1 ∨ kind = 3 then put p ++ memWrite (keys.zip (bytesOf data n)) false
  else if kind = 2 then put { p with answers := p.answers ++ [(src, keys.foldr (fun k m => (s.byte k).toNat + 256 * m) 0, keys.any s.memErr)] }
  else if 16 ≤ kind ∧ kind < 26 ∧ 0x0101 ≤ p.version ∧ addr % 8 = 0 ∧ addr + 8 ≤ 2 ^ 39 then
    let ks := moduleKeys addr 8
    let m := ks.foldr (fun k m => (s.byte k).toNat + 256 * m) 0
    let r := amoApply (kind - 16) m (BitVec.ofNat 64 data) (BitVec.ofNat 64 (data / 2 ^ 64))
    put { p with answers := p.answers ++ [(src, m, ks.any s.memErr)] } ++ memWrite (ks.zip (bytesOf r.1 8)) false
  else put p
/-- FLIT_RECEIVE (R351): a flit with a good CRC and the next sequence number is accepted, and acts on this module where it is the flit's
destination; any other is replayed. -/
def evFlitReceive (port dst src kind seq addr len data : Nat) (crcOk : Bool) (s : State) : List Act :=
  let p := SMap.get {} s.ports port
  if 18 ≤ port ∨ !p.up ∨ 256 ≤ src then []
  else if !crcOk ∨ seq % 4096 ≠ p.expect then [.pkg (.port port { p with replays := p.replays + 1 })]
  else
    let q := { p with expect := (p.expect + 1) % 4096 }
    if dst = s.modNo then flitActs s port q src kind addr len data else [.pkg (.port port q)]
/-- A place in the memory of a peer module (R226). -/
def ofPeer (peer key : Nat) : Bool := decide (3 * 2 ^ 51 ≤ key) && fld (key - 3 * 2 ^ 51) 43 8 = peer % 256
/-- What is in flight over a peer's route: reads and writes of cores and copies, with their contexts and cores (R351). -/
def inFlight (s : State) (peer : Nat) : List (Bool × Nat × Nat) :=
  s.regions.flatMap fun p =>
    (p.2.ids.flatMap fun id => (s.core id).untimed.filterMap fun u =>
      if u.parts.any fun x => x.got.isNone && x.keys.any (ofPeer peer) then some (false, p.1, id % 2048) else none) ++
    (p.2.released.filterMap fun e => if e.bytes.any fun b => ofPeer peer b.key then some (true, p.1, 0) else none) ++
    (p.2.copies.filterMap fun c => if (gmKeys ((c.moves ++ c.rest).map Mv.dst).flatten ++ gmKeys c.stampTo).any (ofPeer peer) then some (true, p.1, c.core % 2048)
      else if !c.paid && c.payloadKeys.any (ofPeer peer) then some (false, p.1, c.core % 2048) else none)
/-- A load or atomic loses the parts that are in flight over the route: they return data with an error, and an atomic writes nothing (R321,
R351). -/
def Untimed.lose (peer : Nat) (u : Untimed) : Untimed :=
  let gone := fun (p : UPart) => p.got.isNone && p.keys.any (ofPeer peer)
  if u.parts.any gone then
    Untimed.answered { u with parts := u.parts.map fun p => if gone p then { p with got := some (0, true) } else p } false
  else u
/-- A copy loses what it has not read over the route, what it would write over it, and a stamp that goes there (R351). -/
def Copy.lose (peer : Nat) (c : Copy) : Copy :=
  let away := fun (l : List Loc) => (gmKeys l).any (ofPeer peer)
  let lose := fun (read : Bool) (l : List Mv) => (l.filter fun m => !away m.dst).map fun m => if !read && away m.srcs then { m with src := .lost } else m
  { c with moves := lose (c.vals ≠ []) c.moves, rest := lose false c.rest
           vals := c.vals.filter fun v => !away v.dst, lost := c.lost || away c.stampTo }
/-- A peer has a route: its table entry names a port, and the port is up (R351). -/
def State.routeUp (s : State) (peer : Nat) : Bool :=
  let p := SMap.get 0 s.routes peer
  p ≠ 0 && (SMap.get {} s.ports (p - 1)).up
/-- A route has gone down: reads in flight over it return data with an error, and writes in flight are discarded, though the route come
back; each is journaled, a read with kind 18, a write with kind 19 (R351). -/
def loseRoute (s : State) (peer : Nat) : List Act :=
  s.note 0 14 0 0 peer :: ((inFlight s peer).map fun p => s.note 0 (if p.1 then 19 else 18) p.2.1 p.2.2 peer) ++
    s.regions.flatMap fun p =>
      [.reg p.1 (.copies (p.2.copies.map (Copy.lose peer))), .reg p.1 (.released (p.2.released.map fun e =>
        { e with bytes := e.bytes.filter fun b => !ofPeer peer b.key }))] ++
      p.2.ids.filterMap fun id => if (s.core id).untimed = [] then none else some (.core id (.untimedSet ((s.core id).untimed.map (Untimed.lose peer))))
def loseRoutes : State → List Nat → List Act
  | _, [] => []
  | s, peer :: l => let a := loseRoute s peer; a ++ loseRoutes (s.applyAll a) l
/-- What an update of ports or of the routing table does: the routes that were up and are no more have gone down. -/
def rerouted (s : State) (a : List Act) : List Act :=
  let s1 := s.applyAll a
  a ++ loseRoutes s1 ((s.routes.map Prod.fst).filter fun q => s.routeUp q && !s1.routeUp q)
/-- ROUTE_DOWN (R351). -/
def evRouteDown (peer : Nat) (s : State) : List Act :=
  let a := [Act.pkg (.route (peer % 256) 0)]
  a ++ loseRoute (s.applyAll a) peer
/-- LINK_TRAINING (R351): the highest version that both partners support. -/
def evLinkTraining (port lo hi : Nat) (s : State) : List Act :=
  let v := min hi Config.linkVersion
  if 18 ≤ port then []
  else rerouted s [if max lo 0x0100 ≤ v then .pkg (.port port { up := true, version := v }) else .pkg (.port port {})]
/-- ROUTING_TABLE_WRITE (R351, R352): a port below 18 is the route to a peer; 256 names the peer that disciplines time; any other
removes the route. -/
def evRoutingTableWrite (peer port : Nat) (s : State) : List Act :=
  if port = 256 then [.pkg (.timePeer (peer % 256 + 1))]
  else rerouted s [.pkg (.route (peer % 256) (if port < 18 then port + 1 else 0))]
/-- Time comes from the host, or from a peer that the host has named, over a link of version 1.2 (R351, R352). -/
def State.hasTimeSource (s : State) : Bool :=
  s.timePeer = 0 || (let p := SMap.get 0 s.routes (s.timePeer - 1)
    p ≠ 0 && (SMap.get {} s.ports (p - 1)).up && decide (0x0102 ≤ (SMap.get {} s.ports (p - 1)).version))
/-- PTM_EXCHANGE (R352): DTIME is slewed toward the time of the host or of the peer by at most 100 ppm, so that it never steps. -/
def evPtmExchange (host : Nat) (s : State) : List Act :=
  let diff : Int := (host : Int) - (s.dtime + s.timeOfs.toNat : Nat)
  if s.hasTimeSource then [.pkg (.slew (max (-100) (min 100 (diff / 10))))] else []

/-! ## Measurements, Dusk and live update (R353, R354, R358 to R360) -/

/-- The fuse map as a number, and the kernel keys of every open handle, one behind another; a key has 132 bytes (R271, R350, R354). -/
def fuseWord (s : State) : Nat := (s.fuse.map fun p => if p.2 then 2 ^ p.1 else 0).sum
def keyWord (s : State) : Nat :=
  ((s.handles.filter fun p => p.2.st = 1).flatMap fun p => p.2.keys).foldl (fun n k => n * 2 ^ 1057 + 2 ^ 1056 + k) 0
/-- The measurements: the ROM, the active image as it was measured, the fuses, and the registered keys (R354, R359). What a measurement is of
what it measures is free (assumptions 5). -/
def measurements (s : State) : List Nat :=
  [Config.measure 1 0, SMap.get 0 s.meas 2, Config.measure 3 (fuseWord s), Config.measure 4 (keyWord s)]
/-- GET_MEASUREMENTS (R354): the four measurements and a signature, whose value is free. -/
def evGetMeasurements (s : State) : List Act :=
  [.pkg (.report (measurements s ++ [Config.freeNat s.freeCtr])), .pkg (.takeFree 1)]
/-- The measurement of a firmware image (R354, R359). -/
def FwSlot.measure (x : FwSlot) : Nat := Config.measure 2 (x.version + x.build * 2 ^ 64)
/-- Dusk ends: the held work is applied in order (R358). -/
def endDusk (s : State) : List Act :=
  [.pkg (.dusk false), .pkg (.heldWork [])] ++ s.heldWork.map fun p => .pkg (.later s.now (.ev p.1 p.2))
/-- The image at FWSTAGE, as it stands there when the update starts: slot 2. What an image's bytes say is free (R359; assumptions 5). -/
def stagedImage (n : Nat) : FwSlot :=
  let f := Config.freeFirmware n
  { version := f 0 % 2 ^ 64, build := f 1 % 2 ^ 64, good := f 2 % 2 = 1, writes := f 3 % 2 ^ 16, reads := (List.range (f 4)).map fun i => f (5 + i) % 2 ^ 8 }
/-- FWCTL (R358 to R360). -/
def evFwctl (v : DWord) (s : State) : List Act :=
  if !v.getLsbD 0 || s.fwGo then []
  else [.pkg (.fw 0 s.fwActive true), .pkg (.dusk true), .pkg (.update { phase := 1 }), .pkg (.slot 2 (stagedImage s.freeCtr)),
        .pkg (.later (s.now + 1 + s.free 1 0) (.ev 0 .updateSignatureCheck)), .pkg (.takeFree 2)]
/-- CRC-32C with the parameters of R75. -/
def crc32c (l : List Nat) : Nat := crcBytes 0xFFFFFFFF l ^^^ 0xFFFFFFFF
/-- The handover structure that an image writes: its version, a body that is free, and the CRC of the body (R359; assumptions 5). -/
def FwSlot.hands (x : FwSlot) (n : Nat) : Handover :=
  let body := (List.range (Config.freeNat n % 2 ^ 32)).map fun i => Config.measure 5 (n + i) % 256
  { version := x.writes, body := body, crc := crc32c body }
/-- An image can read a handover structure: it knows the major version and the CRC matches (R359). -/
def Handover.readable (x : Handover) (img : FwSlot) : Bool := img.reads.contains (x.version / 256) && x.crc = crc32c x.body
/-- UPDATE_SIGNATURE_CHECK (R353, R359): a staged image that verifies goes into the inactive slot and starts, after the old one has written
the handover structure; where it cannot read that, it has missed its heartbeat. -/
def evUpdateSignatureCheck (s : State) : List Act :=
  let img := SMap.get {} s.slots 2
  if s.update.phase ≠ 1 then []
  else if !img.good then [.pkg (.fw 2 s.fwActive false), .pkg (.update {})] ++ endDusk s
  else
    let x := (SMap.get {} s.slots s.fwActive).hands s.freeCtr
    [.pkg (.slot (1 - s.fwActive) img),
     .pkg (.update { phase := 2, deadline := if x.readable img then s.dtime + 100000000 else s.dtime, oldMeas := SMap.get 0 s.meas 2, hand := some x }),
     .pkg (.meas 2 img.measure), .pkg (.takeFree 1)]
/-- FIRMWARE_HEARTBEAT (R359): the first one of a new image that could read the handover structure, within its 100 ms, makes its slot
active and ends Dusk. -/
def evFirmwareHeartbeat (s : State) : List Act :=
  if s.update.phase = 2 && decide (s.dtime ≤ s.update.deadline) && (s.update.hand.all fun x => x.readable (SMap.get {} s.slots (1 - s.fwActive))) then
    [.pkg (.fw 1 (1 - s.fwActive) false), .pkg (.update {})] ++ endDusk s
  else []
/-- UPDATE_HEARTBEAT_TIMEOUT (R359): the old image restarts, measurement 2 is restored and STATUS is 3. -/
def evUpdateHeartbeatTimeout (s : State) : List Act :=
  if s.update.phase ≠ 2 then []
  else [.pkg (.fw 3 s.fwActive false), .pkg (.meas 2 s.update.oldMeas), .pkg (.update {})] ++ endDusk s
/-- REGISTER_WRITE (R341, R344, R345, R348): the register at an offset takes the value; any other offset, and a read-only register, ignore
it. -/
def evRegisterWrite (off : Nat) (v : DWord) (s : State) : List Act :=
  if off = 0x10000 then evPowercap v s
  else if off = 0x10008 then evResetreq v s
  else if off = 0x10010 then [.pkg (.mw (v.toNat % 2) s.mwBase)]
  else if off = 0x10018 then [.pkg (.mw s.mwTier (fld v.toNat 30 10))]
  else if off = 0x10020 then [.pkg (.timeOfs v)]
  else if off = 0x10028 then evFwctl v s
  else if off = barSizeReg then (if 8 ≤ fld v.toNat 8 6 ∧ fld v.toNat 8 6 ≤ 16 then [.pkg (.mwSize (2 ^ (20 + fld v.toNat 8 6)))] else [])
  else if off = 0x10030 then [.pkg (.fwStage (v &&& ~~~0xFFF#64))]
  else if 0x100000 ≤ off ∧ off < 0x140000 then handleWrite s ((off - 0x100000) / 0x1000) ((off - 0x100000) % 0x1000) v
  else if 0x200000 ≤ off ∧ off < 0x400000 ∧ off % 32 = 16 then
    let ctx := (off - 0x200000) / 32
    if (s.region ctx).phase = .none then [] else quotaActs s ctx v.toNat
  else []

/-! ## Dawn (R318, R327, R353, R356) -/

/-- A cluster as Dawn calibrates it: the lowest code that passes, plus two, at most 16, and its threshold factor, from 1/8 to 2/3, are
free values (R327, R331). -/
def calibrated (s : State) (n : Nat) : Cluster :=
  { code := min 16 (2 + s.free (2 * n) 17), factor := 2 ^ 21 + s.free (2 * n + 1) (2 ^ 25 / 3 - 2 ^ 21 + 1) }
/-- The nodes of touched regions are re-queued, or complete with status RESET; every context that is not swapped out is gone. -/
def loseRegions (s : State) : List Nat → List Act
  | [] => []
  | ctx :: l =>
    let r := s.region ctx
    let a := (if r.rst && r.action ≠ 4 then requeueNode s r else nodeDone s r.gid r.node (if r.action = 4 then r.status else 4)) ++ freeContext s ctx
    let b := a ++ closeHandle (s.applyAll a) r.handle
    b ++ loseRegions (s.applyAll b) l
/-- A region that the warm reset has kept and whose groups have all ended: its node completes after Dawn (R282, R318, R319). -/
def State.endedKept (s : State) (ctx : Nat) : Bool :=
  s.kept.contains ctx && (s.region ctx).phase = .run && (s.live (s.region ctx)).isEmpty
/-- A cold Dawn: nothing of an earlier run is left, and DTIME starts at 0 (R352, R356). -/
def coldClear (s : State) : List Act :=
  s.regions.flatMap (fun p => freeContext s p.1) ++ s.handles.map (fun p => .pkg (.handle p.1 {})) ++
    s.mem.map (fun p => .pkg (.mem p.1 0)) ++ s.memBad.map (fun p => .pkg (.memBad p.1 false)) ++
    s.routes.map (fun p => .pkg (.route p.1 0)) ++ s.msi.map (fun p => .pkg (.msi p.1 {})) ++ s.vofs.map (fun p => .pkg (.vof p.1 none)) ++
    [.pkg (.graphs []), .pkg (.walks []), .pkg (.memOwner []), .pkg (.nodePages []), .pkg (.hbmNext 0x7000000000), .pkg (.lpdNext 0xC000000000),
     .pkg (.heldWork []), .pkg (.agenda []), .pkg .journalClear, .pkg (.time 0), .pkg (.slew 0), .pkg (.powercap 2400), .pkg (.mw 0 0),
     .pkg (.timeOfs 0), .pkg (.fwStage 0), .pkg (.mwSize (2 ^ 28))]
/-- DAWN (R353, R356): the boot ROM takes the active slot whose signature verifies, or the other; with neither the device stays
in recovery. The ports train anew. A warm Dawn keeps the contexts that were saved (R318), and the work that Dusk held is applied
(R358). -/
def evDawn (s : State) : List Act :=
  let a := SMap.get {} s.slots s.fwActive
  let b := SMap.get {} s.slots (1 - s.fwActive)
  let active := if a.good then s.fwActive else 1 - s.fwActive
  let first := if s.dawnCold then coldClear s ++ [.pkg (.dusk false)]
    else loseRegions s ((s.regions.filter fun p => p.2.phase ≠ .out ∧ p.2.phase ≠ .none ∧ !s.endedKept p.1).map Prod.fst) ++ endDusk s
  first ++ s.ports.map (fun p => .pkg (.port p.1 {})) ++ [.pkg (.update {}), .pkg (.kept [] 0), .pkg (.dawnCold true), .pkg (.dawnAt (if s.dawnCold then 0 else s.dtime)), .pkg (.reserved none)] ++
    if !a.good && !b.good then [.pkg (.booted false true)]
    else
      [.pkg (.fw 0 active false)] ++ (List.range 96).map (fun n => .pkg (.cluster n (calibrated s n))) ++
        [.pkg (.meas 2 (SMap.get {} s.slots active).measure), .pkg (.takeFree 192), .pkg (.booted true false)]

-- The meanings: one for each instruction of this file.
/-- POWERCAP (R345). -/
def execPowercap (v : DWord) (s : State) : Host.Outcome State Fault Refusal := settle s (evPowercap v s)
/-- RESETREQ (R345). -/
def execResetreq (v : DWord) (s : State) : Host.Outcome State Fault Refusal := settle s (evResetreq v s)
/-- FWCTL (R360). -/
def execFwctl (v : DWord) (s : State) : Host.Outcome State Fault Refusal := settle s (evFwctl v s)
/-- FIRMWARE_HEARTBEAT (R359). -/
def execFirmwareHeartbeat (s : State) : Host.Outcome State Fault Refusal := settle s (evFirmwareHeartbeat s)
/-- UPDATE_HEARTBEAT_TIMEOUT (R359). -/
def execUpdateHeartbeatTimeout (s : State) : Host.Outcome State Fault Refusal := settle s (evUpdateHeartbeatTimeout s)
/-- HOPEN (R349). -/
def execHopen (h : Nat) (v : DWord) (s : State) : Host.Outcome State Fault Refusal := settle s (evHopen h v s)
/-- HFLAGS (R348). -/
def execHflags (h : Nat) (v : DWord) (s : State) : Host.Outcome State Fault Refusal := settle s (evHflags h v s)
/-- SUBMIT (R264). -/
def execSubmit (h : Nat) (v : DWord) (s : State) : Host.Outcome State Fault Refusal := settle s (evSubmit h v s)
/-- KILL (R348). -/
def execKill (h : Nat) (v : DWord) (s : State) : Host.Outcome State Fault Refusal := settle s (evKill h v s)
/-- HCMD_MAP (R350). -/
def execHcmdMap (h : Nat) (blk : Nat) (s : State) : Host.Outcome State Fault Refusal := settle s (evHcmdMap h blk s)
/-- HCMD_UNMAP (R350). -/
def execHcmdUnmap (h : Nat) (blk : Nat) (s : State) : Host.Outcome State Fault Refusal := settle s (evHcmdUnmap h blk s)
/-- HCMD_ALLOCATE_MAP (R350). -/
def execHcmdAllocateMap (h : Nat) (blk : Nat) (s : State) : Host.Outcome State Fault Refusal := settle s (evHcmdAllocateMap h blk s)
/-- HCMD_REGISTER_KEY (R350). -/
def execHcmdRegisterKey (h : Nat) (blk : Nat) (s : State) : Host.Outcome State Fault Refusal := settle s (evHcmdRegisterKey h blk s)
/-- REGISTER_WRITE (R344). -/
def execRegisterWrite (off : Nat) (v : DWord) (s : State) : Host.Outcome State Fault Refusal := settle s (evRegisterWrite off v s)
/-- HOST_MEMORY_ACCESS (R343). -/
def execHostMemoryAccess (off : Nat) (len : Nat) (wr : Bool) (data : Nat) (s : State) : Host.Outcome State Fault Refusal := settle s (evHostMemoryAccess off len wr data s)
/-- GET_MEASUREMENTS (R354). -/
def execGetMeasurements (s : State) : Host.Outcome State Fault Refusal := settle s (evGetMeasurements s)
/-- LINK_TRAINING (R351). -/
def execLinkTraining (port : Nat) (lo : Nat) (hi : Nat) (s : State) : Host.Outcome State Fault Refusal := settle s (evLinkTraining port lo hi s)
/-- FLIT_RECEIVE (R351). -/
def execFlitReceive (port : Nat) (ends : Nat × Nat) (kind : Nat) (seq : Nat) (addr : Nat) (len : Nat) (data : Nat) (crcOk : Bool) (s : State) : Host.Outcome State Fault Refusal := settle s (evFlitReceive port ends.1 ends.2 kind seq addr len data crcOk s)
/-- ROUTE_DOWN (R351). -/
def execRouteDown (peer : Nat) (s : State) : Host.Outcome State Fault Refusal := settle s (evRouteDown peer s)
/-- PTM_EXCHANGE (R352). -/
def execPtmExchange (host : Nat) (s : State) : Host.Outcome State Fault Refusal := settle s (evPtmExchange host s)
/-- DAWN (R356). -/
def execDawn (s : State) : Host.Outcome State Fault Refusal := settle s (evDawn s)
/-- UPDATE_SIGNATURE_CHECK (R359). -/
def execUpdateSignatureCheck (s : State) : Host.Outcome State Fault Refusal := settle s (evUpdateSignatureCheck s)
/-- ROUTING_TABLE_WRITE (R351). -/
def execRoutingTableWrite (peer : Nat) (port : Nat) (s : State) : Host.Outcome State Fault Refusal := settle s (evRoutingTableWrite peer port s)

end Sys2Proof.Machine
end

