-- ==== Sys2Proof/Machine/Vector.lean ====
section
/-! DEFINITION. Classes 8 to 10: vector and conversion words (R111 to R128). -/

namespace Sys2Proof.Machine

/-! ## Element functions -/

/-- Class 8 on w-bit elements (R118). -/
def intOp (op w a b : Nat) : Flagged :=
  let sa := toSigned w a
  let sb := toSigned w b
  match op with
  | 0 => ((a + b) % 2 ^ w, 0)
  | 1 => ((a + 2 ^ w - b) % 2 ^ w, 0)
  | 2 => satS w (sa + sb)
  | 3 => satU w (a + b)
  | 4 => (a * b % 2 ^ w, 0)
  | 5 => (ofSigned w (sa * sb / 2 ^ w), 0)
  | 6 => (if sb < sa then b else a, 0)
  | 7 => (if sa < sb then b else a, 0)
  | 8 => (min a b, 0)
  | 9 => (max a b, 0)
  | 10 => (a &&& b, 0)
  | 11 => (a ||| b, 0)
  | 12 => (a ^^^ b, 0)
  | 13 => (a * 2 ^ (b % w) % 2 ^ w, 0)
  | 14 => (a / 2 ^ (b % w), 0)
  | _ => (ofSigned w (sa / 2 ^ (b % w)), 0)

/-- The larger or smaller of two values; NaN if either is, and -0 is below +0 (R119). -/
def pick (bigger : Bool) (a b : FVal) : FVal :=
  if a.isNan ∨ b.isNan then .nan else if ltV true a b = bigger then b else a
/-- Reciprocal, reciprocal root, 2^a and log2 a with their special cases (R119). -/
def funOp (op : Nat) (a : FVal) : FVal × Nat :=
  match op, a with
  | _, .nan => (.nan, 0)
  | 8, .inf n => (.fin n 0 0, 0)
  | 8, .fin n m e => (if m = 0 then .inf n else rcpV n m e, 0)
  | 9, .inf n => if n then (.nan, 8) else (.fin false 0 0, 0)
  | 9, .fin n m e => if m = 0 then (.inf n, 0) else if n then (.nan, 8) else (rsqV m e, 0)
  | 10, .inf n => (if n then .fin false 0 0 else .inf false, 0)
  | 10, .fin n m e => (exp2V n m e, 0)
  | _, .inf n => if n then (.nan, 8) else (.inf false, 0)
  | _, .fin n m e => if m = 0 then (.inf true, 0) else if n then (.nan, 8) else (log2V m e, 0)
/-- Class 9 on elements of a format code, d the old element of td (R119). A scale of VFSCL past ±1024 gives what ±1024 gives. -/
def floatOp (op code a b d : Nat) : Flagged :=
  let w := fmtBits code
  let half := 2 ^ (w - 1)
  let va := decodeElem code a
  let vb := decodeElem code b
  match op with
  | 0 => rnd code (addV va vb)
  | 1 => rnd code (addV va vb.neg)
  | 2 => rnd code (mulV va vb)
  | 3 => let p := mulV va vb; let r := addV p.1 (decodeElem code d); rnd code (r.1, p.2 ||| r.2)
  | 4 => rnd code (pick false va vb, 0)
  | 5 => rnd code (pick true va vb, 0)
  | 6 => (a % half, 0)
  | 7 => ((a + half) % (2 * half), 0)
  | 14 => rnd code (va.scale (max (-1024) (min 1024 (toSigned w b))), 0)
  | 15 => (a % half + b / half % 2 * half, 0)
  | n => rnd code (funOp n va)
/-- The exact sum of a row's elements (R120). -/
def rowSum (l : List FVal) : FVal × Nat :=
  if l.any FVal.isNan then (.nan, 0)
  else if l.contains (.inf false) ∧ l.contains (.inf true) then (.nan, 8)
  else if l.contains (.inf false) then (.inf false, 0)
  else if l.contains (.inf true) then (.inf true, 0)
  else
    let k : Int := (l.map fun v => match v with | .fin _ _ e => e | _ => 0).foldl min 0
    let t : Int := (l.map fun v => v.sInt k).sum
    (if t = 0 then .fin (l.all FVal.sign) 0 0 else .fin (decide (t < 0)) t.natAbs k, 0)
/-- The largest of a row's elements under the rule of VFMAX (R120). -/
def rowMax : List FVal → FVal
  | [] => .nan
  | x :: l => l.foldl (pick true) x

/-- The scale exponent's byte of an MX block, and its elements with flags (R95). -/
def formBlock (code mxf : Nat) (l : List Nat) : Nat × List Flagged :=
  let vs := l.map (decodeElem code)
  if vs.any fun v => match v with | .fin _ _ _ => false | _ => true then (255, l.map fun _ => (0, 0))
  else
    let tops := vs.filterMap fun v => match v with | .fin _ m e => if m = 0 then none else some ((m.log2 : Int) + e) | _ => none
    let emax : Int := if mxf = 1 then 8 else if mxf = 2 then 15 else 2
    let x : Int := match tops.max? with | none => -127 | some t => max (-127) (min 127 (t - emax))
    ((x + 127).toNat, vs.map fun v => let r := convert mxf 0 true (v.scale (-x)); (r.1, r.2 &&& 11))

/-! ## One row of a step (R112) -/

/-- The float compares at a type: result bit and flags (R124). -/
def floatCmp (op : Nat) (a b : FVal) : Bool × Nat :=
  let nan := a.isNan || b.isNan
  match op with
  | 6 => (eqV a b, 0)
  | 7 => (ltV false a b, if nan then 8 else 0)
  | _ => (!nan && (ltV false a b || eqV a b), if nan then 8 else 0)

/-- A whole result row of elements of width w, with its flags. -/
def wholeRow (d r w : Nat) (l : List Flagged) : List CAct :=
  .row d r (BitVec.ofNat 2048 (rowOf w (l.map Prod.fst))) 0 :: orFlags (flagsOf l)
/-- Elements start, start + 1, … of a row, with their flags. -/
def partRow (d r w start : Nat) (l : List Flagged) : List CAct :=
  .rowPart d r (w * start) (w * l.length) (rowOf w (l.map Prod.fst)) :: orFlags (flagsOf l)
/-- Class 8 on a row. -/
def intRow (c : Core) (r op d a b t : Nat) (bv : DWord) : List CAct :=
  let w := 8 * 2 ^ t
  let n := 2048 / w
  wholeRow d r w (List.zipWith (intOp op w) (elems w n (c.row a r)) (tbElems c b r w n bv))
/-- Class 9 on a row; a one-source word gives its a as b. -/
def floatRow (c : Core) (r op d a b t : Nat) (bv : DWord) : List CAct :=
  let code := typeFmt t
  let w := fmtBits code
  let n := 2048 / w
  let xs := elems w n (c.row a r)
  if op = 12 then wholeRow d r w (List.replicate n (rnd code (rowSum (xs.map (decodeElem code)))))
  else if op = 13 then wholeRow d r w (List.replicate n (rnd code (rowMax (xs.map (decodeElem code)), 0)))
  else wholeRow d r w (List.zipWith (fun (p : Nat × Nat) y => floatOp op code p.1 p.2 y)
    (xs.zip (tbElems c b r w n bv)) (elems w n (c.row d r)))
/-- The compares of class 10 (R124). -/
def cmpRow (c : Core) (r op d a b : Nat) (bv ctl : DWord) : List CAct :=
  let code := typeFmt (vctlFt ctl)
  let w := if op < 6 then ewBits ctl else fmtBits code
  let n := 2048 / w
  wholeRow d r w (List.zipWith (fun x y =>
    let p : Bool × Nat := match op with
      | 3 => (decide (x = y), 0)
      | 4 => (decide (toSigned w x < toSigned w y), 0)
      | 5 => (decide (toSigned w x ≤ toSigned w y), 0)
      | _ => floatCmp op (decodeElem code x) (decodeElem code y)
    (if p.1 then 2 ^ w - 1 else 0, p.2)) (elems w n (c.row a r)) (tbElems c b r w n bv))

/-- Scale byte j of row r in a sidecar (R11). -/
def scaleByte (v : Row) (r j : Nat) : Nat := fld v.toNat (8 * (16 * r + j)) 8
/-- The sixteen sidecar bytes of a row. -/
def scaleRow (v : Row) (r : Nat) : Nat := fld v.toNat (128 * r) 128

/-- VCVT on a row (R121). -/
def cvtRow (c : Core) (r d a g mode : Nat) (sat : Bool) (ctl : DWord) : List CAct :=
  let src := vctlSfmt ctl
  let ws := fmtBits src
  let wt := fmtBits g
  let ns := 2048 / ws
  let nt := 2048 / wt
  let p := vctlPart ctl % (max ns nt / min ns nt)
  let scl := vctlScl ctl && (src = 1 || src = 2 || src = 3)
  let one := fun k =>
    let v := decodeElem src (elem (c.row a r) ws k)
    convert g mode sat (if scl then scaled (scaleByte (c.side a) r (k / 32)) v else v)
  if ns < nt then partRow d r wt (p * ns) ((List.range ns).map one)
  else wholeRow d r wt ((List.range nt).map fun j => one (if ns = nt then j else p * nt + j))
/-- VEXP on a row, its sixteen scale bytes included (R122). -/
def expandRow (c : Core) (r d a : Nat) (fold : Bool) (ctl : DWord) : List CAct :=
  let src := vctlSfmt ctl
  let ws := fmtBits src
  let ns := if src = 1 then 256 else if src = 11 then 512 else 340
  let p := if src = 1 then 0 else vctlPart ctl % 2
  let scale := fun k => if src = 11 then 127 else scaleByte (c.side a) r (k / 32)
  let one := fun j =>
    let k := p * 256 + j
    if ns ≤ k then (0, 0)
    else
      let x := elem (c.row a r) ws k
      if fold then foldE4M3 src x (scale k) else (expandE4M3 src x, 0)
  let bytes := (List.range 16).map fun β =>
    if 8 ≤ β ∨ fold ∨ src = 11 ∨ ns ≤ p * 256 + 32 * β then 0x7F else scaleByte (c.side a) r (p * 8 + β)
  wholeRow d r 8 ((List.range 256).map one) ++ [.sidePart d (128 * r) 128 (rowOf 8 bytes)]
/-- VMXS on a row (R123). -/
def mxsRow (c : Core) (r d a : Nat) (ctl : DWord) : List CAct :=
  let src := vctlSfmt ctl
  let mxf := vctlMxf ctl
  let ws := fmtBits src
  let wt := fmtBits mxf
  let ns := 2048 / ws
  let p := vctlPart ctl % (2048 / wt / ns)
  let blocks := (List.range (ns / 32)).map fun β =>
    formBlock src mxf ((List.range 32).map fun k => elem (c.row a r) ws (32 * β + k))
  partRow d r wt (p * ns) (blocks.map Prod.snd).flatten ++
    [.sidePart d (8 * (16 * r + p * ns / 32)) (8 * (ns / 32)) (rowOf 8 (blocks.map Prod.fst))]
/-- VSEL on a row (R125). -/
def selRow (c : Core) (r d a b : Nat) (bv ctl : DWord) : List CAct :=
  let w := ewBits ctl
  let n := 2048 / w
  wholeRow d r w (List.zipWith (fun (p : Nat × Nat) q => (if p.1 ≠ 0 then p.2 else q, 0))
    ((elems w n (c.row d r)).zip (elems w n (c.row a r))) (tbElems c b r w n bv))
/-- The movement words that read row i at +i (R126). -/
def moveRow (c : Core) (r fn d a b : Nat) (bv ctl : DWord) : List CAct :=
  let w := ewBits ctl
  let n := 2048 / w
  let h := w / 2
  let xs := elems w n (c.row a r)
  match fn with
  | 12 => wholeRow d r w ((tbElems c b r w n bv).map fun y => (elem (c.row a r) w (y % n), 0))
  | 13 => [.row d r (c.row a r) 0, .sidePart d (128 * r) 128 (scaleRow (c.side a) r)]
  | 14 => wholeRow d r w ((List.range n).map fun j => (elem (c.row a r) w ((j + bv.toNat % 2 ^ 32 % n) % n), 0))
  | 15 => wholeRow d r h ((xs ++ tbElems c b r w n bv).map fun x => satS h (toSigned w x))
  | 16 => wholeRow d r w ((List.range n).map fun j =>
      (ofSigned w (toSigned h (elem (c.row a r) h (vctlPart ctl % 2 * n + j))), 0))
  | _ => wholeRow d r w ((List.range n).map fun j => ((r * n + j) % 2 ^ w, 0))

/-- What row r of a vector step writes, from the tiles as they stand, the broadcast value and VCTL of its dequeue (R112). -/
def vecRow (i : Instr) (c : Core) (r : Nat) (bv ctl : DWord) : List CAct :=
  match i with
  | .vadd d a b t => intRow c r 0 d.toNat a.toNat b.toNat t.toNat bv
  | .vsub d a b t => intRow c r 1 d.toNat a.toNat b.toNat t.toNat bv
  | .vadds d a b t => intRow c r 2 d.toNat a.toNat b.toNat t.toNat bv
  | .vaddsu d a b t => intRow c r 3 d.toNat a.toNat b.toNat t.toNat bv
  | .vmul d a b t => intRow c r 4 d.toNat a.toNat b.toNat t.toNat bv
  | .vmulh d a b t => intRow c r 5 d.toNat a.toNat b.toNat t.toNat bv
  | .vmin d a b t => intRow c r 6 d.toNat a.toNat b.toNat t.toNat bv
  | .vmax d a b t => intRow c r 7 d.toNat a.toNat b.toNat t.toNat bv
  | .vminu d a b t => intRow c r 8 d.toNat a.toNat b.toNat t.toNat bv
  | .vmaxu d a b t => intRow c r 9 d.toNat a.toNat b.toNat t.toNat bv
  | .vand d a b t => intRow c r 10 d.toNat a.toNat b.toNat t.toNat bv
  | .vor d a b t => intRow c r 11 d.toNat a.toNat b.toNat t.toNat bv
  | .vxor d a b t => intRow c r 12 d.toNat a.toNat b.toNat t.toNat bv
  | .vshl d a b t => intRow c r 13 d.toNat a.toNat b.toNat t.toNat bv
  | .vshr d a b t => intRow c r 14 d.toNat a.toNat b.toNat t.toNat bv
  | .vsra d a b t => intRow c r 15 d.toNat a.toNat b.toNat t.toNat bv
  | .vfadd d a b t => floatRow c r 0 d.toNat a.toNat b.toNat t.toNat bv
  | .vfsub d a b t => floatRow c r 1 d.toNat a.toNat b.toNat t.toNat bv
  | .vfmul d a b t => floatRow c r 2 d.toNat a.toNat b.toNat t.toNat bv
  | .vfma d a b t => floatRow c r 3 d.toNat a.toNat b.toNat t.toNat bv
  | .vfmin d a b t => floatRow c r 4 d.toNat a.toNat b.toNat t.toNat bv
  | .vfmax d a b t => floatRow c r 5 d.toNat a.toNat b.toNat t.toNat bv
  | .vfabs d a t => floatRow c r 6 d.toNat a.toNat a.toNat t.toNat bv
  | .vfneg d a t => floatRow c r 7 d.toNat a.toNat a.toNat t.toNat bv
  | .vfrcp d a t => floatRow c r 8 d.toNat a.toNat a.toNat t.toNat bv
  | .vfrsq d a t => floatRow c r 9 d.toNat a.toNat a.toNat t.toNat bv
  | .vfexp2 d a t => floatRow c r 10 d.toNat a.toNat a.toNat t.toNat bv
  | .vflog2 d a t => floatRow c r 11 d.toNat a.toNat a.toNat t.toNat bv
  | .vfrsum d a t => floatRow c r 12 d.toNat a.toNat a.toNat t.toNat bv
  | .vfrmax d a t => floatRow c r 13 d.toNat a.toNat a.toNat t.toNat bv
  | .vfscl d a b t => floatRow c r 14 d.toNat a.toNat b.toNat t.toNat bv
  | .vfcpy d a b t => floatRow c r 15 d.toNat a.toNat b.toNat t.toNat bv
  | .vcvt d a g m sat => cvtRow c r d.toNat a.toNat g.toNat m.toNat (sat = 1) ctl
  | .vexp d a f => expandRow c r d.toNat a.toNat (f = 1) ctl
  | .vmxs d a => mxsRow c r d.toNat a.toNat ctl
  | .vcmpeq d a b => cmpRow c r 3 d.toNat a.toNat b.toNat bv ctl
  | .vcmplt d a b => cmpRow c r 4 d.toNat a.toNat b.toNat bv ctl
  | .vcmple d a b => cmpRow c r 5 d.toNat a.toNat b.toNat bv ctl
  | .vfcmpeq d a b => cmpRow c r 6 d.toNat a.toNat b.toNat bv ctl
  | .vfcmplt d a b => cmpRow c r 7 d.toNat a.toNat b.toNat bv ctl
  | .vfcmple d a b => cmpRow c r 8 d.toNat a.toNat b.toNat bv ctl
  | .vsel d a b => selRow c r d.toNat a.toNat b.toNat bv ctl
  | .vshuf d a b => moveRow c r 12 d.toNat a.toNat b.toNat bv ctl
  | .vmov d a => moveRow c r 13 d.toNat a.toNat a.toNat bv ctl
  | .vrot d a b => moveRow c r 14 d.toNat a.toNat b.toNat bv ctl
  | .vpck d a b => moveRow c r 15 d.toNat a.toNat b.toNat bv ctl
  | .vupk d a => moveRow c r 16 d.toNat a.toNat a.toNat bv ctl
  | .viota d => moveRow c r 17 d.toNat 0 0 bv ctl
  | _ => []

/-- Row r of a step that reads its whole source at once: VTRN, VBCR (R126). -/
def wholeSource (i : Instr) (c : Core) (r : Nat) (bv ctl : DWord) : List CAct :=
  match i with
  | .vtrn d a =>
    let w := ewBits ctl
    .row d.toNat r (BitVec.ofNat 2048 (rowOf w ((List.range (2048 / w)).map fun k =>
        elem (c.row a.toNat (k % 16)) w (k / 16 * 16 + r)))) 0 ::
      [.sidePart d.toNat (128 * r) 128 (scaleRow (c.side a.toNat) r)]
  | .vbcr d a _ =>
    let q := bv.toNat % 16
    [.row d.toNat r (c.row a.toNat q) 0, .sidePart d.toNat (128 * r) 128 (scaleRow (c.side a.toNat) q)]
  | _ => []

/-! ## Errors of the rows that a step reads (R221) -/

/-- The tiles that a vector word reads row by row for its result (R112). -/
def vecTiles : Instr → List Nat
  | .vadd _ a b _ | .vsub _ a b _ | .vadds _ a b _ | .vaddsu _ a b _ | .vmul _ a b _ | .vmulh _ a b _ | .vmin _ a b _ | .vmax _ a b _
  | .vminu _ a b _ | .vmaxu _ a b _ | .vand _ a b _ | .vor _ a b _ | .vxor _ a b _ | .vshl _ a b _ | .vshr _ a b _ | .vsra _ a b _
  | .vfadd _ a b _ | .vfsub _ a b _ | .vfmul _ a b _ | .vfmin _ a b _ | .vfmax _ a b _ | .vfscl _ a b _ | .vfcpy _ a b _
  | .vcmpeq _ a b | .vcmplt _ a b | .vcmple _ a b | .vfcmpeq _ a b | .vfcmplt _ a b | .vfcmple _ a b | .vshuf _ a b | .vrot _ a b
  | .vpck _ a b => a.toNat :: tbTiles b.toNat
  | .vfma d a b _ | .vsel d a b => d.toNat :: a.toNat :: tbTiles b.toNat
  | .vfabs _ a _ | .vfneg _ a _ | .vfrcp _ a _ | .vfrsq _ a _ | .vfexp2 _ a _ | .vflog2 _ a _ | .vfrsum _ a _ | .vfrmax _ a _
  | .vexp _ a _ | .vmov _ a | .vupk _ a | .vtrn _ a | .vget _ a _ | .vcvt _ a _ _ _ | .vmxs _ a | .vbcr _ a _ => [a.toNat]
  | _ => []
/-- A row of a vector word reads that row's bytes of the sidecar of its source, too, under a value of VCTL (R94, R121, R122, R126). -/
def readsSide (i : Instr) (ctl : DWord) : Bool :=
  match i with
  | .vcvt _ _ _ _ _ => vctlScl ctl && decide (1 ≤ vctlSfmt ctl ∧ vctlSfmt ctl ≤ 3)
  | .vexp _ _ _ => vctlSfmt ctl ≠ 11
  | .vmov _ _ => true
  | _ => false
/-- The 64-bit words of a row that n bits from a bit on lie in. -/
def wordMask (lo n : Nat) : Word :=
  BitVec.ofNat 32 (((List.range 32).map fun w => if lo < 64 * w + 64 ∧ 64 * w < lo + n then 2 ^ w else 0).sum)
/-- Row r of a sidecar, its sixteen bytes, carries an error. -/
def Core.scalesErr (c : Core) (t r : Nat) : Bool := c.sideErr t &&& wordMask (128 * r) 128 ≠ 0
/-- A source of row r of a vector step carries an uncorrectable error as it is read (R221). -/
def Core.vecErr (c : Core) (i : Instr) (r : Nat) (ctl : DWord) : Bool :=
  (vecTiles i).any fun t => c.rowErr t r ≠ 0 || (readsSide i ctl && c.scalesErr t r)
/-- A source of row r of a step that reads its whole source at once carries one. -/
def Core.wholeErr (c : Core) (i : Instr) (r : Nat) (bv : DWord) : Bool :=
  match i with
  | .vtrn _ a => c.rowsErr a.toNat || c.scalesErr a.toNat r
  | .vbcr _ a _ => c.rowErr a.toNat (bv.toNat % 16) ≠ 0 || c.scalesErr a.toNat (bv.toNat % 16)
  | _ => false
/-- Results read from a source that carries an error land with it: every 64-bit word that they write is marked (R221; that a mark covers
whatever the row's result writes is the model's choice; assumptions 71). -/
def spoil (bad : Bool) (l : List CAct) : List CAct :=
  if !bad then l
  else l ++ l.filterMap fun a => match a with
    | .row t i _ _ => some (.rowMark t i (wordMask 0 2048))
    | .side t _ _ => some (.sideMark t (wordMask 0 2048))
    | .rowPart t i lo n _ => some (.rowMark t i (wordMask lo n))
    | .sidePart t lo n _ => some (.sideMark t (wordMask lo n))
    | .reg r v tg _ => some (.reg r v tg true)
    | _ => none

/-! ## Steps -/

/-- The rows that VROW enables at dequeue (R113). -/
def enabledRows (s : State) : List Nat := (List.range 16).filter fun r => (s.cc.csr 0x018).getLsbD r
/-- The value a tb operand broadcasts. -/
def bcast (s : State) (b : Nat) : DWord := if isBcast b then s.val (b - 96) else 0
/-- A step whose row r is read at +r and lands at L + r, the tag with row 0 (R111, R112). -/
def rowStep (s : State) (i : Instr) (d L : Nat) (reads : List Nat) (b : Nat) (rdDst legal : Bool) (sides : List Nat := []) : Plan :=
  let tb := b < 128
  engineStep s i { reads := reads ++ (if tb then tbTiles b else []), sides := sides, scal := if tb then tbScalars b else [], dst := some d
                   rdDst := rdDst, legal := legal, land := L + 15, fullAt := L + 15 } fun tg =>
    s.lands L 0 [.tileTag d tg] ::
      (enabledRows s).map fun r => s.afterPhase r 0 3 (.vxRow s.cur i r (if tb then bcast s b else 0) (s.cc.csr 0x01C) (s.cyc + (L + r) * s.mul))
/-- A word with a tb operand, and one without; side where it reads the sidecar of ta. -/
def step3 (s : State) (i : Instr) (d a b L : Nat) (rdDst legal : Bool) : Plan := rowStep s i d L [a] b rdDst legal
def step2 (s : State) (i : Instr) (d a L : Nat) (rdDst legal : Bool) (side : Bool := false) : Plan :=
  rowStep s i d L [a] 128 rdDst legal (if side then [a] else [])
/-- A step that reads its whole source at +8 and lands row r at 10 + r (R112). -/
def wholeStep (s : State) (i : Instr) (d a b : Nat) : Plan :=
  let tb := b < 128
  engineStep s i { reads := [a], sides := [a], scal := if tb then tbScalars b else [], dst := some d, occ := 18, land := 25, fullAt := 25
                   readEnd := 8 } fun tg =>
    [s.lands 10 0 [.tileTag d tg],
     s.afterPhase 8 0 3 (.vxWhole s.cur i (if tb then bcast s b else 0) (s.cc.csr 0x01C) (fld (s.cc.csr 0x018).toNat 0 16) (s.cyc + 10 * s.mul) s.mul)]

/-- The VCTL values a step accepts (R114, R121 to R124, R126). -/
def ctlOf (s : State) : DWord := s.cc.csr 0x01C
def cvtOk (v : DWord) : Bool := decide (vctlSfmt v ≤ 8) || vctlSfmt v = 11
def expOk (v : DWord) (fold : Bool) : Bool := vctlSfmt v = 9 || vctlSfmt v = 10 || vctlSfmt v = 11 || (vctlSfmt v = 1 && fold)
def mxsOk (v : DWord) : Bool := decide (4 ≤ vctlSfmt v ∧ vctlSfmt v ≤ 6) && decide (1 ≤ vctlMxf v ∧ vctlMxf v ≤ 3)
def ftOk (v : DWord) : Bool := vctlFt v ≠ 3
def ewOk (v : DWord) : Bool := vctlEw v ≠ 0
/-- VCVT to narrower elements writes part of each row, so it reads td (R121). -/
def cvtReads (v : DWord) (g : Nat) : Bool := decide (fmtBits g < fmtBits (vctlSfmt v))
/-! Class 8 (R118). -/
def planVadd (d a b : BitVec 7) (t : BitVec 2) (s : State) : Plan := step3 s (.vadd d a b t) d.toNat a.toNat b.toNat 2 false true
def planVsub (d a b : BitVec 7) (t : BitVec 2) (s : State) : Plan := step3 s (.vsub d a b t) d.toNat a.toNat b.toNat 2 false true
def planVadds (d a b : BitVec 7) (t : BitVec 2) (s : State) : Plan := step3 s (.vadds d a b t) d.toNat a.toNat b.toNat 2 false true
def planVaddsu (d a b : BitVec 7) (t : BitVec 2) (s : State) : Plan := step3 s (.vaddsu d a b t) d.toNat a.toNat b.toNat 2 false true
def planVmul (d a b : BitVec 7) (t : BitVec 2) (s : State) : Plan := step3 s (.vmul d a b t) d.toNat a.toNat b.toNat 2 false true
def planVmulh (d a b : BitVec 7) (t : BitVec 2) (s : State) : Plan := step3 s (.vmulh d a b t) d.toNat a.toNat b.toNat 2 false true
def planVmin (d a b : BitVec 7) (t : BitVec 2) (s : State) : Plan := step3 s (.vmin d a b t) d.toNat a.toNat b.toNat 2 false true
def planVmax (d a b : BitVec 7) (t : BitVec 2) (s : State) : Plan := step3 s (.vmax d a b t) d.toNat a.toNat b.toNat 2 false true
def planVminu (d a b : BitVec 7) (t : BitVec 2) (s : State) : Plan := step3 s (.vminu d a b t) d.toNat a.toNat b.toNat 2 false true
def planVmaxu (d a b : BitVec 7) (t : BitVec 2) (s : State) : Plan := step3 s (.vmaxu d a b t) d.toNat a.toNat b.toNat 2 false true
def planVand (d a b : BitVec 7) (t : BitVec 2) (s : State) : Plan := step3 s (.vand d a b t) d.toNat a.toNat b.toNat 2 false true
def planVor (d a b : BitVec 7) (t : BitVec 2) (s : State) : Plan := step3 s (.vor d a b t) d.toNat a.toNat b.toNat 2 false true
def planVxor (d a b : BitVec 7) (t : BitVec 2) (s : State) : Plan := step3 s (.vxor d a b t) d.toNat a.toNat b.toNat 2 false true
def planVshl (d a b : BitVec 7) (t : BitVec 2) (s : State) : Plan := step3 s (.vshl d a b t) d.toNat a.toNat b.toNat 2 false true
def planVshr (d a b : BitVec 7) (t : BitVec 2) (s : State) : Plan := step3 s (.vshr d a b t) d.toNat a.toNat b.toNat 2 false true
def planVsra (d a b : BitVec 7) (t : BitVec 2) (s : State) : Plan := step3 s (.vsra d a b t) d.toNat a.toNat b.toNat 2 false true
/-! Class 9 (R119, R120). -/
def planVfadd (d a b : BitVec 7) (t : BitVec 2) (s : State) : Plan := step3 s (.vfadd d a b t) d.toNat a.toNat b.toNat 4 false true
def planVfsub (d a b : BitVec 7) (t : BitVec 2) (s : State) : Plan := step3 s (.vfsub d a b t) d.toNat a.toNat b.toNat 4 false true
def planVfmul (d a b : BitVec 7) (t : BitVec 2) (s : State) : Plan := step3 s (.vfmul d a b t) d.toNat a.toNat b.toNat 4 false true
def planVfma (d a b : BitVec 7) (t : BitVec 2) (s : State) : Plan := step3 s (.vfma d a b t) d.toNat a.toNat b.toNat 5 true true
def planVfmin (d a b : BitVec 7) (t : BitVec 2) (s : State) : Plan := step3 s (.vfmin d a b t) d.toNat a.toNat b.toNat 4 false true
def planVfmax (d a b : BitVec 7) (t : BitVec 2) (s : State) : Plan := step3 s (.vfmax d a b t) d.toNat a.toNat b.toNat 4 false true
def planVfabs (d a : BitVec 7) (t : BitVec 2) (s : State) : Plan := step2 s (.vfabs d a t) d.toNat a.toNat 2 false true
def planVfneg (d a : BitVec 7) (t : BitVec 2) (s : State) : Plan := step2 s (.vfneg d a t) d.toNat a.toNat 2 false true
def planVfrcp (d a : BitVec 7) (t : BitVec 2) (s : State) : Plan := step2 s (.vfrcp d a t) d.toNat a.toNat 8 false true
def planVfrsq (d a : BitVec 7) (t : BitVec 2) (s : State) : Plan := step2 s (.vfrsq d a t) d.toNat a.toNat 8 false true
def planVfexp2 (d a : BitVec 7) (t : BitVec 2) (s : State) : Plan := step2 s (.vfexp2 d a t) d.toNat a.toNat 8 false true
def planVflog2 (d a : BitVec 7) (t : BitVec 2) (s : State) : Plan := step2 s (.vflog2 d a t) d.toNat a.toNat 8 false true
def planVfrsum (d a : BitVec 7) (t : BitVec 2) (s : State) : Plan := step2 s (.vfrsum d a t) d.toNat a.toNat 6 false true
def planVfrmax (d a : BitVec 7) (t : BitVec 2) (s : State) : Plan := step2 s (.vfrmax d a t) d.toNat a.toNat 6 false true
def planVfscl (d a b : BitVec 7) (t : BitVec 2) (s : State) : Plan := step3 s (.vfscl d a b t) d.toNat a.toNat b.toNat 4 false true
def planVfcpy (d a b : BitVec 7) (t : BitVec 2) (s : State) : Plan := step3 s (.vfcpy d a b t) d.toNat a.toNat b.toNat 2 false true
/-- VCVT (R121). -/
def planVcvt (d a : BitVec 7) (g : BitVec 4) (r : BitVec 2) (s : BitVec 1) (σ : State) : Plan :=
  step2 σ (.vcvt d a g r s) d.toNat a.toNat 3 (cvtReads (ctlOf σ) g.toNat) (cvtOk (ctlOf σ)) (vctlScl (ctlOf σ) && decide (1 ≤ vctlSfmt (ctlOf σ) ∧ vctlSfmt (ctlOf σ) ≤ 3))
/-- VEXP (R122). -/
def planVexp (d a : BitVec 7) (f : BitVec 1) (s : State) : Plan :=
  step2 s (.vexp d a f) d.toNat a.toNat 3 false (expOk (ctlOf s) (f = 1)) (vctlSfmt (ctlOf s) ≠ 11)
/-- VMXS (R123). -/
def planVmxs (d a : BitVec 7) (s : State) : Plan := step2 s (.vmxs d a) d.toNat a.toNat 3 true (mxsOk (ctlOf s))
def planVcmpeq (d a b : BitVec 7) (s : State) : Plan := step3 s (.vcmpeq d a b) d.toNat a.toNat b.toNat 2 false true
def planVcmplt (d a b : BitVec 7) (s : State) : Plan := step3 s (.vcmplt d a b) d.toNat a.toNat b.toNat 2 false true
def planVcmple (d a b : BitVec 7) (s : State) : Plan := step3 s (.vcmple d a b) d.toNat a.toNat b.toNat 2 false true
def planVfcmpeq (d a b : BitVec 7) (s : State) : Plan :=
  step3 s (.vfcmpeq d a b) d.toNat a.toNat b.toNat 4 false (ftOk (ctlOf s))
def planVfcmplt (d a b : BitVec 7) (s : State) : Plan :=
  step3 s (.vfcmplt d a b) d.toNat a.toNat b.toNat 4 false (ftOk (ctlOf s))
def planVfcmple (d a b : BitVec 7) (s : State) : Plan :=
  step3 s (.vfcmple d a b) d.toNat a.toNat b.toNat 4 false (ftOk (ctlOf s))
def planVsel (d a b : BitVec 7) (s : State) : Plan := step3 s (.vsel d a b) d.toNat a.toNat b.toNat 2 true true
def planVtrn (d a : BitVec 7) (s : State) : Plan := wholeStep s (.vtrn d a) d.toNat a.toNat 128
def planVbcr (d a b : BitVec 7) (s : State) : Plan := wholeStep s (.vbcr d a b) d.toNat a.toNat b.toNat
def planVshuf (d a b : BitVec 7) (s : State) : Plan := step3 s (.vshuf d a b) d.toNat a.toNat b.toNat 2 false true
def planVmov (d a : BitVec 7) (s : State) : Plan := step2 s (.vmov d a) d.toNat a.toNat 2 false true true
def planVrot (d a b : BitVec 7) (s : State) : Plan := step3 s (.vrot d a b) d.toNat a.toNat b.toNat 2 false true
def planVpck (d a b : BitVec 7) (s : State) : Plan := step3 s (.vpck d a b) d.toNat a.toNat b.toNat 2 false (ewOk (ctlOf s))
def planVupk (d a : BitVec 7) (s : State) : Plan := step2 s (.vupk d a) d.toNat a.toNat 2 false (ewOk (ctlOf s))
def planViota (d : BitVec 7) (s : State) : Plan := rowStep s (.viota d) d.toNat 2 [] 128 false true
/-- Row q and the bit position of element j that VGET and VPUT take from their scalar (R127). -/
def elemAt (b : DWord) (ctl : DWord) : Nat × Nat × Nat :=
  let w := ewBits ctl
  (b.toNat % 16, w * (fld b.toNat 4 9 % (2048 / w)), w)
/-- VGET (R127). -/
def planVget (d a b : BitVec 7) (s : State) : Plan :=
  let (q, lo, w) := elemAt (bcast s b.toNat) (ctlOf s)
  engineStep s (.vget d a b) { reads := [a.toNat], scal := tbScalars b.toNat, land := q + 2, readEnd := q } fun tg =>
    [s.afterPhase q 0 3 (.vget s.cur a.toNat q lo w d.toNat tg (s.cyc + (q + 2) * s.mul))]
/-- VPUT (R127). -/
def planVput (d a b : BitVec 7) (s : State) : Plan :=
  let (q, lo, w) := elemAt (bcast s b.toNat) (ctlOf s)
  engineStep s (.vput d a b) { scal := a.toNat :: tbScalars b.toNat, dst := some d.toNat, rdDst := true, land := q + 2 } fun tg =>
    [s.lands (q + 2) 0 [.rowPart d.toNat q lo w (s.val a.toNat).toNat, .tileTag d.toNat tg]]
/-- VSETE reads no register, checks no clock and tests no bit (R128). -/
def planVsete (d v : BitVec 7) (s : State) : Plan :=
  match s.actor with
  | .control => s.place 1 (.vsete d v) []
  | .engine _ => .acts [s.upd (.tileFull d.toNat (v = 1)), s.stepDone 1 0 0]

-- The meanings: one for each instruction of this file.
/-- VADD (R118). -/
def execVadd (d : BitVec 7) (a : BitVec 7) (b : BitVec 7) (t : BitVec 2) (s : State) : Host.Outcome State Fault Refusal := resolve s (planVadd d a b t s)
/-- VSUB (R118). -/
def execVsub (d : BitVec 7) (a : BitVec 7) (b : BitVec 7) (t : BitVec 2) (s : State) : Host.Outcome State Fault Refusal := resolve s (planVsub d a b t s)
/-- VADDS (R118). -/
def execVadds (d : BitVec 7) (a : BitVec 7) (b : BitVec 7) (t : BitVec 2) (s : State) : Host.Outcome State Fault Refusal := resolve s (planVadds d a b t s)
/-- VADDSU (R118). -/
def execVaddsu (d : BitVec 7) (a : BitVec 7) (b : BitVec 7) (t : BitVec 2) (s : State) : Host.Outcome State Fault Refusal := resolve s (planVaddsu d a b t s)
/-- VMUL (R118). -/
def execVmul (d : BitVec 7) (a : BitVec 7) (b : BitVec 7) (t : BitVec 2) (s : State) : Host.Outcome State Fault Refusal := resolve s (planVmul d a b t s)
/-- VMULH (R118). -/
def execVmulh (d : BitVec 7) (a : BitVec 7) (b : BitVec 7) (t : BitVec 2) (s : State) : Host.Outcome State Fault Refusal := resolve s (planVmulh d a b t s)
/-- VMIN (R118). -/
def execVmin (d : BitVec 7) (a : BitVec 7) (b : BitVec 7) (t : BitVec 2) (s : State) : Host.Outcome State Fault Refusal := resolve s (planVmin d a b t s)
/-- VMAX (R118). -/
def execVmax (d : BitVec 7) (a : BitVec 7) (b : BitVec 7) (t : BitVec 2) (s : State) : Host.Outcome State Fault Refusal := resolve s (planVmax d a b t s)
/-- VMINU (R118). -/
def execVminu (d : BitVec 7) (a : BitVec 7) (b : BitVec 7) (t : BitVec 2) (s : State) : Host.Outcome State Fault Refusal := resolve s (planVminu d a b t s)
/-- VMAXU (R118). -/
def execVmaxu (d : BitVec 7) (a : BitVec 7) (b : BitVec 7) (t : BitVec 2) (s : State) : Host.Outcome State Fault Refusal := resolve s (planVmaxu d a b t s)
/-- VAND (R118). -/
def execVand (d : BitVec 7) (a : BitVec 7) (b : BitVec 7) (t : BitVec 2) (s : State) : Host.Outcome State Fault Refusal := resolve s (planVand d a b t s)
/-- VOR (R118). -/
def execVor (d : BitVec 7) (a : BitVec 7) (b : BitVec 7) (t : BitVec 2) (s : State) : Host.Outcome State Fault Refusal := resolve s (planVor d a b t s)
/-- VXOR (R118). -/
def execVxor (d : BitVec 7) (a : BitVec 7) (b : BitVec 7) (t : BitVec 2) (s : State) : Host.Outcome State Fault Refusal := resolve s (planVxor d a b t s)
/-- VSHL (R118). -/
def execVshl (d : BitVec 7) (a : BitVec 7) (b : BitVec 7) (t : BitVec 2) (s : State) : Host.Outcome State Fault Refusal := resolve s (planVshl d a b t s)
/-- VSHR (R118). -/
def execVshr (d : BitVec 7) (a : BitVec 7) (b : BitVec 7) (t : BitVec 2) (s : State) : Host.Outcome State Fault Refusal := resolve s (planVshr d a b t s)
/-- VSRA (R118). -/
def execVsra (d : BitVec 7) (a : BitVec 7) (b : BitVec 7) (t : BitVec 2) (s : State) : Host.Outcome State Fault Refusal := resolve s (planVsra d a b t s)
/-- VFADD (R119). -/
def execVfadd (d : BitVec 7) (a : BitVec 7) (b : BitVec 7) (t : BitVec 2) (s : State) : Host.Outcome State Fault Refusal := resolve s (planVfadd d a b t s)
/-- VFSUB (R119). -/
def execVfsub (d : BitVec 7) (a : BitVec 7) (b : BitVec 7) (t : BitVec 2) (s : State) : Host.Outcome State Fault Refusal := resolve s (planVfsub d a b t s)
/-- VFMUL (R119). -/
def execVfmul (d : BitVec 7) (a : BitVec 7) (b : BitVec 7) (t : BitVec 2) (s : State) : Host.Outcome State Fault Refusal := resolve s (planVfmul d a b t s)
/-- VFMA (R119). -/
def execVfma (d : BitVec 7) (a : BitVec 7) (b : BitVec 7) (t : BitVec 2) (s : State) : Host.Outcome State Fault Refusal := resolve s (planVfma d a b t s)
/-- VFMIN (R119). -/
def execVfmin (d : BitVec 7) (a : BitVec 7) (b : BitVec 7) (t : BitVec 2) (s : State) : Host.Outcome State Fault Refusal := resolve s (planVfmin d a b t s)
/-- VFMAX (R119). -/
def execVfmax (d : BitVec 7) (a : BitVec 7) (b : BitVec 7) (t : BitVec 2) (s : State) : Host.Outcome State Fault Refusal := resolve s (planVfmax d a b t s)
/-- VFABS (R119). -/
def execVfabs (d : BitVec 7) (a : BitVec 7) (t : BitVec 2) (s : State) : Host.Outcome State Fault Refusal := resolve s (planVfabs d a t s)
/-- VFNEG (R119). -/
def execVfneg (d : BitVec 7) (a : BitVec 7) (t : BitVec 2) (s : State) : Host.Outcome State Fault Refusal := resolve s (planVfneg d a t s)
/-- VFRCP (R119). -/
def execVfrcp (d : BitVec 7) (a : BitVec 7) (t : BitVec 2) (s : State) : Host.Outcome State Fault Refusal := resolve s (planVfrcp d a t s)
/-- VFRSQ (R119). -/
def execVfrsq (d : BitVec 7) (a : BitVec 7) (t : BitVec 2) (s : State) : Host.Outcome State Fault Refusal := resolve s (planVfrsq d a t s)
/-- VFEXP2 (R119). -/
def execVfexp2 (d : BitVec 7) (a : BitVec 7) (t : BitVec 2) (s : State) : Host.Outcome State Fault Refusal := resolve s (planVfexp2 d a t s)
/-- VFLOG2 (R119). -/
def execVflog2 (d : BitVec 7) (a : BitVec 7) (t : BitVec 2) (s : State) : Host.Outcome State Fault Refusal := resolve s (planVflog2 d a t s)
/-- VFRSUM (R120). -/
def execVfrsum (d : BitVec 7) (a : BitVec 7) (t : BitVec 2) (s : State) : Host.Outcome State Fault Refusal := resolve s (planVfrsum d a t s)
/-- VFRMAX (R120). -/
def execVfrmax (d : BitVec 7) (a : BitVec 7) (t : BitVec 2) (s : State) : Host.Outcome State Fault Refusal := resolve s (planVfrmax d a t s)
/-- VFSCL (R119). -/
def execVfscl (d : BitVec 7) (a : BitVec 7) (b : BitVec 7) (t : BitVec 2) (s : State) : Host.Outcome State Fault Refusal := resolve s (planVfscl d a b t s)
/-- VFCPY (R119). -/
def execVfcpy (d : BitVec 7) (a : BitVec 7) (b : BitVec 7) (t : BitVec 2) (s : State) : Host.Outcome State Fault Refusal := resolve s (planVfcpy d a b t s)
/-- VCVT (R121). -/
def execVcvt (d : BitVec 7) (a : BitVec 7) (g : BitVec 4) (r : BitVec 2) (s : BitVec 1) (σ : State) : Host.Outcome State Fault Refusal := resolve σ (planVcvt d a g r s σ)
/-- VEXP (R122). -/
def execVexp (d : BitVec 7) (a : BitVec 7) (f : BitVec 1) (s : State) : Host.Outcome State Fault Refusal := resolve s (planVexp d a f s)
/-- VMXS (R123). -/
def execVmxs (d : BitVec 7) (a : BitVec 7) (s : State) : Host.Outcome State Fault Refusal := resolve s (planVmxs d a s)
/-- VCMPEQ (R124). -/
def execVcmpeq (d : BitVec 7) (a : BitVec 7) (b : BitVec 7) (s : State) : Host.Outcome State Fault Refusal := resolve s (planVcmpeq d a b s)
/-- VCMPLT (R124). -/
def execVcmplt (d : BitVec 7) (a : BitVec 7) (b : BitVec 7) (s : State) : Host.Outcome State Fault Refusal := resolve s (planVcmplt d a b s)
/-- VCMPLE (R124). -/
def execVcmple (d : BitVec 7) (a : BitVec 7) (b : BitVec 7) (s : State) : Host.Outcome State Fault Refusal := resolve s (planVcmple d a b s)
/-- VFCMPEQ (R124). -/
def execVfcmpeq (d : BitVec 7) (a : BitVec 7) (b : BitVec 7) (s : State) : Host.Outcome State Fault Refusal := resolve s (planVfcmpeq d a b s)
/-- VFCMPLT (R124). -/
def execVfcmplt (d : BitVec 7) (a : BitVec 7) (b : BitVec 7) (s : State) : Host.Outcome State Fault Refusal := resolve s (planVfcmplt d a b s)
/-- VFCMPLE (R124). -/
def execVfcmple (d : BitVec 7) (a : BitVec 7) (b : BitVec 7) (s : State) : Host.Outcome State Fault Refusal := resolve s (planVfcmple d a b s)
/-- VSEL (R125). -/
def execVsel (d : BitVec 7) (a : BitVec 7) (b : BitVec 7) (s : State) : Host.Outcome State Fault Refusal := resolve s (planVsel d a b s)
/-- VTRN (R126). -/
def execVtrn (d : BitVec 7) (a : BitVec 7) (s : State) : Host.Outcome State Fault Refusal := resolve s (planVtrn d a s)
/-- VBCR (R126). -/
def execVbcr (d : BitVec 7) (a : BitVec 7) (b : BitVec 7) (s : State) : Host.Outcome State Fault Refusal := resolve s (planVbcr d a b s)
/-- VSHUF (R126). -/
def execVshuf (d : BitVec 7) (a : BitVec 7) (b : BitVec 7) (s : State) : Host.Outcome State Fault Refusal := resolve s (planVshuf d a b s)
/-- VMOV (R126). -/
def execVmov (d : BitVec 7) (a : BitVec 7) (s : State) : Host.Outcome State Fault Refusal := resolve s (planVmov d a s)
/-- VROT (R126). -/
def execVrot (d : BitVec 7) (a : BitVec 7) (b : BitVec 7) (s : State) : Host.Outcome State Fault Refusal := resolve s (planVrot d a b s)
/-- VPCK (R126). -/
def execVpck (d : BitVec 7) (a : BitVec 7) (b : BitVec 7) (s : State) : Host.Outcome State Fault Refusal := resolve s (planVpck d a b s)
/-- VUPK (R126). -/
def execVupk (d : BitVec 7) (a : BitVec 7) (s : State) : Host.Outcome State Fault Refusal := resolve s (planVupk d a s)
/-- VIOTA (R126). -/
def execViota (d : BitVec 7) (s : State) : Host.Outcome State Fault Refusal := resolve s (planViota d s)
/-- VGET (R127). -/
def execVget (d : BitVec 7) (a : BitVec 7) (b : BitVec 7) (s : State) : Host.Outcome State Fault Refusal := resolve s (planVget d a b s)
/-- VPUT (R127). -/
def execVput (d : BitVec 7) (a : BitVec 7) (b : BitVec 7) (s : State) : Host.Outcome State Fault Refusal := resolve s (planVput d a b s)
/-- VSETE (R128). -/
def execVsete (d : BitVec 7) (v : BitVec 7) (s : State) : Host.Outcome State Fault Refusal := resolve s (planVsete d v s)

end Sys2Proof.Machine
end

