-- ==== Sys2Proof/Machine/Matrix.lean ====
section
/-! DEFINITION. Class 12: matrix words, their sums and their landings (R100 to R110, R129 to R145). -/

namespace Sys2Proof.Machine

/-- A combination of formats and scaling that MMA accepts (R132). -/
def comboOk (e : Nat) : Bool :=
  match feA e with
  | 0 => feB e = 0 && feScale e = 0
  | 1 => feB e = 1 || feB e = 2
  | 2 => feB e = 1 || feB e = 2
  | 3 => feB e = 3
  | 4 => feB e = 4 && feScale e = 0
  | 5 => feB e = 5 && feScale e = 0
  | _ => false
/-- Occupancy and largest depth of an MMA by A's format (R132). -/
def mmaOcc (a : Nat) : Nat := match a with | 0 => 8 | 1 => 4 | 2 => 3 | 3 => 2 | 4 => 8 | _ => 11
def mmaDepth (a : Nat) : Nat := match a with | 3 => 512 | 4 => 128 | 5 => 128 | _ => 256

/-- Element k of A's row m, as it stands in the tile (R134). -/
def aElem (c : Core) (t w : Nat) (x : Bool) (m k : Nat) : Nat :=
  if x then elem (c.row t (k % 16)) w (16 * (k / 16) + m) else elem (c.row t m) w k
/-- Element k of slot column n (R134). -/
def bElem (c : Core) (b w n k : Nat) : Nat := elem (SMap.get 0 c.slotCols (b * 16 + n)) w k
/-- The term of one depth element: value, exponent, and whether it is an infinity times a zero (R94, R100). -/
def mmaTerm (fa fb x za y zb : Nat) : FVal × Int × Bool :=
  let p := mulV (scaled za (decodeElem fa x)) (scaled zb (decodeElem fb y))
  let ea := match fmtOf fa with | some f => termExp f x | none => 0
  let eb := match fmtOf fb with | some f => termExp f y | none => 0
  (p.1, ea + eb + ((za : Int) - 127) + ((zb : Int) - 127), p.2 ≠ 0)

/-- Bits of the two adders that run on the Twilight rail (R105). -/
def bandW (f fbits : Nat) : Nat := min (if f = 1 then 5 else if f = 2 then 9 else 13) fbits
def bandV (f : Nat) : Nat := if f = 1 then 12 else if f = 2 then 20 else 28
/-- The error of one band operation whose exact output is v: its w low bits become any, and its carry into the first nominal bit is
right or wrong by one (R106; assumptions 17). -/
def bandError (idx w : Nat) (v : Int) : Int :=
  let n := Config.freeNat idx
  (n % 2 ^ w : Nat) - v % (2 ^ w : Nat) + ((n / 2 ^ w % 3 : Nat) - 1) * (2 ^ w : Nat)

/-- The result of one command at one position, with an F0 sum's terms; at F 1 to 3 the sum takes a band error (R101, R106). A position
without a finite nonzero term has no weight for one: it performs its band operation, which does not err (the model's choice;
assumptions 17). -/
def position (c : Core) (e t b depth fid idx : Nat) (x : Bool) (i j : Nat) : Nat × Int × Int × Bool × Bool :=
  let fa := feA e
  let fb := feB e
  let w := fmtBits fa
  if fa = 0 then
    (0, ((List.range depth).map fun k => toSigned 8 (aElem c t w x i k) * toSigned 8 (bElem c b w j k)).sum, 0, false, false)
  else
    let sa := feScale e = 1 ∨ feScale e = 2
    let sb := feScale e = 1 ∨ feScale e = 3
    let terms := (List.range depth).map fun k =>
      mmaTerm fa fb (aElem c t w x i k) (if sa then scaleByte (c.side t) i (k / 32) else 127)
        (bElem c b w j k) (if sb then scaleByte (SMap.get 0 c.slotSides b) j (k / 32) else 127)
    let r := commandSum (adderF fa) terms
    let none_ := !(terms.any fun t => match t.1 with | .fin _ m _ => m ≠ 0 | _ => false)
    let err := if fid = 0 ∨ none_ then 0 else bandError idx (bandW fid (adderF fa)) r.2.1
    (r.1, r.2.1 + err, r.2.2.1, r.2.2.2, decide (err % 3 ≠ 0))

/-- A column of a slot that is read, or its sidecar where that is read, carries an uncorrectable error (R221, R321). -/
def Core.slotErr (c : Core) (b colm : Nat) (side : Bool) : Bool :=
  ((List.range 16).any fun n => fld colm n 1 = 1 && SMap.get false c.slotBad (b * 17 + n)) || (side && SMap.get false c.slotBad (b * 17 + 16))
/-- MMA (R135): everything is read at dequeue and the sums land at n + 6. -/
def planMma (c : BitVec 3) (a : BitVec 7) (b : BitVec 4) (s : BitVec 5) (z x : BitVec 1) (m : BitVec 3) (σ : State) : Plan :=
  let k := σ.cc
  let fe := formatEntry σ.rr k σ.vidx s.toNat
  let e := (SMap.get 0 k.fmt (fe.getD 0)).toNat
  let n := mmaOcc (feA e)
  let mask := maskOf k m.toNat (mmaDepth (feA e))
  let fid := if feA e = 0 then 0 else min σ.rr.fidmax (min (feFid e) (fld (k.csr 0x013).toNat 0 2))
  let pend : List Act := [σ.upd (.pendAcc c.toNat (σ.cyc + (n + 6) * σ.mul))]
  let on := (List.range 256).filter fun p => fld mask.rowm (p / 16) 1 = 1 ∧ fld mask.colm (p % 16) 1 = 1
  engineStep σ (.mma c a b s z x m)
    { reads := [a.toNat], sides := if feScale e = 1 ∨ feScale e = 2 then [a.toNat] else [], scal := maskScalars m.toNat
      tags := k.btag b.toNat :: if z = 1 then [] else [k.atag c.toNat]
      legal := fe.isSome && comboOk e && mask.ok && decide (mask.depth ≤ mmaDepth (feA e))
      ready := decide (SMap.get 0 k.pendSlot b.toNat ≤ σ.cyc), obj := b.toNat
      bad := k.slotErr b.toNat mask.colm (feScale e = 1 || feScale e = 3) || (z = 0 && k.accErr c.toNat on)
      occ := n, land := n + 6, readEnd := 0, always := pend } fun tg =>
    let ps := on.map fun p =>
      (p, position k e a.toNat b.toNat mask.depth fid (σ.freeCtr + 2 * p) (x = 1) (p / 16) (p % 16))
    [σ.after (n + 6) 0 (.mmaLand σ.cur c.toNat (z = 1) (ps.map fun p => (p.1, p.2.1, p.2.2.1, p.2.2.2.1, p.2.2.2.2.2, σ.freeCtr + 2 * p.1 + 1))
        (if feA e = 0 then 0 else adderN (feA e)) fid tg (ps.any fun p => p.2.2.2.2.1) σ.fseq σ.timed)] ++
      if fid = 0 then [] else [.pkg (.takeFree 512)]

/-- The check of the accumulator's band operation fires: its error is no multiple of 3 (R328). -/
def bandErrs (idx v : Nat) (el : AccElem) (S g : Int) (width : Nat) : Bool :=
  bandError idx v (windowSum el S g width).1 % 3 ≠ 0
/-- An element after a command, with the accumulator band operation it made, if any, and whether its check fires
(R102, R103, R105, R106). -/
def landElem (el : AccElem) (width fid spec : Nat) (S g : Int) (idx : Nat) : AccElem × Nat × Bool :=
  if width = 0 then (addInt el S, 0, false)
  else
    if fid = 0 ∨ S = 0 ∨ (accumulate el spec 0 g width fun _ => 0).spec ≠ 0 then (accumulate el spec S g width fun _ => 0, 0, false)
    else (accumulate el spec S g width (bandError idx (bandV fid)), 1, bandErrs idx (bandV fid) el S g width)
/-- An MMA lands (R135, R144): zeroing, adds, flags and tag, then the counts of its band operations (R330, R332); an injected
report makes its first check fire (R219). FIDERR names the command's own entry (R307), which stops (R304). -/
def mmaLand (s : State) (k : Key) (id c : Nat) (zero : Bool) (sums : List (Nat × Nat × Int × Int × Bool × Nat)) (width fid : Nat)
    (tag : Tag) (invalid : Bool) (seq : Nat) (timed : Bool) : List Act :=
  let co := s.core id
  let inj := decide (0 < fid) && (co.csr 0x070).toNat % 256 = 0x0F && !sums.isEmpty
  let rs := sums.map fun (p, spec, S, g, det, idx) =>
    let r := landElem (if zero then {} else SMap.get {} co.accs (c * 256 + p)) width fid spec S g idx
    (p, r.1, 1 + r.2.1, det || r.2.2)
  let ops := (rs.map fun r => r.2.2.1).sum
  let det := (rs.filter fun r => r.2.2.2).length + (if inj && !((rs.head?.map fun r => r.2.2.2).getD false) then 1 else 0)
  let region := s.region (id / 2048)
  (if zero then (List.range 256).map fun p => .core id (.acc c (p / 16) (p % 16) {}) else []) ++
    rs.map (fun r => .core id (.acc c (r.1 / 16) (r.1 % 16) r.2.1)) ++
    [.core id (.accTag c tag)] ++ (if invalid then [.core id (.orFlags 8)] else []) ++
    (if inj then [.core id (.csr 0x070 0)] else []) ++
    (if fid = 0 then [] else [.reg (id / 2048) (.sched { k with phase := 2 } (.errCount id fid ops det))]) ++
    if !region.rollback ∨ det = 0 then []
    else lateFault s { code := FIDERR, core := id, eng := 0, fseq := seq, timed := timed }

/-- MLDB (R137): row i of ta is read at +i, and slot, sidecar and tag land at +18. With Z = 0 it reads the sidecar with
row 0 (R134). -/
def planMldb (a : BitVec 7) (b : BitVec 4) (s : BitVec 5) (z x : BitVec 1) (σ : State) : Plan :=
  let k := σ.cc
  let fe := formatEntry σ.rr k σ.vidx s.toNat
  let e := SMap.get 0 k.fmt (fe.getD 0)
  engineStep σ (.mldb a b s z x)
    { reads := [a.toNat], sides := if z = 0 then [a.toNat] else []
      legal := fe.isSome && (x = 0 || decide (feB e.toNat ≤ 5)), land := 18
      always := [σ.upd (.pendSlot b.toNat (σ.cyc + 18 * σ.mul))] } fun tg =>
    σ.lands 18 0 [.slotSide b.toNat (if z = 1 then BitVec.ofNat 2048 (rowOf 8 (List.replicate 256 0x7F)) else k.side a.toNat) false,
                  .slotTag b.toNat tg] ::
      (List.range 16).map fun r => σ.afterPhase r 0 3 (.mxRow σ.cur (.mldb a b s z x) r e (σ.cyc + 18 * σ.mul) 0)

/-- MDRN (R138): accumulator row r is read at +r and lands rounded at +4 + r; the histogram counts at +24. -/
def planMdrn (c : BitVec 3) (d : BitVec 7) (q : BitVec 3) (s : BitVec 5) (σ : State) : Plan :=
  let k := σ.cc
  let fe := formatEntry σ.rr k σ.vidx s.toNat
  let e := SMap.get 0 k.fmt (fe.getD 0)
  let o := feO e.toNat
  engineStep σ (.mdrn c d q s)
    { tags := [k.atag c.toNat, k.ttag d.toNat], dst := some d.toNat
      legal := fe.isSome && decide (4 ≤ o ∧ o ≤ 7) && !(decide (6 ≤ o) && decide (4 ≤ q.toNat))
      ready := decide (SMap.get 0 k.pendAcc c.toNat ≤ σ.cyc), obj := c.toNat, bad := k.accErr c.toNat (List.range 256)
      land := 24, fullAt := 19 } fun tg =>
    σ.lands 4 0 [.tileTag d.toNat tg] ::
      (List.range 16).map fun r =>
        σ.afterPhase r 0 3 (.mxRow σ.cur (.mdrn c d q s) r e (σ.cyc + (4 + r) * σ.mul) (σ.cyc + 24 * σ.mul))

/-- Row r of an MLDB or an MDRN is read: what lands and when (R134, R138). -/
def mxRowActs (s : State) (k : Key) (id : Nat) (i : Instr) (r : Nat) (fe : Word) (land hist : Nat) : List Act :=
  let c := s.core id
  let at_ := fun n it => Act.reg (id / 2048) (.sched { k with due := n, phase := 0 } it)
  match i with
  | .mldb a b _ _ x => [at_ land (.land id [.slotRow b.toNat r (if x = 1 then fmtBits (feB fe.toNat) else 0) (c.row a.toNat r) (c.rowErr a.toNat r ≠ 0)])]
  | .mdrn a d q _ =>
    let e := fe.toNat
    let w := fmtBits (feO e)
    let vs := (List.range 16).map fun j => drainElem (SMap.get {} c.accs (a.toNat * 256 + r * 16 + j)) (feO e) (feRnd e) (feSat e)
    at_ land (.land id (spoil (c.accErr a.toNat ((List.range 16).map (16 * r + ·))) (partRow d.toNat r w (16 * q.toNat) vs))) ::
      if feHen e then [at_ hist (.histCount id (feBank e) (vs.map fun v => binOf (decodeElem (feO e) v.1)))] else []
  | _ => []

/-- MZERO (R139): the elements of ROWM × COLM, and the tag, at +6. -/
def planMzero (c : BitVec 3) (k : BitVec 4) (m : BitVec 3) (s : State) : Plan :=
  let mask := maskOf s.cc m.toNat 512
  engineStep s (.mzero c k m)
    { scal := maskScalars m.toNat, tags := k :: if m = 0 then [] else [s.cc.atag c.toNat], legal := mask.ok, occ := 1, land := 6
      always := [s.upd (.pendAcc c.toNat (max (SMap.get 0 s.cc.pendAcc c.toNat) (s.cyc + 6 * s.mul)))] } fun tg =>
    [s.lands 6 0 ((((List.range 256).filter fun p => fld mask.rowm (p / 16) 1 = 1 ∧ fld mask.colm (p % 16) 1 = 1).map fun p =>
      .acc c.toNat (p / 16) (p % 16) {}) ++ [.accTag c.toNat tg])]

/-- MFMT (R140): an entry takes s(a)[31:0]; the tag must be k0 or k1. -/
def planMfmt (n : BitVec 4) (a : BitVec 6) (s : State) : Plan :=
  let v := fld (s.val a.toNat).toNat 0 32
  s.holdFirst (s.placeable 0) <|
  if !steer (s.tag a.toNat) then s.trap CLOCK
  else engineStep s (.mfmt n a) { scal := [a.toNat], legal := fld v 0 10 = 0, occ := 1, land := 1 } fun _ =>
    [s.lands 1 0 [.fmt n.toNat (BitVec.ofNat 32 v)]]

/-- MHST (R141): a bank clears at +24. -/
def planMhst (b : BitVec 2) (s : State) : Plan :=
  engineStep s (.mhst b) { occ := 1, land := 24 } fun _ => [s.after 24 0 (.histClear s.cur b.toNat)]

/-- Counts added to a bank, saturating (R110). -/
def histAdd (c : Core) (bank : Nat) (bins : List Nat) : List CAct :=
  (List.range 32).filterMap fun i =>
    let n := (bins.filter (· = i)).length
    if n = 0 then none
    else some (.hist (bank * 32 + i) (BitVec.ofNat 32 (min (2 ^ 32 - 1) ((SMap.get 0 c.hist (bank * 32 + i)).toNat + n))))

-- The meanings: one for each instruction of this file.
/-- MMA (R135). -/
def execMma (c : BitVec 3) (a : BitVec 7) (b : BitVec 4) (s : BitVec 5) (z : BitVec 1) (x : BitVec 1) (m : BitVec 3) (σ : State) : Host.Outcome State Fault Refusal := resolve σ (planMma c a b s z x m σ)
/-- MLDB (R137). -/
def execMldb (a : BitVec 7) (b : BitVec 4) (s : BitVec 5) (z : BitVec 1) (x : BitVec 1) (σ : State) : Host.Outcome State Fault Refusal := resolve σ (planMldb a b s z x σ)
/-- MDRN (R138). -/
def execMdrn (c : BitVec 3) (d : BitVec 7) (q : BitVec 3) (s : BitVec 5) (σ : State) : Host.Outcome State Fault Refusal := resolve σ (planMdrn c d q s σ)
/-- MZERO (R139). -/
def execMzero (c : BitVec 3) (k : BitVec 4) (m : BitVec 3) (s : State) : Host.Outcome State Fault Refusal := resolve s (planMzero c k m s)
/-- MFMT (R140). -/
def execMfmt (n : BitVec 4) (a : BitVec 6) (s : State) : Host.Outcome State Fault Refusal := resolve s (planMfmt n a s)
/-- MHST (R141). -/
def execMhst (b : BitVec 2) (s : State) : Host.Outcome State Fault Refusal := resolve s (planMhst b s)

end Sys2Proof.Machine
end

