-- ==== Sys2Proof/Machine/Tile.lean ====
section
/-! DEFINITION. Class 11: tile transfers and the tag table (R166 to R171). -/

namespace Sys2Proof.Machine

/-- The scratchpad offset of a tile address: the local form, or the cluster form that names the core itself; otherwise the
trap code (R146, R167; assumptions 14). -/
def tileOffset (s : State) (ad : DWord) : Nat ⊕ Nat :=
  match decodeAddr s.rr s.vidx ad with
  | .sp t o _ => if t = s.cur then .inl o else .inr SCOPE
  | .xlate => .inr XLATE
  | _ => .inr SCOPE

/-- TLD and TLDS (R167, R169). In a timed segment the SCHED of the tile test comes after CLOCK, SCOPE and ALIGN (R147 and R169 give no
order; the model's choice; assumptions 66). -/
def planTileLoad (s : State) (t a : Nat) (o : Nat) (sidecar : Bool) : Plan :=
  let ad := s.val a + BitVec.ofNat 64 (o * 64)
  let ok := s.cc.tileOk t false
  s.holdFirst (ok || s.idles [a]) <|
  memIssue s [a] false fun tg =>
    match tileOffset s ad with
    | .inr code => s.trapAt code ad.toNat
    | .inl off =>
      if Config.spadBytes < off + (if sidecar then 4352 else 4096) then s.trapAt SCOPE ad.toNat
      else if off % 64 ≠ 0 then s.trapAt ALIGN ad.toNat
      else s.unless ok 6 t <| .acts (
        (List.range 16).map (fun r => s.afterPhase (2 + r) 1 3 (.tldRow s.cur t (off + 256 * r) r false (s.cyc + (6 + r) * s.mul))) ++
        (if sidecar then [s.afterPhase 18 1 3 (.tldRow s.cur t (off + 4096) 0 true (s.cyc + 22 * s.mul))] else []) ++
        [s.lands 6 1 [.tileTag t tg]] ++
        (if s.cc.coupling t = 0 then [] else [s.after (if sidecar then 22 else 21) 1 (.full s.cur t true)]))

/-- Bytes start to start + n of a row or sidecar carry an error (R168, R221, R321). -/
def marked (e : Word) (start n : Nat) : Bool :=
  (List.range 32).any fun w => e.getLsbD w && decide (8 * w < start + n ∧ start < 8 * w + 8)
/-- Tile stores, with their rows, each with the scratchpad offset of its first byte (R167 to R169). In a timed segment the SCHED of the tile
test comes after CLOCK, SCOPE and ALIGN, and before UECC (R147 and R169 give no order; the model's choice; assumptions 52, 66). -/
def planTileStore (s : State) (t : Nat) (srcs : List Nat) (ad : DWord) (span : Nat) (aligned : Bool)
    (legal : Bool) (rows : Nat → List (Nat × Nat)) (start n : Nat) (sidecar : Bool) : Plan :=
  let c := s.cc
  let ok := c.tileOk t true
  let clock := c.common (c.ttag t :: srcs.map fun r => (c.reg r).tag)
  s.holdFirst (ok || (clock.map fun tg => !c.present tg).getD false) <|
  match clock with
  | none => s.trap CLOCK
  | some tg =>
    if !c.present tg then .acts []
    else
      if !legal then s.trap ILLEGAL
      else match tileOffset s ad with
      | .inr code => s.trapAt code ad.toNat
      | .inl off =>
        let rs := rows off
        if Config.spadBytes < off + span ∨ (rs.any fun p => Config.spadBytes < p.2 + n ∨ writeBarred c c.mode p.2 n)
            ∨ (sidecar ∧ writeBarred c c.mode (off + 4096) 256) then s.trapAt SCOPE ad.toNat
        else if aligned ∧ off % 64 ≠ 0 then s.trapAt ALIGN ad.toNat
        else s.unless ok 6 t <|
          if (srcs.any fun r => (c.reg r).bad) ∨ (rs.any fun p => marked (c.rowErr t p.1) start n) ∨ (sidecar ∧ c.sideErr t ≠ 0) then s.trap UECC
          else .acts (
            rs.map (fun p => s.afterPhase p.1 1 3 (.tstRow s.cur t p.2 p.1 start n false (s.cyc + (6 + p.1) * s.mul))) ++
            (if sidecar then [s.afterPhase 16 1 3 (.tstRow s.cur t (off + 4096) 0 0 256 true (s.cyc + 22 * s.mul))] else []) ++
            (if c.coupling t = 3 then [s.afterPhase (if sidecar then 16 else 15) 1 3 (.full s.cur t false)] else []))

def planTld (t : BitVec 7) (a : BitVec 6) (o : BitVec 10) (s : State) : Plan := planTileLoad s t.toNat a.toNat o.toNat false
def planTlds (t : BitVec 7) (a : BitVec 6) (o : BitVec 10) (s : State) : Plan := planTileLoad s t.toNat a.toNat o.toNat true
def allRows (off : Nat) : List (Nat × Nat) := (List.range 16).map fun r => (r, off + 256 * r)
def planTst (t : BitVec 7) (a : BitVec 6) (o : BitVec 10) (s : State) : Plan :=
  planTileStore s t.toNat [a.toNat] (s.val a.toNat + BitVec.ofNat 64 (o.toNat * 64)) 4096 true true allRows 0 256 false
def planTsts (t : BitVec 7) (a : BitVec 6) (o : BitVec 10) (s : State) : Plan :=
  planTileStore s t.toNat [a.toNat] (s.val a.toNat + BitVec.ofNat 64 (o.toNat * 64)) 4352 true true allRows 0 256 true
/-- TSTM stores the rows and bytes its mask scalar selects, without an alignment rule (R168). R147 gives the ILLEGAL of a bad mask value no
place: it stands after CLOCK and the absent clock, and before the address checks (the model's choice; assumptions 66). -/
def planTstm (t : BitVec 7) (a m : BitVec 6) (s : State) : Plan :=
  let k := (s.val m.toNat).toNat
  let pitch := fld k 33 15
  let n := fld k 24 9
  let st := fld k 16 8
  planTileStore s t.toNat [a.toNat, m.toNat] (s.val a.toNat) 0 false (fld k 48 16 = 0 ∧ n ≤ 256 ∧ st + n ≤ 256)
    (fun off => if n = 0 then [] else
      ((List.range 16).filter fun r => fld k r 1 = 1).map fun r => (r, off + pitch * r + st)) st n false

/-- The tag-table words act at +1 and land at +4 with the common tag of their sources (R171). -/
def planTag (s : State) (fn d : Nat) (srcs : List Nat) (key b : DWord) : Plan :=
  memIssue s srcs false fun tg => .acts [s.after 1 1 (.tagAct s.cur fn d key b tg (s.cyc + 4 * s.mul))]
def planTlook (d : BitVec 7) (a : BitVec 6) (s : State) : Plan := planTag s 5 d.toNat [a.toNat] (s.val a.toNat) 0
def planTins (d : BitVec 7) (a b : BitVec 6) (s : State) : Plan :=
  planTag s 6 d.toNat [a.toNat, b.toNat] (s.val a.toNat) (s.val b.toNat)
def planTevt (d : BitVec 7) (a : BitVec 6) (s : State) : Plan := planTag s 7 d.toNat [a.toNat] (s.val a.toNat) 0
def planTagrd (d : BitVec 7) (a : BitVec 6) (s : State) : Plan := planTag s 8 d.toNat [a.toNat] (s.val a.toNat) 0

/-- The entry with a key, and the lowest invalid entry. -/
def findKey (c : Core) (k : BitVec 48) : Option Nat :=
  (List.range 256).find? fun i => let e := SMap.get {} c.tagTab i; e.valid && e.key = k
def findFree (c : Core) : Option Nat := (List.range 256).find? fun i => !(SMap.get {} c.tagTab i).valid
/-- An entry in TAGRD's layout (R170). -/
def tagWord (e : TagEnt) : DWord := BitVec.ofBool e.valid ++ BitVec.ofBool e.pend ++ 0#4 ++ e.slot ++ e.key
/-- The action of a tag-table word: the entries it changes and its result (R171). An entry that TEVT invalidates reads 0 in every field
(the model's choice; assumptions 58). -/
def tagAction (c : Core) (fn : Nat) (key b : DWord) : List CAct × DWord :=
  let k := BitVec.ofNat 48 key.toNat
  let minus1 : DWord := BitVec.allOnes 64
  match fn with
  | 5 => match findKey c k with
    | some i => let e := SMap.get {} c.tagTab i
                ([], if e.pend then BitVec.ofInt 64 (-2) else BitVec.ofNat 64 e.slot.toNat)
    | none => ([], minus1)
  | 6 =>
    let e : TagEnt := ⟨true, b.getLsbD 16, BitVec.ofNat 10 b.toNat, k⟩
    match findKey c k with
    | some i => ([.tagEnt i e], BitVec.ofNat 64 i)
    | none => match findFree c with
      | some i => ([.tagEnt i e], BitVec.ofNat 64 i)
      | none => ([], minus1)
  | 7 => match findKey c k with
    | some i => ([.tagEnt i {}], BitVec.ofNat 64 (SMap.get {} c.tagTab i).slot.toNat)
    | none => ([], minus1)
  | _ => ([], tagWord (SMap.get {} c.tagTab (key.toNat % 256)))

-- The meanings: one for each instruction of this file.
/-- TLD (R167). -/
def execTld (t : BitVec 7) (a : BitVec 6) (o : BitVec 10) (s : State) : Host.Outcome State Fault Refusal := resolve s (planTld t a o s)
/-- TST (R167). -/
def execTst (t : BitVec 7) (a : BitVec 6) (o : BitVec 10) (s : State) : Host.Outcome State Fault Refusal := resolve s (planTst t a o s)
/-- TLDS (R167). -/
def execTlds (t : BitVec 7) (a : BitVec 6) (o : BitVec 10) (s : State) : Host.Outcome State Fault Refusal := resolve s (planTlds t a o s)
/-- TSTS (R167). -/
def execTsts (t : BitVec 7) (a : BitVec 6) (o : BitVec 10) (s : State) : Host.Outcome State Fault Refusal := resolve s (planTsts t a o s)
/-- TSTM (R168). -/
def execTstm (t : BitVec 7) (a : BitVec 6) (m : BitVec 6) (s : State) : Host.Outcome State Fault Refusal := resolve s (planTstm t a m s)
/-- TLOOK (R171). -/
def execTlook (d : BitVec 7) (a : BitVec 6) (s : State) : Host.Outcome State Fault Refusal := resolve s (planTlook d a s)
/-- TINS (R171). -/
def execTins (d : BitVec 7) (a : BitVec 6) (b : BitVec 6) (s : State) : Host.Outcome State Fault Refusal := resolve s (planTins d a b s)
/-- TEVT (R171). -/
def execTevt (d : BitVec 7) (a : BitVec 6) (s : State) : Host.Outcome State Fault Refusal := resolve s (planTevt d a s)
/-- TAGRD (R171). -/
def execTagrd (d : BitVec 7) (a : BitVec 6) (s : State) : Host.Outcome State Fault Refusal := resolve s (planTagrd d a s)

end Sys2Proof.Machine
end

