-- ==== Sys2Proof/Machine/Landing.lean ====
section
/-! DEFINITION. What falls due: landings, samples, performs, row reads, credits, and the service of untimed accesses (R23, R24, R112,
R150 to R152, R167, R175, R190 to R199, R304, R321, R330). -/

namespace Sys2Proof.Machine

/-- An item due later in the place of one that has read: same order, landing phase. -/
def Key.at_ (k : Key) (due : Nat) : Key := { k with due := due, phase := 0 }
/-- AFADD and ACELL return no value (R159). -/
def noResult (op : Nat) : Bool := op = 11 || op = 12
/-- ERRINJ marks the next load or atomic result (R219). -/
def injected (c : Core) (op : Nat) : Bool := !noResult op && (c.csr 0x070).toNat % 256 = 0x10
/-- The injection clears CODE as it acts (R219). -/
def clearInjection (id : Nat) (yes : Bool) : List Act := if yes then [.core id (.csr 0x070 0)] else []
/-- A timed load or atomic samples its location and its result is scheduled (R150, R151, R159, R321). Op 15 is ACRD whose flags have joined
a saved FLAGS (R324). -/
def sampleActs (s : State) (k : Key) (id target off addr size : Nat) (signed : Bool) (d : Nat) (tag : Tag) (op : Nat)
    (b cmp : DWord) (land : Nat) (timed : Bool) : List Act :=
  let c := s.core id
  let t := s.core target
  let m := t.spNat off size
  let inj := injected c op
  let bad := (t.spErr off size && op ≠ 12) || inj
  let r : Nat × DWord × Nat := if op = 0 then (m, loadValue signed size m, 0) else if op = 15 then (m, (amoApply 12 m b cmp).2.1, 0) else amoApply (op - 1) m b cmp
  (if op = 0 ∨ op = 13 ∨ op = 15 then [] else spWrite s target off (bytesOf r.1 size) false) ++ clearInjection id inj ++
    if bad then [.reg (id / 2048) (.sched (k.at_ land) (.uecc id addr d r.2.1 tag timed))]
    else if noResult op then []
    else [.reg (id / 2048) (.sched (k.at_ land) (.land id (.reg d r.2.1 tag false :: orFlags r.2.2)))]
/-- A poisoned result falls due: UECC, and the register keeps its value; from the freeze on the fault is only journaled and the
result lands with its error (R305, R321). -/
def ueccActs (s : State) (id addr d : Nat) (v : DWord) (tag : Tag) (timed : Bool) : List Act :=
  .reg (id / 2048) (.raise { code := UECC, core := id, timed := timed, faddr := addr }) ::
    if (s.region (id / 2048)).closed then [.core id (.reg d v tag true)] else []

/-- Error marks of the 256 scratchpad bytes from an offset, as those of a row (R221). -/
def rowMarks (c : Core) (off : Nat) : Word :=
  BitVec.ofNat 32 (((List.range 32).map fun w => if c.spErr (off + 8 * w) 8 then 2 ^ w else 0).sum)
/-- A tile row or sidecar is sampled from scratchpad (R167). -/
def tldRowActs (s : State) (k : Key) (id t off r : Nat) (sidecar : Bool) (land : Nat) : List Act :=
  let c := s.core id
  let v := BitVec.ofNat 2048 (c.spNat off 256)
  let e := rowMarks c off
  [.reg (id / 2048) (.sched (k.at_ land) (.land id [if sidecar then .side t v e else .row t r v e]))]
/-- Bytes of a tile row are read for a store (R167, R168). -/
def tstRowActs (s : State) (k : Key) (id t off r start n : Nat) (sidecar : Bool) (land : Nat) : List Act :=
  let c := s.core id
  let v := (if sidecar then c.side t else c.row t r).toNat
  let e := if sidecar then c.sideErr t else c.rowErr t r
  [.reg (id / 2048) (.sched (k.at_ land) (.perform id id off (bytesOf (fld v (8 * start) (8 * n)) n) (marked e start n)))]

/-- Counts of a command join the error counters after the CSR writes of the cycle, and the cluster's window (R330, R331). -/
def errCountActs (s : State) (id fid ops det : Nat) : List Act :=
  let c := s.core id
  let cap := fun (n : Nat) => BitVec.ofNat 64 (min (2 ^ 32 - 1) n)
  let total := c.errRem + ops
  [.core id (.errRem (total % 1024)), .core id (.csr 0x014 (cap ((c.csr 0x014).toNat + total / 1024)))] ++
    (if 1 ≤ fid ∧ fid ≤ 3 then [.core id (.csr (0x014 + fid) (cap ((c.csr (0x014 + fid)).toNat + det)))] else []) ++
    [.pkg (.twCount ((s.region (id / 2048)).cluster (id % 2048)) fid ops det)]
/-- The tag table acts (R171). -/
def tagActs (s : State) (k : Key) (id fn d : Nat) (key b : DWord) (tag : Tag) (land : Nat) : List Act :=
  let r := tagAction (s.core id) fn key b
  r.1.map (.core id) ++ [.reg (id / 2048) (.sched (k.at_ land) (.land id [.reg d r.2 tag false]))]

/-- A credit of a list is for a barrier: its bytes, issuer, engine and sequence number (R196). -/
def creditFor (owner b due : Nat) (e : Key × Item) : Option (Nat × Nat × Nat × Nat × Bool) :=
  match e.2 with
  | .credit o x n issuer eng seq timed => if o = owner ∧ x = b ∧ e.1.due = due then some (n, issuer, eng, seq, timed) else none
  | _ => none
/-- The credits of one cycle on one barrier apply together; the first that passes what is expected drops them all (R196). -/
def creditsActs (s : State) (k : Key) (owner b n issuer eng seq : Nat) (timed : Bool) : List Act :=
  let ctx := owner / 2048
  let r := s.region ctx
  let others := r.agenda.filterMap (creditFor owner b k.due)
  let all := (n, issuer, eng, seq, timed) :: others
  let bar := SMap.get {} (s.core owner).bars b
  .reg ctx (.agenda (r.agenda.filter fun e => (creditFor owner b k.due e).isNone)) ::
    match creditAll bar (all.map Prod.fst) with
    | .inl x => [.core owner (.bar b x)]
    | .inr i =>
      let p := all.getD i (n, issuer, eng, seq, timed)
      [.reg (p.2.1 / 2048) (.raise { code := OVERCNT, core := p.2.1, eng := p.2.2.1, fseq := p.2.2.2.1, timed := p.2.2.2.2
                                     wobj := b + owner % 2048 * 2 ^ 16, wval1 := bar.expected.toNat
                                     wval2 := bar.delivered.toNat + ((all.take (i + 1)).map Prod.fst).sum })]
/-- A token count rises by 1; past 255 it stays and SCHED is raised (R175, R182). -/
def tokenActs (s : State) (id t eng seq : Nat) (timed : Bool) : List Act :=
  let n := SMap.get 0 (s.core id).tokens t
  if n < 255 then [.core id (.token t (n + 1))]
  else [.reg (id / 2048) (.raise { code := SCHED, core := id, eng := eng, fseq := seq, timed := timed, wobj := 7, wval1 := (s.region (id / 2048)).cyc, wval2 := t })]
/-- A link word arrives; one that finds the inbox full raises SCHED at the receiver, and is lost, as is one that finds its region
frozen (R199, R312). -/
def linkActs (s : State) (id dir : Nat) (v : DWord) : List Act :=
  let r := s.region (id / 2048)
  if r.frozen then []
  else if ((s.core id).inbox dir).length < Config.inboxDepth then [.core id (.inboxPush dir v)]
  else [.reg (id / 2048) (.raise { code := SCHED, core := id, wobj := 8, wval1 := r.cyc, wval2 := dir, timed := (s.core id).seg.isSome })]
/-- A retry limit is set: the innermost open level's, or the pending one (R210). -/
def rpolActs (c : Core) (n : Nat) : List CAct :=
  match c.levels with
  | [] => [.pendLimit n]
  | l :: ls => [.levels ({ l with limit := n } :: ls)]

/-- What an item does as it falls due; a table event runs through its own meaning. -/
def Item.run (k : Key) (it : Item) (s : State) : List Act :=
  match it with
  | .land id l => l.map (.core id)
  | .sample id target off addr size signed d tag op b cmp due timed => sampleActs s k id target off addr size signed d tag op b cmp due timed
  | .perform _ target off bytes bad => spWrite s target off bytes bad
  | .tldRow id t off r sidecar due => tldRowActs s k id t off r sidecar due
  | .tstRow id t off r start n sidecar due => tstRowActs s k id t off r start n sidecar due
  | .vxRow id i row bsel ctl due => [.reg (id / 2048) (.sched (k.at_ due) (.land id (spoil ((s.core id).vecErr i row ctl) (vecRow i (s.core id) row bsel ctl))))]
  | .vxWhole id i bsel ctl rowen due mul =>
    ((List.range 16).filter fun r => fld rowen r 1 = 1).map fun r =>
      .reg (id / 2048) (.sched (k.at_ (due + r * mul)) (.land id (spoil ((s.core id).wholeErr i r bsel) (wholeSource i (s.core id) r bsel ctl))))
  | .vget id t row lo n d tag due =>
    [.reg (id / 2048) (.sched (k.at_ due) (.land id (spoil ((s.core id).rowErr t row ≠ 0) [.reg d (BitVec.ofNat 64 (fld ((s.core id).row t row).toNat lo n)) tag false])))]
  | .mxRow id i row fe due hist => mxRowActs s k id i row fe due hist
  | .mmaLand id c zero sums width fid tag invalid seq timed =>
    Sys2Proof.Machine.mmaLand s k id c zero sums width fid tag invalid seq timed
  | .errCount id fid ops det => errCountActs s id fid ops det
  | .histCount id bank bins => (histAdd (s.core id) bank bins).map (.core id)
  | .histClear id bank => (List.range 32).map fun i => .core id (.hist (bank * 32 + i) 0)
  | .tagAct id fn d key b tag due => tagActs s k id fn d key b tag due
  | .sbInit id b n => [.core id (.bar b { SMap.get {} (s.core id).bars b with expected := BitVec.ofNat 32 n, delivered := 0 })]
  | .credit owner b n issuer eng seq timed => creditsActs s k owner b n issuer eng seq timed
  | .tokenAdd id t eng seq timed => tokenActs s id t eng seq timed
  | .linkWord id dir v => linkActs s id dir v
  | .copySample id serial => Sys2Proof.Machine.copySample s id serial
  | .payload id serial => payloadPerform s id serial
  | .uecc id addr d v tag timed => ueccActs s id addr d v tag timed
  | .full id t v => [.core id (.tileFull t v)]
  | .csrWrite id n kind v => csrWriteActs s id n kind v
  | .rpol id n => (rpolActs (s.core id) n).map (.core id)
  | .ev _ _ _ => []

/-! ## Untimed service (R152, R157, R160, R351) -/

/-- Two parts name a common byte: of one virtual address, or of one physical byte where the core's matching is aliased (R245,
R258). -/
def UPart.meets (aliased : Bool) (va : Nat) (p : UPart) (va' : Nat) (p' : UPart) : Bool :=
  (decide (va + p.off < va' + p'.off + p'.keys.length) && decide (va' + p'.off < va + p.off + p.keys.length)) ||
    (aliased && p.keys.any p'.keys.contains)
/-- Part p' of an access, or a sample of MWAIT, comes after access e of its core: they share a location, both lie on S pages, or
an MWAIT on a page ended between them (R245, R246, R250, R252). -/
def Untimed.precedes (e : Untimed) (aliased : Bool) (va' : Nat) (p' : UPart) (after : Nat) : Bool :=
  e.parts.any fun p => p.got.isNone && (decide (e.serial < after) || p.meets aliased e.va va' p' || (p.ord = 0 && p'.ord = 0))
/-- Every earlier access of the core that must take effect before this part has done so. -/
def Core.servable (c : Core) (serial va : Nat) (p : UPart) (after : Nat) : Bool :=
  c.untimed.all fun e => decide (serial ≤ e.serial) || !e.precedes c.aliased va p after
/-- Bytes of memory at a part's places, a peer whose route is down answering with an error; forwarded bytes of the core's own
staging stand over them (R153, R243). -/
def servedValue (s : State) (u : Untimed) (p : UPart) : Nat × Bool :=
  let got := (List.range p.keys.length).map fun i =>
    let key := p.keys.getD i 0
    match u.fwd.find? fun q => q.1 = p.off + i with
    | some q => (q.2.1.toNat, q.2.2)
    | none => if s.peerDown key then (0, true) else ((s.byte key).toNat, s.memErr key)
  (got.foldr (fun p n => p.1 + 256 * n) 0, got.any Prod.snd)
/-- Memory serves a part of an untimed load or atomic, once; one that must wait for an earlier access falls due again. An atomic lies in one
page, and reads and writes its location here (R152, R154, R157, R160, R245). -/
def serveActs (s : State) (id serial part : Nat) : List Act :=
  let c := s.core id
  match c.untimed.find? fun u => u.serial = serial with
  | none => []
  | some u => match u.parts[part]? with
    | none => []
    | some p =>
      if p.got.isSome then []
      else if !c.servable serial u.va p u.after then [.pkg (.later (s.now + 1) (.serve id serial part))]
      else
        let u' := { u with parts := u.parts.set part { p with got := some (servedValue s u p) } }
        let set := fun (x : Untimed) => Act.core id (.untimedSet (c.untimed.map fun y => if y.serial = serial then x else y))
        match u'.value with
        | none => [set u']
        | some m =>
          let inj := injected c u.op
          let down := p.keys.any s.peerDown
          let put := if u.op = 0 ∨ u.op = 13 ∨ down then [] else memWrite (p.keys.zip (bytesOf (u'.outcome m.1).1 u.size)) false
          put ++ clearInjection id inj ++ [set (u'.answered inj)]
/-- The unserved accesses of a list, latest first, that must take effect before an access of theirs: a place, a part and a fence (R245,
R246). -/
def accessesAhead (aliased : Bool) : List (Nat × UPart × Nat) → List Untimed → List Untimed
  | _, [] => []
  | need, e :: l =>
    if need.any fun q => e.precedes aliased q.1 q.2.1 q.2.2 then
      accessesAhead aliased ((e.parts.filter fun p => p.got.isNone).map (fun p => (e.va, p, e.after)) ++ need) l ++ [e]
    else accessesAhead aliased need l
/-- Memory serves parts of a core's accesses one after another. -/
def serveAll (id : Nat) : State → List (Nat × Nat) → List Act
  | _, [] => []
  | s, p :: l => let a := serveActs s id p.1 p.2; a ++ serveAll id (s.applyAll a) l
/-- While an MWAIT samples a page, the accesses of its core that must take effect before its reads do so by its first sample: their delay is
free, and no sample waits for it (R163, R245, R259). -/
def sampleAhead (s : State) (va : Nat) (keys : List Nat) (ord : Nat) : List Act :=
  let c := s.cc
  serveAll s.cur s ((accessesAhead c.aliased [(va, ⟨0, keys, ord, none⟩, c.fencedAt)] c.untimed.reverse).flatMap fun u =>
    (List.range u.parts.length).map fun i => (u.serial, i))
/-- The oldest result of a core that is not yet landing falls due: it takes its place among the landings of this cycle, or waits for
memory (R24, R152). -/
def resultActs (s : State) (id : Nat) : List Act :=
  let r := s.region (id / 2048)
  let n := (r.agenda.filter fun e => match e.2 with | .ev c _ .untimedResultLand => c = id | _ => false).length
  match (s.core id).untimed[n]? with
  | none => []
  | some u =>
    if u.served.isNone then [.pkg (.later (s.now + 1) (.result id))]
    else [.reg (id / 2048) (.sched { due := r.cyc, issue := u.issue, core := r.corenum (id % 2048), word := 1 } (.ev id .control .untimedResultLand))]
/-- Work of the package falls due; a table event runs through its own meaning. -/
def GItem.run (g : GItem) (s : State) : List Act :=
  match g with
  | .ev _ _ => []
  | .serve id serial part => serveActs s id serial part
  | .result id => resultActs s id
  | .payload id serial => payloadDue s id serial
  | .stamp id serial => stampDue s id serial
  | .hcmd h op blk => hcmdRun s h op blk
  | .hcmdEnd h status lo n => Sys2Proof.Machine.hcmdEnd s h status lo n
  | .write l => memWrite l false

end Sys2Proof.Machine
end

