-- ==== Sys2Proof/Machine/Scalar.lean ====
section
/-! DEFINITION. Classes 0 to 2: scalar register, immediate and upper-immediate words (R53, R56 to R63). -/

namespace Sys2Proof.Machine

/-- A two-source word: d := f a b, landing L later (R53, R57). -/
def binary (s : State) (d a b : Nat) (L : Nat) (f : DWord → DWord → DWord) : Plan :=
  s.scalar [a, b] d L 0 (f (s.val a) (s.val b)) 0
/-- A one-source word. -/
def unary (s : State) (d a : Nat) (f : DWord → DWord) : Plan := s.scalar [a] d 1 0 (f (s.val a)) 0

/-- The divider (R59): occupied for 18 figures from the issue of a family word, absent clock included. In a timed segment the SCHED of an
occupied divider comes before the CLOCK of the word's tags, and is raised also where its result clock is absent (R28 and R59 give no order;
the model's choice; assumptions 66). -/
def divide (s : State) (d a b : Nat) (f : DWord → DWord → DWord) : Plan :=
  s.unless (decide (s.cc.divFree ≤ s.cyc)) 5 0
    (match binary s d a b Config.divCycles f with
     | .acts l => .acts (s.upd (.divFree (s.cyc + Config.divCycles * s.mul)) :: l)
     | p => p)

/-- A signed result saturated to 64 bits, with the overflow flag (R57, R61). -/
def satSigned (x : Int) : DWord × Nat :=
  if x < -(2 ^ 63) then (BitVec.ofInt 64 (-(2 ^ 63)), 4)
  else if 2 ^ 63 - 1 < x then (BitVec.ofInt 64 (2 ^ 63 - 1), 4)
  else (BitVec.ofInt 64 x, 0)
def saturating (s : State) (d a b : Nat) (x : Int) : Plan := s.scalar [a, b] d 1 0 (satSigned x).1 (satSigned x).2

def bool64 (b : Bool) : DWord := if b then 1 else 0
/-- DIV and REM truncate toward zero; by 0 they give all ones and a (R57, R58). -/
def divS (a b : DWord) : DWord := if b = 0 then BitVec.allOnes 64 else BitVec.ofInt 64 (a.toInt.tdiv b.toInt)
def remS (a b : DWord) : DWord := if b = 0 then a else BitVec.ofInt 64 (a.toInt.tmod b.toInt)
def divU (a b : DWord) : DWord := if b = 0 then BitVec.allOnes 64 else BitVec.ofNat 64 (a.toNat / b.toNat)
def remU (a b : DWord) : DWord := if b = 0 then a else BitVec.ofNat 64 (a.toNat % b.toNat)
def mulHigh (a b : DWord) : DWord := BitVec.ofInt 64 (a.toInt * b.toInt / 2 ^ 64)
def mulHighU (a b : DWord) : DWord := BitVec.ofNat 64 (a.toNat * b.toNat / 2 ^ 64)
/-- The shift amount b[5:0] (R57). -/
def sh6 (b : DWord) : Nat := b.toNat % 64
def clz (a : DWord) : DWord := if a = 0 then 64 else BitVec.ofNat 64 (63 - a.toNat.log2)
def ctz (a : DWord) : DWord := BitVec.ofNat 64 (((List.range 64).find? fun i => a.getLsbD i).getD 64)
def popc (a : DWord) : DWord := BitVec.ofNat 64 ((List.range 64).filter fun i => a.getLsbD i).length
/-- The field mask of BEXT and BINS: width min(b[12:6], 64) (R60). -/
def fieldMask (b : DWord) : DWord := BitVec.ofNat 64 (2 ^ min (fld b.toNat 6 7) 64 - 1)
def bextV (a b : DWord) : DWord := (a >>> sh6 b) &&& fieldMask b
def binsV (d a b : DWord) : DWord := (d &&& ~~~(fieldMask b <<< sh6 b)) ||| ((a &&& fieldMask b) <<< sh6 b)
def sext12 (i : BitVec 12) : DWord := i.signExtend 64

def planAdd (d a b : BitVec 6) (s : State) : Plan := binary s d.toNat a.toNat b.toNat 1 (· + ·)
def planSub (d a b : BitVec 6) (s : State) : Plan := binary s d.toNat a.toNat b.toNat 1 (· - ·)
def planMul (d a b : BitVec 6) (s : State) : Plan := binary s d.toNat a.toNat b.toNat 3 (· * ·)
def planMulh (d a b : BitVec 6) (s : State) : Plan := binary s d.toNat a.toNat b.toNat 3 mulHigh
def planMulhu (d a b : BitVec 6) (s : State) : Plan := binary s d.toNat a.toNat b.toNat 3 mulHighU
def planDiv (d a b : BitVec 6) (s : State) : Plan := divide s d.toNat a.toNat b.toNat divS
def planDivu (d a b : BitVec 6) (s : State) : Plan := divide s d.toNat a.toNat b.toNat divU
def planRem (d a b : BitVec 6) (s : State) : Plan := divide s d.toNat a.toNat b.toNat remS
def planRemu (d a b : BitVec 6) (s : State) : Plan := divide s d.toNat a.toNat b.toNat remU
def planAndS (d a b : BitVec 6) (s : State) : Plan := binary s d.toNat a.toNat b.toNat 1 (· &&& ·)
def planOrS (d a b : BitVec 6) (s : State) : Plan := binary s d.toNat a.toNat b.toNat 1 (· ||| ·)
def planXorS (d a b : BitVec 6) (s : State) : Plan := binary s d.toNat a.toNat b.toNat 1 (· ^^^ ·)
def planAndn (d a b : BitVec 6) (s : State) : Plan := binary s d.toNat a.toNat b.toNat 1 fun x y => x &&& ~~~y
def planShl (d a b : BitVec 6) (s : State) : Plan := binary s d.toNat a.toNat b.toNat 1 fun x y => x <<< sh6 y
def planShr (d a b : BitVec 6) (s : State) : Plan := binary s d.toNat a.toNat b.toNat 1 fun x y => x >>> sh6 y
def planSra (d a b : BitVec 6) (s : State) : Plan := binary s d.toNat a.toNat b.toNat 1 fun x y => x.sshiftRight (sh6 y)
def planRot (d a b : BitVec 6) (s : State) : Plan := binary s d.toNat a.toNat b.toNat 1 fun x y => x.rotateLeft (sh6 y)
def planMin (d a b : BitVec 6) (s : State) : Plan := binary s d.toNat a.toNat b.toNat 1 fun x y => if x.slt y then x else y
def planMax (d a b : BitVec 6) (s : State) : Plan := binary s d.toNat a.toNat b.toNat 1 fun x y => if x.slt y then y else x
def planMinu (d a b : BitVec 6) (s : State) : Plan := binary s d.toNat a.toNat b.toNat 1 fun x y => if x.ult y then x else y
def planMaxu (d a b : BitVec 6) (s : State) : Plan := binary s d.toNat a.toNat b.toNat 1 fun x y => if x.ult y then y else x
def planSeq (d a b : BitVec 6) (s : State) : Plan := binary s d.toNat a.toNat b.toNat 1 fun x y => bool64 (x = y)
def planSlt (d a b : BitVec 6) (s : State) : Plan := binary s d.toNat a.toNat b.toNat 1 fun x y => bool64 (x.slt y)
def planSltu (d a b : BitVec 6) (s : State) : Plan := binary s d.toNat a.toNat b.toNat 1 fun x y => bool64 (x.ult y)
/-- SEL reads d as a source (R57). -/
def planSel (d a b : BitVec 6) (s : State) : Plan :=
  s.scalar [d.toNat, a.toNat, b.toNat] d.toNat 1 0 (if s.val d.toNat ≠ 0 then s.val a.toNat else s.val b.toNat) 0
def planClz (d a : BitVec 6) (s : State) : Plan := unary s d.toNat a.toNat clz
def planCtz (d a : BitVec 6) (s : State) : Plan := unary s d.toNat a.toNat ctz
def planPopc (d a : BitVec 6) (s : State) : Plan := unary s d.toNat a.toNat popc
def planAddsat (d a b : BitVec 6) (s : State) : Plan :=
  saturating s d.toNat a.toNat b.toNat ((s.val a.toNat).toInt + (s.val b.toNat).toInt)
def planSubsat (d a b : BitVec 6) (s : State) : Plan :=
  saturating s d.toNat a.toNat b.toNat ((s.val a.toNat).toInt - (s.val b.toNat).toInt)
def planBext (d a b : BitVec 6) (s : State) : Plan := binary s d.toNat a.toNat b.toNat 1 bextV
/-- BINS reads d as a source (R60). -/
def planBins (d a b : BitVec 6) (s : State) : Plan :=
  s.scalar [d.toNat, a.toNat, b.toNat] d.toNat 1 0 (binsV (s.val d.toNat) (s.val a.toNat) (s.val b.toNat)) 0

/-! Class 1 (R62). -/
def planAddi (d a : BitVec 6) (i : BitVec 12) (s : State) : Plan := unary s d.toNat a.toNat (· + sext12 i)
def planAndi (d a : BitVec 6) (i : BitVec 12) (s : State) : Plan := unary s d.toNat a.toNat (· &&& sext12 i)
def planOri (d a : BitVec 6) (i : BitVec 12) (s : State) : Plan := unary s d.toNat a.toNat (· ||| sext12 i)
def planXori (d a : BitVec 6) (i : BitVec 12) (s : State) : Plan := unary s d.toNat a.toNat (· ^^^ sext12 i)
def planShli (d a i : BitVec 6) (s : State) : Plan := unary s d.toNat a.toNat (· <<< i.toNat)
def planShri (d a i : BitVec 6) (s : State) : Plan := unary s d.toNat a.toNat (· >>> i.toNat)
def planSrai (d a i : BitVec 6) (s : State) : Plan := unary s d.toNat a.toNat (·.sshiftRight i.toNat)
def planSlti (d a : BitVec 6) (i : BitVec 12) (s : State) : Plan := unary s d.toNat a.toNat fun x => bool64 (x.slt (sext12 i))

/-! Class 2 (R63). -/
def planMovi (d : BitVec 6) (i : BitVec 19) (s : State) : Plan := s.scalar [] d.toNat 1 0 (i.signExtend 64) 0
def planInsh (d : BitVec 6) (i : BitVec 19) (s : State) : Plan :=
  unary s d.toNat d.toNat fun x => x.extractLsb' 51 13 ++ i ++ x.extractLsb' 0 32
def planInst (d : BitVec 6) (i : BitVec 13) (s : State) : Plan :=
  unary s d.toNat d.toNat fun x => i ++ x.extractLsb' 0 51
def planMovf (d : BitVec 6) (i : BitVec 19) (s : State) : Plan :=
  s.scalar [] d.toNat 1 0 (0#32 ++ i ++ 0#13) 0

-- The meanings: one for each instruction of this file.
/-- ADD (R57). -/
def execAdd (d : BitVec 6) (a : BitVec 6) (b : BitVec 6) (s : State) : Host.Outcome State Fault Refusal := resolve s (planAdd d a b s)
/-- SUB (R57). -/
def execSub (d : BitVec 6) (a : BitVec 6) (b : BitVec 6) (s : State) : Host.Outcome State Fault Refusal := resolve s (planSub d a b s)
/-- MUL (R57). -/
def execMul (d : BitVec 6) (a : BitVec 6) (b : BitVec 6) (s : State) : Host.Outcome State Fault Refusal := resolve s (planMul d a b s)
/-- MULH (R57). -/
def execMulh (d : BitVec 6) (a : BitVec 6) (b : BitVec 6) (s : State) : Host.Outcome State Fault Refusal := resolve s (planMulh d a b s)
/-- MULHU (R57). -/
def execMulhu (d : BitVec 6) (a : BitVec 6) (b : BitVec 6) (s : State) : Host.Outcome State Fault Refusal := resolve s (planMulhu d a b s)
/-- DIV (R58). -/
def execDiv (d : BitVec 6) (a : BitVec 6) (b : BitVec 6) (s : State) : Host.Outcome State Fault Refusal := resolve s (planDiv d a b s)
/-- DIVU (R58). -/
def execDivu (d : BitVec 6) (a : BitVec 6) (b : BitVec 6) (s : State) : Host.Outcome State Fault Refusal := resolve s (planDivu d a b s)
/-- REM (R58). -/
def execRem (d : BitVec 6) (a : BitVec 6) (b : BitVec 6) (s : State) : Host.Outcome State Fault Refusal := resolve s (planRem d a b s)
/-- REMU (R58). -/
def execRemu (d : BitVec 6) (a : BitVec 6) (b : BitVec 6) (s : State) : Host.Outcome State Fault Refusal := resolve s (planRemu d a b s)
/-- AND (R57). -/
def execAndS (d : BitVec 6) (a : BitVec 6) (b : BitVec 6) (s : State) : Host.Outcome State Fault Refusal := resolve s (planAndS d a b s)
/-- OR (R57). -/
def execOrS (d : BitVec 6) (a : BitVec 6) (b : BitVec 6) (s : State) : Host.Outcome State Fault Refusal := resolve s (planOrS d a b s)
/-- XOR (R57). -/
def execXorS (d : BitVec 6) (a : BitVec 6) (b : BitVec 6) (s : State) : Host.Outcome State Fault Refusal := resolve s (planXorS d a b s)
/-- ANDN (R57). -/
def execAndn (d : BitVec 6) (a : BitVec 6) (b : BitVec 6) (s : State) : Host.Outcome State Fault Refusal := resolve s (planAndn d a b s)
/-- SHL (R57). -/
def execShl (d : BitVec 6) (a : BitVec 6) (b : BitVec 6) (s : State) : Host.Outcome State Fault Refusal := resolve s (planShl d a b s)
/-- SHR (R57). -/
def execShr (d : BitVec 6) (a : BitVec 6) (b : BitVec 6) (s : State) : Host.Outcome State Fault Refusal := resolve s (planShr d a b s)
/-- SRA (R57). -/
def execSra (d : BitVec 6) (a : BitVec 6) (b : BitVec 6) (s : State) : Host.Outcome State Fault Refusal := resolve s (planSra d a b s)
/-- ROT (R57). -/
def execRot (d : BitVec 6) (a : BitVec 6) (b : BitVec 6) (s : State) : Host.Outcome State Fault Refusal := resolve s (planRot d a b s)
/-- MIN (R57). -/
def execMin (d : BitVec 6) (a : BitVec 6) (b : BitVec 6) (s : State) : Host.Outcome State Fault Refusal := resolve s (planMin d a b s)
/-- MAX (R57). -/
def execMax (d : BitVec 6) (a : BitVec 6) (b : BitVec 6) (s : State) : Host.Outcome State Fault Refusal := resolve s (planMax d a b s)
/-- MINU (R57). -/
def execMinu (d : BitVec 6) (a : BitVec 6) (b : BitVec 6) (s : State) : Host.Outcome State Fault Refusal := resolve s (planMinu d a b s)
/-- MAXU (R57). -/
def execMaxu (d : BitVec 6) (a : BitVec 6) (b : BitVec 6) (s : State) : Host.Outcome State Fault Refusal := resolve s (planMaxu d a b s)
/-- SEQ (R57). -/
def execSeq (d : BitVec 6) (a : BitVec 6) (b : BitVec 6) (s : State) : Host.Outcome State Fault Refusal := resolve s (planSeq d a b s)
/-- SLT (R57). -/
def execSlt (d : BitVec 6) (a : BitVec 6) (b : BitVec 6) (s : State) : Host.Outcome State Fault Refusal := resolve s (planSlt d a b s)
/-- SLTU (R57). -/
def execSltu (d : BitVec 6) (a : BitVec 6) (b : BitVec 6) (s : State) : Host.Outcome State Fault Refusal := resolve s (planSltu d a b s)
/-- SEL (R57). -/
def execSel (d : BitVec 6) (a : BitVec 6) (b : BitVec 6) (s : State) : Host.Outcome State Fault Refusal := resolve s (planSel d a b s)
/-- CLZ (R57). -/
def execClz (d : BitVec 6) (a : BitVec 6) (s : State) : Host.Outcome State Fault Refusal := resolve s (planClz d a s)
/-- CTZ (R57). -/
def execCtz (d : BitVec 6) (a : BitVec 6) (s : State) : Host.Outcome State Fault Refusal := resolve s (planCtz d a s)
/-- POPC (R57). -/
def execPopc (d : BitVec 6) (a : BitVec 6) (s : State) : Host.Outcome State Fault Refusal := resolve s (planPopc d a s)
/-- ADDSAT (R61). -/
def execAddsat (d : BitVec 6) (a : BitVec 6) (b : BitVec 6) (s : State) : Host.Outcome State Fault Refusal := resolve s (planAddsat d a b s)
/-- SUBSAT (R61). -/
def execSubsat (d : BitVec 6) (a : BitVec 6) (b : BitVec 6) (s : State) : Host.Outcome State Fault Refusal := resolve s (planSubsat d a b s)
/-- BEXT (R60). -/
def execBext (d : BitVec 6) (a : BitVec 6) (b : BitVec 6) (s : State) : Host.Outcome State Fault Refusal := resolve s (planBext d a b s)
/-- BINS (R60). -/
def execBins (d : BitVec 6) (a : BitVec 6) (b : BitVec 6) (s : State) : Host.Outcome State Fault Refusal := resolve s (planBins d a b s)
/-- ADDI (R62). -/
def execAddi (d : BitVec 6) (a : BitVec 6) (i : BitVec 12) (s : State) : Host.Outcome State Fault Refusal := resolve s (planAddi d a i s)
/-- ANDI (R62). -/
def execAndi (d : BitVec 6) (a : BitVec 6) (i : BitVec 12) (s : State) : Host.Outcome State Fault Refusal := resolve s (planAndi d a i s)
/-- ORI (R62). -/
def execOri (d : BitVec 6) (a : BitVec 6) (i : BitVec 12) (s : State) : Host.Outcome State Fault Refusal := resolve s (planOri d a i s)
/-- XORI (R62). -/
def execXori (d : BitVec 6) (a : BitVec 6) (i : BitVec 12) (s : State) : Host.Outcome State Fault Refusal := resolve s (planXori d a i s)
/-- SHLI (R62). -/
def execShli (d : BitVec 6) (a : BitVec 6) (i : BitVec 6) (s : State) : Host.Outcome State Fault Refusal := resolve s (planShli d a i s)
/-- SHRI (R62). -/
def execShri (d : BitVec 6) (a : BitVec 6) (i : BitVec 6) (s : State) : Host.Outcome State Fault Refusal := resolve s (planShri d a i s)
/-- SRAI (R62). -/
def execSrai (d : BitVec 6) (a : BitVec 6) (i : BitVec 6) (s : State) : Host.Outcome State Fault Refusal := resolve s (planSrai d a i s)
/-- SLTI (R62). -/
def execSlti (d : BitVec 6) (a : BitVec 6) (i : BitVec 12) (s : State) : Host.Outcome State Fault Refusal := resolve s (planSlti d a i s)
/-- MOVI (R63). -/
def execMovi (d : BitVec 6) (i : BitVec 19) (s : State) : Host.Outcome State Fault Refusal := resolve s (planMovi d i s)
/-- INSH (R63). -/
def execInsh (d : BitVec 6) (i : BitVec 19) (s : State) : Host.Outcome State Fault Refusal := resolve s (planInsh d i s)
/-- INST (R63). -/
def execInst (d : BitVec 6) (i : BitVec 13) (s : State) : Host.Outcome State Fault Refusal := resolve s (planInst d i s)
/-- MOVF (R63). -/
def execMovf (d : BitVec 6) (i : BitVec 19) (s : State) : Host.Outcome State Fault Refusal := resolve s (planMovf d i s)

end Sys2Proof.Machine
end

