-- ==== Sys2Proof/Machine/Stream.lean ====
section
/-! DEFINITION. Class 5: clocks, sampling, merging, delay registers (R80 to R90). -/

namespace Sys2Proof.Machine

/-- The source clock that WHEN requires (R83). -/
def whenSource (c : Core) (k : Tag) : Tag := if k = 1 then 1 else (c.clock k.toNat).parent
/-- A source tag allowed on clock k: k0 or k, and defined (R81, R83, R86, R88). -/
def tagOn (c : Core) (t k : Tag) : Bool := c.defined t && (t = 0 ∨ t = k)
/-- WHEN's issue check (R83, R90): none ILLEGAL, some false CLOCK. -/
def whenOk (c : Core) (src k : Tag) : Bool := c.defined k && tagOn c src (whenSource c k)
/-- MERGE's issue check (R84, R90). -/
def mergeOk (c : Core) (src old k : Tag) : Bool :=
  let q := c.clock k.toNat
  q.defined && q.pv && tagOn c src k && c.defined old && (old = 0 ∨ old = q.partner ∨ old = q.parent)
/-- A clock definition takes effect from the next cycle (R14). -/
def State.defines (s : State) (l : List CAct) : Act := .reg s.ctx (.sched (s.key (s.cyc + 1) 0) (.land s.cur l))

/-- CKDEF (R81). -/
def planCkdef (n : BitVec 6) (a : BitVec 7) (k x : BitVec 4) (s : State) : Plan :=
  let c := s.cc
  if x.toNat < 2 then s.trap ILLEGAL
  else if !c.defined k || c.defined x || !tagOn c (s.tag a.toNat) k then s.trap CLOCK
  else if s.bad a.toNat then s.trap UECC
  else .acts [s.defines [.clock x.toNat { defined := true, present := c.present k && (s.val a.toNat).getLsbD n.toNat, parent := k }]]
/-- CKNEG (R82). -/
def planCkneg (k x : BitVec 4) (s : State) : Plan :=
  let c := s.cc
  let q := c.clock k.toNat
  if x.toNat < 2 ∨ k.toNat < 2 then s.trap ILLEGAL
  else if !q.defined || c.defined x || q.neg || q.pv then s.trap CLOCK
  else .acts [s.defines [
    .clock x.toNat ⟨true, c.present q.parent && !c.present k, q.parent, k, true, true⟩,
    .clock k.toNat { q with partner := x, pv := true }]]
/-- WHEN, scalar form (R83). -/
def planWhen (d a : BitVec 7) (k : BitVec 4) (s : State) : Plan :=
  let c := s.cc
  if k = 0 then s.trap ILLEGAL
  else if !whenOk c (s.tag a.toNat) k then s.trap CLOCK
  else if !c.present k then .acts []
  else if s.bad a.toNat then s.trap UECC
  else .acts [s.lands 1 0 [.reg d.toNat (s.val a.toNat) k false]]
/-- MERGE, scalar form (R84). Of its two sources the one whose value lands is a source value in the sense of R321, and its error
alone raises UECC (the model's choice; assumptions 52). -/
def planMerge (d a : BitVec 7) (k : BitVec 4) (s : State) : Plan :=
  let c := s.cc
  let p := (c.clock k.toNat).parent
  let src := if c.present k then a.toNat else d.toNat
  if k.toNat < 2 then s.trap ILLEGAL
  else if !mergeOk c (s.tag a.toNat) (s.tag d.toNat) k then s.trap CLOCK
  else if !c.present p then .acts []
  else if s.bad src then s.trap UECC
  else .acts [s.lands 1 0 [.reg d.toNat (s.val src) p false]]

/-- The rows of tile a, as they stand, land in tile d from 2 + i; sidecar and tag land at 2 (R85). -/
def moveTile (s : State) (d a : Nat) (tag : Tag) : List Act :=
  let c := s.cc
  s.lands 2 0 [.side d (c.side a) 0, .tileTag d tag] ::
    (List.range 16).map fun i => s.lands (2 + i) 0 [.row d i (c.row a i) 0]

/-- WHEN.T (R85). In elastic code a failed tile test holds it unchecked; with its clock absent it tests no tile (R33). The model's choices: in a
timed segment a word whose tags and whose tile test both fail raises CLOCK, as its tags are checked first (R90 says only that a failed tile
test raises SCHED; assumptions 51), and SCHED before the UECC of the tile it moves (R85, R90 and R321 give no order; assumptions 52); where
the tests of tA and of tD both fail, SCHED names tA (assumptions 66); in elastic code an undefined kC, which is not present, raises CLOCK at once and holds nothing (assumptions 28). -/
def planWhenT (d a : BitVec 7) (k : BitVec 4) (s : State) : Plan :=
  let c := s.cc
  let same := d = a
  let full := c.tileOk a.toNat true
  let empty := same || c.tileOk d.toNat false
  s.holdFirst (!c.present k || (full && empty)) <|
  if k = 0 then s.trap ILLEGAL
  else if !whenOk c (c.ttag a.toNat) k then s.trap CLOCK
  else if !c.present k then .acts []
  else
    s.unless full 6 a.toNat <|
    s.unless empty 6 d.toNat <|
    if c.tileErr a.toNat then s.trap UECC
    else .acts (moveTile s d.toNat a.toNat k ++
      if c.coupling d.toNat = 0 ∨ same then [] else [s.after 17 0 (.full s.cur d.toNat true)])
/-- MERGE.T (R85). The error of the tile that stays or moves alone raises UECC (the model's choice; assumptions 52). The model's choices, as
for WHEN.T: CLOCK before SCHED in a timed segment (R90; assumptions 51), SCHED before UECC (assumptions 52), and SCHED names
tA where both tiles fail (assumptions 66). In elastic code the parent of an undefined kC reads k0, which is present, so that a word on one is held while a tile test fails, and
raises CLOCK once it does not (assumptions 28). -/
def planMergeT (d a : BitVec 7) (k : BitVec 4) (s : State) : Plan :=
  let c := s.cc
  let p := (c.clock k.toNat).parent
  let fullA := c.tileOk a.toNat true
  let fullD := c.tileOk d.toNat true
  s.holdFirst (!c.present p || (fullA && fullD)) <|
  if k.toNat < 2 then s.trap ILLEGAL
  else if !mergeOk c (c.ttag a.toNat) (c.ttag d.toNat) k then s.trap CLOCK
  else if !c.present p then .acts []
  else
    s.unless fullA 6 a.toNat <|
    s.unless fullD 6 d.toNat <|
    if c.tileErr (if c.present k then a.toNat else d.toNat) then s.trap UECC
    else .acts (if c.present k then moveTile s d.toNat a.toNat p else [s.lands 2 0 [.tileTag d.toNat p]])

/-- DLYI records the clock index unexamined (R86). The control core's divisor stretches its effect as that of a result, as it
does DLYW's (R291 lists neither; the model's choice; assumptions 53). -/
def planDlyi (a : BitVec 7) (k x : BitVec 4) (s : State) : Plan :=
  if !tagOn s.cc (s.tag a.toNat) k then s.trap CLOCK
  else if s.bad a.toNat then s.trap UECC
  else .acts [s.lands 1 0 [.delayInit x.toNat (s.val a.toNat) k]]
/-- DLYR (R87). -/
def planDlyr (d : BitVec 7) (x : BitVec 4) (s : State) : Plan :=
  let c := s.cc
  let dl := SMap.get {} c.delays x.toNat
  if !c.defined dl.clk then s.trap CLOCK
  else if !c.present dl.clk then .acts []
  else .acts [s.lands 1 0 [.reg d.toNat dl.committed dl.clk false]]
/-- DLYW (R88; the divisor as for DLYI, assumptions 53). -/
def planDlyw (a : BitVec 7) (x : BitVec 4) (s : State) : Plan :=
  let c := s.cc
  let k := (SMap.get {} c.delays x.toNat).clk
  if !c.defined k || !tagOn c (s.tag a.toNat) k then s.trap CLOCK
  else if !c.present k then .acts []
  else if s.bad a.toNat then s.trap UECC
  else .acts [s.lands 1 0 [.delayStage x.toNat (s.val a.toNat)]]

/-- The state of a clock in CKSTAT's layout (R89). -/
def clockWord (q : Clock) : DWord :=
  if !q.defined then 0
  else 0#52 ++ BitVec.ofBool q.neg ++ (if q.pv then q.partner else 0) ++ BitVec.ofBool q.pv ++ q.parent
    ++ BitVec.ofBool q.present ++ 1#1
/-- CKTST (R89). -/
def planCktst (d : BitVec 7) (k : BitVec 4) (s : State) : Plan :=
  let q := s.cc.clock k.toNat
  .acts [s.lands 1 0 [.reg d.toNat (BitVec.ofNat 64 ((if q.defined && q.present then 1 else 0) + (if q.defined then 2 else 0))) 1 false]]
/-- CKSTAT (R89). -/
def planCkstat (d : BitVec 7) (k : BitVec 4) (s : State) : Plan :=
  .acts [s.lands 1 0 [.reg d.toNat (clockWord (s.cc.clock k.toNat)) 1 false]]

-- The meanings: one for each instruction of this file.
/-- CKDEF (R81). -/
def execCkdef (n : BitVec 6) (a : BitVec 7) (k : BitVec 4) (x : BitVec 4) (s : State) : Host.Outcome State Fault Refusal := resolve s (planCkdef n a k x s)
/-- CKNEG (R82). -/
def execCkneg (k : BitVec 4) (x : BitVec 4) (s : State) : Host.Outcome State Fault Refusal := resolve s (planCkneg k x s)
/-- WHEN (R83). -/
def execWhen (d : BitVec 7) (a : BitVec 7) (k : BitVec 4) (s : State) : Host.Outcome State Fault Refusal := resolve s (planWhen d a k s)
/-- WHEN_T (R85). -/
def execWhenT (d : BitVec 7) (a : BitVec 7) (k : BitVec 4) (s : State) : Host.Outcome State Fault Refusal := resolve s (planWhenT d a k s)
/-- MERGE (R84). -/
def execMerge (d : BitVec 7) (a : BitVec 7) (k : BitVec 4) (s : State) : Host.Outcome State Fault Refusal := resolve s (planMerge d a k s)
/-- MERGE_T (R85). -/
def execMergeT (d : BitVec 7) (a : BitVec 7) (k : BitVec 4) (s : State) : Host.Outcome State Fault Refusal := resolve s (planMergeT d a k s)
/-- DLYI (R86). -/
def execDlyi (a : BitVec 7) (k : BitVec 4) (x : BitVec 4) (s : State) : Host.Outcome State Fault Refusal := resolve s (planDlyi a k x s)
/-- DLYR (R87). -/
def execDlyr (d : BitVec 7) (x : BitVec 4) (s : State) : Host.Outcome State Fault Refusal := resolve s (planDlyr d x s)
/-- DLYW (R88). -/
def execDlyw (a : BitVec 7) (x : BitVec 4) (s : State) : Host.Outcome State Fault Refusal := resolve s (planDlyw a x s)
/-- CKTST (R89). -/
def execCktst (d : BitVec 7) (k : BitVec 4) (s : State) : Host.Outcome State Fault Refusal := resolve s (planCktst d k s)
/-- CKSTAT (R89). -/
def execCkstat (d : BitVec 7) (k : BitVec 4) (s : State) : Host.Outcome State Fault Refusal := resolve s (planCkstat d k s)

end Sys2Proof.Machine
end

