-- ==== Sys2Proof/Machine/Issue.lean ====
section
/-! DEFINITION. Fetching and issuing a bundle (R31 to R36, R41 to R43, R47, R73). -/

namespace Sys2Proof.Machine

/-- The plan of a word; an event has none. -/
def planWord (i : Instr) (σ : State) : Plan :=
  match i with
  | .add d a b => planAdd d a b σ
  | .sub d a b => planSub d a b σ
  | .mul d a b => planMul d a b σ
  | .mulh d a b => planMulh d a b σ
  | .mulhu d a b => planMulhu d a b σ
  | .div d a b => planDiv d a b σ
  | .divu d a b => planDivu d a b σ
  | .rem d a b => planRem d a b σ
  | .remu d a b => planRemu d a b σ
  | .andS d a b => planAndS d a b σ
  | .orS d a b => planOrS d a b σ
  | .xorS d a b => planXorS d a b σ
  | .andn d a b => planAndn d a b σ
  | .shl d a b => planShl d a b σ
  | .shr d a b => planShr d a b σ
  | .sra d a b => planSra d a b σ
  | .rot d a b => planRot d a b σ
  | .min d a b => planMin d a b σ
  | .max d a b => planMax d a b σ
  | .minu d a b => planMinu d a b σ
  | .maxu d a b => planMaxu d a b σ
  | .seq d a b => planSeq d a b σ
  | .slt d a b => planSlt d a b σ
  | .sltu d a b => planSltu d a b σ
  | .sel d a b => planSel d a b σ
  | .clz d a => planClz d a σ
  | .ctz d a => planCtz d a σ
  | .popc d a => planPopc d a σ
  | .addsat d a b => planAddsat d a b σ
  | .subsat d a b => planSubsat d a b σ
  | .bext d a b => planBext d a b σ
  | .bins d a b => planBins d a b σ
  | .addi d a i => planAddi d a i σ
  | .andi d a i => planAndi d a i σ
  | .ori d a i => planOri d a i σ
  | .xori d a i => planXori d a i σ
  | .shli d a i => planShli d a i σ
  | .shri d a i => planShri d a i σ
  | .srai d a i => planSrai d a i σ
  | .slti d a i => planSlti d a i σ
  | .movi d i => planMovi d i σ
  | .insh d i => planInsh d i σ
  | .inst d i => planInst d i σ
  | .movf d i => planMovf d i σ
  | .idle n => planIdle n σ
  | .jmp t => planJmp t σ
  | .bnz a t => planBnz a t σ
  | .bz a t => planBz a t σ
  | .call t => planCall t σ
  | .ret => planRet σ
  | .loop l c n => planLoop l c n σ
  | .loops l a n => planLoops l a n σ
  | .segb v n => planSegb v n σ
  | .sege lit => planSege lit σ
  | .endi => planEndi σ
  | .kend => planKend σ
  | .nexts a n b => planNexts a n b σ
  | .waits s => planWaits s σ
  | .ldb d a o => planLdb d a o σ
  | .ldbu d a o => planLdbu d a o σ
  | .ldh d a o => planLdh d a o σ
  | .ldhu d a o => planLdhu d a o σ
  | .ldw d a o => planLdw d a o σ
  | .ldwu d a o => planLdwu d a o σ
  | .ldd d a o => planLdd d a o σ
  | .stb d a o => planStb d a o σ
  | .sth d a o => planSth d a o σ
  | .stw d a o => planStw d a o σ
  | .std d a o => planStd d a o σ
  | .lwait d l => planLwait d l σ
  | .aadd d a b => planAadd d a b σ
  | .aand d a b => planAand d a b σ
  | .aor d a b => planAor d a b σ
  | .axor d a b => planAxor d a b σ
  | .amin d a b => planAmin d a b σ
  | .amax d a b => planAmax d a b σ
  | .aminu d a b => planAminu d a b σ
  | .amaxu d a b => planAmaxu d a b σ
  | .aswap d a b => planAswap d a b σ
  | .acas d a b => planAcas d a b σ
  | .afadd a b => planAfadd a b σ
  | .acell a b => planAcell a b σ
  | .acrd d a => planAcrd d a σ
  | .acflg d a b => planAcflg d a b σ
  | .fenceAcq => planFenceAcq σ
  | .fenceRel => planFenceRel σ
  | .fenceFull => planFenceFull σ
  | .fenceAlias => planFenceAlias σ
  | .mwait d a b l => planMwait d a b l σ
  | .qwait a l => planQwait a l σ
  | .ckdef n a k x => planCkdef n a k x σ
  | .ckneg k x => planCkneg k x σ
  | .when d a k => planWhen d a k σ
  | .whenT d a k => planWhenT d a k σ
  | .merge d a k => planMerge d a k σ
  | .mergeT d a k => planMergeT d a k σ
  | .dlyi a k x => planDlyi a k x σ
  | .dlyr d x => planDlyr d x σ
  | .dlyw a x => planDlyw a x σ
  | .cktst d k => planCktst d k σ
  | .ckstat d k => planCkstat d k σ
  | .rbegin l => planRbegin l σ
  | .rpresvS f l => planRpresvS f l σ
  | .rpresvT f l => planRpresvT f l σ
  | .rpresvM a b => planRpresvM a b σ
  | .rpresvC m => planRpresvC m σ
  | .rend l => planRend l σ
  | .rabort => planRabort σ
  | .rpol a => planRpol a σ
  | .safept i => planSafept i σ
  | .csrr d c => planCsrr d c σ
  | .csrw a c => planCsrw a c σ
  | .csrs a c => planCsrs a c σ
  | .csrc a c => planCsrc a c σ
  | .trap c => planTrap c σ
  | .tret => planTret σ
  | .brk c => planBrk c σ
  | .fidel n => planFidel n σ
  | .clkdiv u v => planClkdiv u v σ
  | .haltg => planHaltg σ
  | .killc a => planKillc a σ
  | .tlblk a b => planTlblk a b σ
  | .vadd d a b t => planVadd d a b t σ
  | .vsub d a b t => planVsub d a b t σ
  | .vadds d a b t => planVadds d a b t σ
  | .vaddsu d a b t => planVaddsu d a b t σ
  | .vmul d a b t => planVmul d a b t σ
  | .vmulh d a b t => planVmulh d a b t σ
  | .vmin d a b t => planVmin d a b t σ
  | .vmax d a b t => planVmax d a b t σ
  | .vminu d a b t => planVminu d a b t σ
  | .vmaxu d a b t => planVmaxu d a b t σ
  | .vand d a b t => planVand d a b t σ
  | .vor d a b t => planVor d a b t σ
  | .vxor d a b t => planVxor d a b t σ
  | .vshl d a b t => planVshl d a b t σ
  | .vshr d a b t => planVshr d a b t σ
  | .vsra d a b t => planVsra d a b t σ
  | .vfadd d a b t => planVfadd d a b t σ
  | .vfsub d a b t => planVfsub d a b t σ
  | .vfmul d a b t => planVfmul d a b t σ
  | .vfma d a b t => planVfma d a b t σ
  | .vfmin d a b t => planVfmin d a b t σ
  | .vfmax d a b t => planVfmax d a b t σ
  | .vfabs d a t => planVfabs d a t σ
  | .vfneg d a t => planVfneg d a t σ
  | .vfrcp d a t => planVfrcp d a t σ
  | .vfrsq d a t => planVfrsq d a t σ
  | .vfexp2 d a t => planVfexp2 d a t σ
  | .vflog2 d a t => planVflog2 d a t σ
  | .vfrsum d a t => planVfrsum d a t σ
  | .vfrmax d a t => planVfrmax d a t σ
  | .vfscl d a b t => planVfscl d a b t σ
  | .vfcpy d a b t => planVfcpy d a b t σ
  | .vcvt d a g r s => planVcvt d a g r s σ
  | .vexp d a f => planVexp d a f σ
  | .vmxs d a => planVmxs d a σ
  | .vcmpeq d a b => planVcmpeq d a b σ
  | .vcmplt d a b => planVcmplt d a b σ
  | .vcmple d a b => planVcmple d a b σ
  | .vfcmpeq d a b => planVfcmpeq d a b σ
  | .vfcmplt d a b => planVfcmplt d a b σ
  | .vfcmple d a b => planVfcmple d a b σ
  | .vsel d a b => planVsel d a b σ
  | .vtrn d a => planVtrn d a σ
  | .vbcr d a b => planVbcr d a b σ
  | .vshuf d a b => planVshuf d a b σ
  | .vmov d a => planVmov d a σ
  | .vrot d a b => planVrot d a b σ
  | .vpck d a b => planVpck d a b σ
  | .vupk d a => planVupk d a σ
  | .viota d => planViota d σ
  | .vget d a b => planVget d a b σ
  | .vput d a b => planVput d a b σ
  | .vsete d v => planVsete d v σ
  | .tld t a o => planTld t a o σ
  | .tst t a o => planTst t a o σ
  | .tlds t a o => planTlds t a o σ
  | .tsts t a o => planTsts t a o σ
  | .tstm t a m => planTstm t a m σ
  | .tlook d a => planTlook d a σ
  | .tins d a b => planTins d a b σ
  | .tevt d a => planTevt d a σ
  | .tagrd d a => planTagrd d a σ
  | .mma c a b s z x m => planMma c a b s z x m σ
  | .mldb a b s z x => planMldb a b s z x σ
  | .mdrn c d q s => planMdrn c d q s σ
  | .mzero c k m => planMzero c k m σ
  | .mfmt n a => planMfmt n a σ
  | .mhst b => planMhst b σ
  | .cpt a b s g h => planCpt a b s g h σ
  | .cpa a b s g h => planCpa a b s g h σ
  | .cpm a b s g => planCpm a b s g σ
  | .cpl a b l => planCpl a b l σ
  | .cpk a b s g h => planCpk a b s g h σ
  | .sbini a s => planSbini a s σ
  | .sbarr a s => planSbarr a s σ
  | .sbwt s l p => planSbwt s l p σ
  | .run g b c => planRun g b c σ
  | .runs g b c lit => planRuns g b c lit σ
  | .loopb g a n lit => planLoopb g a n lit σ
  | .pace g p => planPace g p σ
  | .sigt t => planSigt t σ
  | .waitt l t => planWaitt l t σ
  | .guard g p h w v s u => planGuard g p h w v s u σ
  | .pset p a => planPset p a σ
  | .pinv p => planPinv p σ
  | .qdrn g l => planQdrn g l σ
  | .qseq g d s => planQseq g d s σ
  | .tblw g a b => planTblw g a b σ
  | .lsend r a => planLsend r a σ
  | .lrecv r d => planLrecv r d σ
  | .bar b => planBar b σ
  | .barw b l => planBarw b l σ
  | .chwr c a => planChwr c a σ
  | .chrd c d k => planChrd c d k σ
  | .chpop c => planChpop c σ
  | .nodeq a => planNodeq a σ
  | .glnch a => planGlnch a σ
  | _ => .acts []

/-! ## Queue entries (R173 to R175, R294) -/

/-- The first cycle at or after n whose distance from IBASE is a multiple of d (R294). -/
def alignTo (ibase d n : Nat) : Nat := ibase + (n - ibase + d - 1) / d * d
/-- The cycle at which an engine can next dequeue (R173, R294). -/
def nextDequeue (s : State) (e : Nat) : Nat :=
  let g := s.cc.eng e
  alignTo s.rr.ibase (s.cc.divisor (e + 1)) (max g.freeAt ((g.lastH.map (· + g.pace)).getD 0))
/-- A trap of a timed entry's start: SCHED with its cause and object, its own stamp, and the engine's next sequence number (R307, R309). -/
def startFault (s : State) (e cause obj : Nat) (q : QEntry) : FaultInfo :=
  { code := SCHED, core := s.cur, eng := e, wobj := cause, wval1 := s.rr.ibase + q.stamp, wval2 := obj
    fseq := (s.cc.eng e).seq.toNat, timed := true }
/-- The first condition of R174 that fails for an entry: its cause and object. -/
def startBlock (c : Core) (q : QEntry) : Option (Nat × Nat) :=
  match q.wtok with
  | some t => if SMap.get 0 c.tokens t = 0 then some (10, t) else guardBlock
  | none => guardBlock
where
  guardBlock : Option (Nat × Nat) := match q.guard with
    | some p => if (SMap.get ({} : Pred) c.preds p).written then none else some (3, p)
    | none => none
/-- The cause for which the timed entry at an engine's head cannot start in this cycle, at or after its stamp (R173, R174, R294). -/
def timedBlock (s : State) (e : Nat) (q : QEntry) : Option (Nat × Nat) :=
  if q.stamp % s.cc.divisor (e + 1) ≠ 0 then some (13, e)
  else if s.rr.ibase + q.stamp < s.cyc ∨ s.cyc < nextDequeue s e then some (5, e)
  else startBlock s.cc q
/-- The head of an engine that runs nothing starts, is skipped, or faults in this cycle. -/
def startsNow (s : State) (e : Nat) (q : QEntry) : Bool :=
  decide (s.rr.ibase + q.stamp ≤ s.cyc) &&
    (q.timed || (decide (nextDequeue s e ≤ s.cyc) && decide ((s.cyc - s.rr.ibase) % s.cc.divisor (e + 1) = 0) && (startBlock s.cc q).isNone))
/-- The start of an entry at h, this cycle: its token is consumed; its sequence number is taken at its first dequeue (R172); a guard whose
value is 0 skips it (R173, R174). -/
def startActs (s : State) (e : Nat) (q : QEntry) : List Act :=
  let c := s.cc
  let g := c.eng e
  let skip := match q.guard with | some p => !(SMap.get ({} : Pred) c.preds p).value | none => false
  (match q.wtok with | some t => [s.upd (.tokenSub t)] | none => []) ++
    if skip then
      let a := [s.upd (.eng e { g with queue := g.queue.drop 1, headSeq := g.seq, seq := g.seq + 1, lastH := some s.cyc, freeAt := s.cyc + 1 })]
      a ++ match q.stok with | some t => tokenActs ((s.applyAll ((match q.wtok with | some t => [s.upd (.tokenSub t)] | none => []) ++ a))) s.cur t e g.seq.toNat q.timed | none => []
    else [s.upd (.eng e { g with running := true, step := q.base, rep := q.reps, due := s.cyc, headSeq := g.seq
                                 lastH := some s.cyc, doneAt := 0, copies := 0, blocked := false })]
/-- What stands at a word address: a malformed bundle, or its words and its length with a literal (R32, R33, R35, R36). -/
def fetchBundle (code : SMap Word) (pc : Nat) : Option (List Nat × Nat) :=
  let w := fun (i : Nat) => (SMap.get 0 code (pc + i)).toNat
  let a := w 0
  let b := w 1
  let c := w 2
  let lit := fun (x : Nat) => takesLiteral (x % 2 ^ 31)
  if Config.codeWords ≤ pc then none
  else if lit a then (if a / 2 ^ 31 = 1 ∧ pc + 1 < Config.codeWords then some ([a], 2) else none)
  else if a / 2 ^ 31 = 1 then some ([a], 1)
  else if Config.codeWords ≤ pc + 1 ∨ lit b ∨ slotGroup b ≤ slotGroup a then none
  else if b / 2 ^ 31 = 1 then some ([a, b], 2)
  else if Config.codeWords ≤ pc + 2 ∨ lit c ∨ slotGroup c ≤ slotGroup b ∨ c / 2 ^ 31 = 0 then none
  else some ([a, b, c], 3)

/-- A bundle as it is packed while it issues: its words, or its word and its literal. -/
def packed (code : SMap Word) (pc : Nat) : Nat :=
  let w := fun (i : Nat) => (SMap.get 0 code (pc + i)).toNat
  w 0 + w 1 * 2 ^ 32 + w 2 * 2 ^ 64

/-- A bundle of a length begins to issue at the acting core's pc: its words, its address, the address after it, its cost (R295). -/
def beginActs (s : State) (len : Nat) : List Act :=
  [.pkg (.word (packed (s.rr.codeAt s.cc) s.cc.pc)), s.upd (.issPc s.cc.pc), s.upd (.npc (s.cc.pc + len) (s.cc.divisor 0)), s.upd (.xfer 0)]
/-- The state on which the words of the bundle at pc are checked and act. -/
def beginBundle (s : State) (len : Nat) : State := s.applyAll (beginActs s len)

/-- The instruction of a fetched word, with the literal that follows it. -/
def decodeAt (code : SMap Word) (pc w : Nat) : Except DecodeError Instr := decode w (SMap.get 0 code (pc + 1))

/-- The instruction of the bundle at pc when it is a single well-formed word. -/
def soleInstr (code : SMap Word) (pc : Nat) : Option (Instr × Nat) :=
  match fetchBundle code pc with
  | some ([w], n) => match decodeAt code pc w with
    | .ok i => some (i, n)
    | .error _ => none
  | _ => none

/-- The bundle at the cycle that closes an open segment must be SEGE (R73). -/
def segmentEnds (s : State) : Option FaultInfo :=
  match s.cc.seg with
  | some g =>
    let last := match soleInstr (s.rr.codeAt s.cc) s.cc.pc with
      | some (.sege _, _) => true
      | _ => false
    if s.cyc + 1 = g.start + g.len ∧ !last then
      some { s.fault SEGLEN with wobj := segIndex s.rr g.pc, wval1 := g.len, wval2 := g.len }
    else none
  | none => none

/-- The micro-order at an engine's head as an instruction of that engine, or nothing where its dequeue raises ILLEGAL (R41, R43). -/
def microOrder (c : Core) (e : Nat) : Option Instr :=
  let w := (c.micro e).toNat
  let table := ((c.eng e).queue.head?.bind QEntry.word).isNone
  let cls := fld w 27 4
  let mine : Bool := if e = 0 then cls = 12 else if e = 1 then cls = 8 ∨ cls = 9 ∨ cls = 10 else cls = 13 ∧ fld w 24 3 < 5
  if table ∧ (w / 2 ^ 31 = 1 ∨ !mine) then none
  else match decode w 0 with
    | .ok i => some i
    | .error _ => none

/-! ## The words of one bundle -/

/-- The engines of the acting core have the steps of this cycle still before them. -/
def State.enginesToCome (s : State) : Bool := s.todo.contains (.control s.cur false)
/-- The first engine of the acting core whose head starts, is skipped or faults in this cycle (R173, R174). -/
def starting (s : State) : Option Nat :=
  [0, 1, 2].find? fun e =>
    let g := s.cc.eng e
    !g.stopped && !g.running && match g.queue.head? with
      | some q => !q.faulted && startsNow (s.applyAll [.pkg (.cur s.cur (.engine e))]) e q
      | none => false
/-- An engine's step is due: its entry runs, and the cycle is one of its clock's (R173, R294). -/
def stepDue (r : Region) (c : Core) (e : Nat) : Bool :=
  let g := c.eng e
  !g.stopped && g.running && decide (g.due ≤ r.cyc) && decide ((r.cyc - r.ibase) % c.divisor (e + 1) = 0)
/-- One start ahead of the steps of the cycle, as the tests of its cycle-mates see it; an entry that faults starts nothing. -/
def startOne (s : State) : State :=
  match [0, 1, 2].findSome? fun e =>
    let m := s.applyAll [.pkg (.cur s.cur (.engine e))]
    let g := s.cc.eng e
    match g.queue.head? with
    | some q => if g.stopped || g.running || q.faulted || !startsNow m e q || (q.timed && (timedBlock m e q).isSome) then none else some (startActs m e q)
    | none => none
  with
  | some l => s.applyAll l
  | none => s
/-- What an engine's step does in its turn of a cycle, as the tests of its cycle-mates see it (R12, R173). -/
def engineTurn (s : State) (e : Nat) : State :=
  if stepDue s.rr s.cc e then
    let m := s.applyAll [.pkg (.cur s.cur (.engine e))]
    match microOrder m.cc e with
    | some i => m.applyAll ((planWord i m).run m)
    | none => s
  else s
/-- The word sees what the engines of its core have done in its cycle: it tests a coupled tile at its issue (R85, R169), or reads a
number that a dequeue changes (R184). -/
def afterEngines : Instr → Bool
  | .qseq _ _ _ => true
  | .whenT _ _ _ => true
  | .mergeT _ _ _ => true
  | .tld _ _ _ => true
  | .tst _ _ _ => true
  | .tlds _ _ _ => true
  | .tsts _ _ _ => true
  | .tstm _ _ _ => true
  | _ => false
/-- What of a plan the words after it and the engines of core id find done in its cycle: the entries placed on their queues, the staging
entries taken, and the tokens taken, which a control core takes before an entry does (R12, R24, R153, R182). -/
def Plan.placements (id : Nat) : Plan → List Act
  | .acts l => l.filter fun a => match a with
    | .core c (.engPush _ _) => c = id
    | .core c (.stagePush _) => c = id
    | .core c (.tokenSub _) => c = id
    | _ => false
  | _ => []
/-- The plan of a decoded word; a word that does not decode raises ILLEGAL (R40, R41). -/
def planDecoded (w : Except DecodeError Instr) (s : State) : Plan :=
  match w with
  | .ok i => planWord i s
  | .error _ => s.trap ILLEGAL
/-- Words in order, each planned with the entries that earlier ones place standing, so that a queue takes no 33rd, and the staging buffer no
1,025th (R18, R33, R153, R176). -/
def planInOrder : List (Except DecodeError Instr) → State → List Plan
  | [], _ => []
  | w :: ws, s => let p := planDecoded w s; p :: planInOrder ws (s.applyAll (p.placements s.cur))
/-- The core as the control core's own tests see it in this cycle: with the entries that its bundle places and the tokens that it takes,
after the heads that start and the accesses of MX and of VX; in the handler the engines stand still (R12, R24, R85, R116, R145, R169,
R174, R304). Each engine starts or skips one entry in a cycle at most. -/
def coreAfterEngines (s : State) (places : List Act) : Core :=
  let m := s.applyAll (s.upd (.loopsOld s.cc.loops) :: places)
  if s.rr.phase = .run then ([0, 1, 2].foldl engineTurn (startOne (startOne (startOne m)))).cc else m.cc
/-- The plans of a bundle's words, each on a state: where the engines' turn of the cycle is still to come, the tests of coupled tiles find
the core as MX and VX leave it (R12, R33, R34). -/
def planWordsOn (ws : List (Except DecodeError Instr)) (on s : State) : List Plan :=
  let ps := planInOrder ws on
  if !s.enginesToCome then ps
  else
    let seen := { s with cores := SMap.set {} s.cores s.cur (coreAfterEngines s (ps.flatMap (Plan.placements s.cur))) }
    (ws.zip ps).map fun p => match p.1 with
      | .ok i => if afterEngines i then planWord i seen else p.2
      | .error _ => p.2
/-- Every plan has its effect. -/
def allAct (ps : List Plan) : Bool := ps.all fun p => match p with
  | .acts _ => true
  | _ => false
/-- The core with a position free in every queue: a full queue has one where its engine dequeues an entry's last step in this cycle, or
skips an entry (R172). -/
def State.roomy (s : State) : State :=
  s.applyAll ([0, 1, 2].map fun e => s.upd (.eng e { s.cc.eng e with queue := (s.cc.eng e).queue.take (Config.queueDepth - 1) }))
/-- The entries placed have their positions once the engines have acted (R18, R172). -/
def fits (s : State) (ps : List Plan) : Bool :=
  let c := coreAfterEngines s (ps.flatMap (Plan.placements s.cur))
  [0, 1, 2].all fun e => decide ((c.eng e).queue.length ≤ Config.queueDepth)
/-- The plans of a bundle's words on the state with which it began (R33, R34). Ahead of the engines, a queue that they leave with a free
position in this cycle takes an entry (R172, R176). -/
def planWords (ws : List (Except DecodeError Instr)) (s : State) : List Plan :=
  let ps := planWordsOn ws s s
  if !s.enginesToCome || allAct ps then ps
  else
    let qs := planWordsOn ws s.roomy s
    if allAct qs && fits s qs then qs else ps
/-- Plans of one bundle together: a hold of any word holds it all, then the first failing word decides, and otherwise every word
has its effect (R33). -/
def joinPlans (l : List Plan) : Plan :=
  let holds := l.filterMap fun p => match p with | .hold a => some a | _ => none
  let traps := l.filterMap fun p => match p with | .trap f => some f | _ => none
  let acts := l.filterMap fun p => match p with | .acts a => some a | _ => none
  if holds ≠ [] then .hold holds.flatten
  else match traps with
    | f :: _ => .trap f
    | [] => .acts acts.flatten

/-- The plan of the bundle at the acting core's pc, on the state with which it began (R33). A malformed bundle raises ILLEGAL at once, also
where a word of it meets a hold of R47 in elastic code; R33 does not say which comes first (the model's choice; assumptions 28). -/
def planBundle (s : State) : Plan :=
  match segmentEnds s with
  | some f => .trap f
  | none => match fetchBundle (s.rr.codeAt s.cc) s.cc.pc with
    | none => s.trap ILLEGAL
    | some (ws, _) => joinPlans (planWords (ws.map (decodeAt (s.rr.codeAt s.cc) s.cc.pc)) s)

/-- The acting control core issues the bundle at its pc (R33, R55). -/
def issueActs (s : State) : List Act :=
  let n := match fetchBundle (s.rr.codeAt s.cc) s.cc.pc with | some (_, n) => n | none => 1
  let b := beginBundle s n
  beginActs s n ++ (planBundle b).run b

end Sys2Proof.Machine
end

