-- ==== Sys2Proof/Machine/Events.lean ====
section
/-! DEFINITION. Events of a core and of translation: held bundles, waits, queue entries, untimed results, page walks (R47, R152, R155,
R161 to R165, R173 to R175, R235, R236, R239, R309). -/

namespace Sys2Proof.Machine

/-! ## Held bundles and waits -/

/-- HELD_BUNDLE_ISSUE (R33, R47): the bundle is checked again in this cycle, and issues when nothing holds it any more. -/
def evHeldBundleIssue (s : State) : List Act := issueActs s

/-- The value that MWAIT samples in this cycle, with its error mark; nothing before the first sample, nor on a page before the accesses
that come before its reads (R163, R245). -/
def mwaitSample (s : State) (since addr : Nat) (keys : List Nat) (ord : Nat) : Option (DWord × Bool) :=
  let d := s.cc.divisor 0
  match keys with
  | [] => match decodeAddr s.rr s.vidx (BitVec.ofNat 64 addr) with
    | .sp t off far =>
      if s.cyc < since + (if far then 7 else 2) * d then none
      else some (BitVec.ofNat 64 ((s.core t).spNat off 8), (s.core t).spErr off 8)
    | _ => none
  | k :: ks =>
    if s.cyc < since + 1 ∨ !s.cc.servable s.cc.serial addr ⟨0, k :: ks, ord, none⟩ s.cc.fencedAt then none
    else
      let v := s.locsNat ((k :: ks).map Loc.gm)
      some (BitVec.ofNat 64 v.1, v.2)
/-- The wait's condition holds in this cycle (R155, R162 to R164, R182, R184, R197, R200, R219); a rendezvous ends by its release. -/
def waitMet (s : State) (w : Wait) : Bool :=
  let c := s.cc
  match w.kind with
  | .lwait d => (awaited c d).isEmpty
  | .mwait _ addr target _ keys ord => match mwaitSample s w.since addr keys ord with
    | some v => decide ((v.1 - target).toNat < 2 ^ 63)
    | none => false
  | .qwait ch => s.qwaitMet s.ctx ch
  | .waitt t => SMap.get 0 c.tokens t ≠ 0
  | .qdrn e => (engines e).all (engIdle c)
  | .sbwt b ph => (SMap.get {} c.bars b).phase == ph
  | .barw b => !SMap.get false c.btOwed b
  | .rbegin _ => false
  | .rend _ => false
  | .fence => c.untimed.isEmpty
  | .tlblk lo len => match tryLock c s.ctx lo len with
    | .walk _ => false
    | _ => true
/-- What a wait does as its condition is met. A value of MWAIT lands in the place of its issue (R24); one of a page also orders the
accesses before it before those after it, as a FENCE.ACQ does (R246). -/
def waitDone (s : State) (w : Wait) : List Act :=
  match w.kind with
  | .mwait d addr _ tg keys ord => match mwaitSample s w.since addr keys ord with
    | some v => .reg s.ctx (.sched { s.key (s.cyc + 1) 1 with issue := w.since }
        (if v.2 then .uecc s.cur addr d v.1 tg false else .land s.cur [.reg d v.1 tg false])) ::
        if keys = [] then [] else [s.upd (.fencedAt s.cc.serial)]
    | none => []
  | .qwait ch => [.reg s.ctx (.qwaited ch)]
  | .waitt t => [s.upd (.tokenSub t)]
  | .tlblk lo len => match tryLock s.cc s.ctx lo len with
    | .done l => [s.upd (.tlb l)]
    | _ => []
  | _ => []
/-- A trap of a word that had issued and was waiting: the stream stops at its bundle. -/
def waitTrap (s : State) (f : FaultInfo) : List Act :=
  [.reg s.ctx (.raise f), s.upd (.waits []), s.upd (.trapped true), s.upd (.pc s.cc.issPc)]
/-- TLBLK would lock too many entries (R219). -/
def lockFails (s : State) (w : Wait) : Bool :=
  match w.kind with
  | .tlblk lo len => (match tryLock s.cc s.ctx lo len with | .full => true | _ => false)
  | _ => false
/-- WAIT_END (R161): the waits that are met end; the next bundle issues no earlier than the next cycle. -/
def evWaitEnd (s : State) : List Act :=
  let c := s.cc
  match c.waits.find? (lockFails s) with
  | some w => waitTrap s { s.fault XLATE with faddr := match w.kind with | .tlblk lo _ => lo | _ => 0 }
  | none =>
    let met := c.waits.filter (waitMet s)
    if met = [] then []
    else met.flatMap (waitDone s) ++ [s.upd (.waits (c.waits.filter fun w => !waitMet s w)), s.upd (.nextAt (max c.nextAt (s.cyc + 1)))]

/-- Cores of the region that have arrived at a rendezvous of a kind, or ended their group (R206). -/
def waitingAt (s : State) (k : WaitKind) : Nat :=
  (s.rr.ids.filter fun id => (s.core id).ended || (s.core id).waits.any fun w => w.kind = k).length
/-- The latest logical time that a channel's writer has committed (R165). -/
def committedTime (s : State) (ch : Nat) : Nat :=
  match (s.chan s.ctx ch).bind (s.writerCtx s.ctx) with
  | some w => (s.region w).ltimeDone
  | none => (((s.chan s.ctx ch).bind fun k => k.vals.getLast?).map ChVal.t).getD 0
/-- What the record of an expired wait names (R165, R309). The last sampled value of an MWAIT that expires before its first sample
reads 0 (the model's choice; assumptions 54). Cores that have ended their group count as arrived (R200, R206). -/
def expired (s : State) (w : Wait) : FaultInfo :=
  let c := s.cc
  let f := s.fault WAITEXP
  match w.kind with
  | .lwait d => { f with wobj := ((awaited c d).head?.map Untimed.d).getD 0, wval1 := (awaited c d).length, wval2 := d }
  | .mwait _ addr target _ keys ord =>
    { f with wobj := addr, wval1 := target.toNat, wval2 := ((mwaitSample s w.since addr keys ord).map fun v => v.1.toNat).getD 0 }
  | .qwait ch => { f with wobj := ch, wval1 := s.nextTime s.ctx, wval2 := committedTime s ch }
  | .waitt t => { f with wobj := t, wval1 := SMap.get 0 c.tokens t }
  | .qdrn g =>
    let e := ((engines g).find? fun e => !engIdle c e).getD 0
    { f with wobj := e, wval1 := (c.eng e).queue.length }
  | .sbwt b _ => { f with wobj := b, wval1 := (SMap.get {} c.bars b).expected.toNat, wval2 := (SMap.get {} c.bars b).delivered.toNat }
  | .barw b => { f with wobj := b, wval1 := (s.rr.ids.filter fun id => SMap.get false (s.core id).btArr b || (s.core id).ended).length }
  | .rbegin _ => { f with wobj := c.levels.length + 1, wval1 := waitingAt s (.rbegin true) }
  | .rend _ => { f with wobj := c.levels.length, wval1 := waitingAt s (.rend true) }
  | .fence => f
  | .tlblk _ _ => f
/-- WAITEXP (R161, R164, R165, R309): the first wait that has reached its bound raises it. -/
def evWaitexp (s : State) : List Act :=
  match s.cc.waits.find? fun w => match w.due with | some n => decide (n ≤ s.cyc) | none => false with
  | some w => (match w.kind with | .qwait ch => [.reg s.ctx (.qwaited ch)] | _ => []) ++ waitTrap s (expired s w)
  | none => []

/-! ## Queue entries (R173 to R175, R294) -/

/-- QUEUE_ENTRY_START (R173): the entry at the acting engine's head starts; a timed one that cannot raises SCHED. -/
def evQueueEntryStart (s : State) : List Act :=
  match s.actor with
  | .control => []
  | .engine e =>
    let g := s.cc.eng e
    match g.queue.head? with
    | none => []
    | some q =>
      if g.running ∨ q.faulted ∨ !startsNow s e q then []
      else match (if q.timed then timedBlock s e q else none) with
        | some (cause, obj) =>
          [.reg s.ctx (.raise (startFault s e cause obj q)), s.upd (.eng e { g with queue := { q with faulted := true } :: g.queue.drop 1 })]
        | none => startActs s e q
/-- Timed entries of an engine that have not started by the end of their stamp's cycle, behind its head or behind a step that dequeued
last: each raises SCHED at its stamp, and not again when it comes to the head (R173, R294). -/
def lateEntries (s : State) (e : Nat) : List Act :=
  let g := s.cc.eng e
  let late := fun (q : QEntry) => q.timed && decide (s.rr.ibase + q.stamp = s.cyc) && !q.faulted
  let own := if g.running then 1 else 0
  let behind := g.queue.drop own
  if behind.any late then
    (behind.filter late).map (fun q => .reg s.ctx (.raise (startFault s e 5 e q))) ++
      [s.upd (.eng e { g with queue := g.queue.take own ++ behind.map fun q => if late q then { q with faulted := true } else q })]
  else []
/-- An entry that has completed by this cycle. -/
def Finishing.ended (f : Finishing) (cyc : Nat) : Bool := f.copies = 0 && decide (f.doneAt ≤ cyc)
/-- ENTRY_COMPLETION (R175): the first entry of the acting engine that is due completes and signals its token. -/
def evEntryCompletion (s : State) : List Act :=
  match s.actor with
  | .control => []
  | .engine e =>
    let g := s.cc.eng e
    match g.finishing.find? fun f => f.ended s.cyc with
    | none => []
    | some f => s.upd (.eng e { g with finishing := g.finishing.filter fun x => x.serial ≠ f.serial }) ::
        match f.stok with | some t => tokenActs s s.cur t e f.seq.toNat f.timed | none => []

/-! ## Untimed results (R152, R321) -/

/-- UNTIMED_RESULT_LAND: results land in issue order; one whose access memory has not served yet falls due again. -/
def evUntimedResultLand (s : State) : List Act :=
  match s.cc.untimed with
  | [] => []
  | u :: rest => match u.served with
    | none => [.pkg (.later (s.now + 1) (.result s.cur))]
    | some (v, bad, flags) => s.upd (.untimedSet rest) ::
        if bad then ueccActs s s.cur u.va u.d v u.tag false
        else s.upd (.reg u.d v u.tag false) :: (orFlags flags).map s.upd

/-! ## Translation (R235, R236, R239) -/

/-- What a requester of a walk does as the walk ends: its TLB fills and it goes on in the next cycle. Where the walk finds no page, a held
bundle or a copy step is tried again in this cycle, and its XLATE comes in its place among its checks (R33, R147); a TLBLK raises XLATE
now; a step that finishes in a freeze stops its engine instead (R304). A copy step keeps the translations it has collected. -/
def walkServes (s : State) (t : Option TlbEnt) (x : Nat × Nat × Nat) : List Act :=
  let id := x.1
  let unit := x.2.1
  let c := s.core id
  let r := s.region (id / 2048)
  match t with
  | some e =>
    (if c.tlbHit e.ctx x.2.2 = none then [.core id (.tlb (fillTlb e c.tlb))] else []) ++
      if unit = 3 then [.core id (.nextAt (max c.nextAt (r.cyc + 1)))]
      else [.core id (.eng unit { c.eng unit with due := max (c.eng unit).due (r.cyc + 1), xl := e :: (c.eng unit).xl })]
  | none =>
    if unit ≠ 3 then
      if r.closed then [.core id (.eng unit { c.eng unit with stopped := true })]
      else [.core id (.eng unit { c.eng unit with xm := x.2.2 :: (c.eng unit).xm })]
    else if c.waits = [] then (if c.held then [.core id (.missed x.2.2)] else [])
    else if c.waits.any fun w => match w.kind with | .tlblk _ _ => true | _ => false then
      [.reg (id / 2048) (.raise { code := XLATE, core := id, faddr := x.2.2 }), .core id (.waits []), .core id (.held false),
       .core id (.trapped true), .core id (.pc c.issPc)]
    else []
def walkServesAll (t : Option TlbEnt) : State → List (Nat × Nat × Nat) → List Act
  | _, [] => []
  | s, x :: l => let a := walkServes s t x; a ++ walkServesAll t (s.applyAll a) l
/-- TLB_WALK_COMPLETE (R235, R236): the die TLB's entry, or else the tables', serves every requester of the walk in one cycle; then
the oldest walk that waits for the walker starts. Full, the die TLB keeps the entries that were filled or hit last (R236 names no policy;
the model's choice; assumptions 69). -/
def evTlbWalkComplete (die ctx va : Nat) (s : State) : List Act :=
  match s.walks.find? fun w => w.die = die ∧ w.ctx = ctx ∧ w.va = va ∧ w.started with
  | none => []
  | some w =>
    let old := SMap.get [] s.dieTlb die
    let hit := old.find? fun e => e.covers ctx va
    let t := hit.or (s.walk ctx va)
    let fill := match t with
      | some e => [Act.pkg (.dieTlb die ((e :: old.filter fun x => !x.covers ctx va).take Config.dieTlbEntries))]
      | none => []
    fill ++ walkServesAll t s w.waiters ++ startWalks s (s.walks.filter (· ≠ w))
/-- TLB_INVALIDATE (R239): the page, and every page that overlaps the one which the tables now give, leaves every TLB and the translations
that a copy step has collected; a locked entry that the tables no longer give stays until its lock ends. -/
def evTlbInvalidate (ctx va : Nat) (s : State) : List Act :=
  let ids := (s.region ctx).ids
  let page := s.walk ctx va
  let hits := fun (e : TlbEnt) => e.covers ctx va || (e.ctx = ctx && page.any fun p => decide (e.base < p.base + p.size) && decide (p.base < e.base + e.size))
  let old := fun (e : TlbEnt) => hits e && e.locked && (s.walk ctx e.base).map TlbEnt.pte ≠ some e.pte
  let kept := fun (g : Engine) => { g with xl := g.xl.filter fun e => !hits e }
  (s.dieTlb.map fun p => .pkg (.dieTlb p.1 (p.2.filter fun e => !hits e))) ++
    (ids.filterMap fun id =>
      if (s.core id).tlb.any fun e => hits e && !e.locked then
        some (.core id (.tlb ((s.core id).tlb.filter fun e => !(hits e && !e.locked)))) else none) ++
    (ids.flatMap fun id => [0, 1, 2].filterMap fun e =>
      if ((s.core id).eng e).xl.any hits then some (.core id (.eng e (kept ((s.core id).eng e)))) else none) ++
    if ids.any fun id => (s.core id).tlb.any old then
      [.pkg (.later (s.now + 1) (.ev s.cur (.tlbInvalidate ctx va)))] else []

-- The meanings: one for each instruction of this file.
/-- HELD_BUNDLE_ISSUE (R47). -/
def execHeldBundleIssue (s : State) : Host.Outcome State Fault Refusal := settle s (evHeldBundleIssue s)
/-- WAIT_END (R161). -/
def execWaitEnd (s : State) : Host.Outcome State Fault Refusal := settle s (evWaitEnd s)
/-- WAITEXP (R309). -/
def execWaitexp (s : State) : Host.Outcome State Fault Refusal := settle s (evWaitexp s)
/-- QUEUE_ENTRY_START (R173). -/
def execQueueEntryStart (s : State) : Host.Outcome State Fault Refusal := settle s (evQueueEntryStart s)
/-- ENTRY_COMPLETION (R175). -/
def execEntryCompletion (s : State) : Host.Outcome State Fault Refusal := settle s (evEntryCompletion s)
/-- UNTIMED_RESULT_LAND (R152). -/
def execUntimedResultLand (s : State) : Host.Outcome State Fault Refusal := settle s (evUntimedResultLand s)
/-- TLB_WALK_COMPLETE (R236). -/
def execTlbWalkComplete (die : Nat) (ctx : Nat) (va : Nat) (s : State) : Host.Outcome State Fault Refusal := settle s (evTlbWalkComplete die ctx va s)
/-- TLB_INVALIDATE (R239). -/
def execTlbInvalidate (ctx : Nat) (va : Nat) (s : State) : Host.Outcome State Fault Refusal := settle s (evTlbInvalidate ctx va s)

end Sys2Proof.Machine
end

