-- ==== Sys2Proof/Machine/Dispatch.lean ====
section
/-! DEFINITION. The meaning of every row of the opcode table: one arm for each. -/

namespace Sys2Proof.Machine

def exec (i : Instr) (s : State) : Host.Outcome State Fault Refusal :=
  match i with
  | .add d a b => Sys2Proof.Machine.execAdd d a b s
  | .sub d a b => Sys2Proof.Machine.execSub d a b s
  | .mul d a b => Sys2Proof.Machine.execMul d a b s
  | .mulh d a b => Sys2Proof.Machine.execMulh d a b s
  | .mulhu d a b => Sys2Proof.Machine.execMulhu d a b s
  | .div d a b => Sys2Proof.Machine.execDiv d a b s
  | .divu d a b => Sys2Proof.Machine.execDivu d a b s
  | .rem d a b => Sys2Proof.Machine.execRem d a b s
  | .remu d a b => Sys2Proof.Machine.execRemu d a b s
  | .andS d a b => Sys2Proof.Machine.execAndS d a b s
  | .orS d a b => Sys2Proof.Machine.execOrS d a b s
  | .xorS d a b => Sys2Proof.Machine.execXorS d a b s
  | .andn d a b => Sys2Proof.Machine.execAndn d a b s
  | .shl d a b => Sys2Proof.Machine.execShl d a b s
  | .shr d a b => Sys2Proof.Machine.execShr d a b s
  | .sra d a b => Sys2Proof.Machine.execSra d a b s
  | .rot d a b => Sys2Proof.Machine.execRot d a b s
  | .min d a b => Sys2Proof.Machine.execMin d a b s
  | .max d a b => Sys2Proof.Machine.execMax d a b s
  | .minu d a b => Sys2Proof.Machine.execMinu d a b s
  | .maxu d a b => Sys2Proof.Machine.execMaxu d a b s
  | .seq d a b => Sys2Proof.Machine.execSeq d a b s
  | .slt d a b => Sys2Proof.Machine.execSlt d a b s
  | .sltu d a b => Sys2Proof.Machine.execSltu d a b s
  | .sel d a b => Sys2Proof.Machine.execSel d a b s
  | .clz d a => Sys2Proof.Machine.execClz d a s
  | .ctz d a => Sys2Proof.Machine.execCtz d a s
  | .popc d a => Sys2Proof.Machine.execPopc d a s
  | .addsat d a b => Sys2Proof.Machine.execAddsat d a b s
  | .subsat d a b => Sys2Proof.Machine.execSubsat d a b s
  | .bext d a b => Sys2Proof.Machine.execBext d a b s
  | .bins d a b => Sys2Proof.Machine.execBins d a b s
  | .addi d a n => Sys2Proof.Machine.execAddi d a n s
  | .andi d a n => Sys2Proof.Machine.execAndi d a n s
  | .ori d a n => Sys2Proof.Machine.execOri d a n s
  | .xori d a n => Sys2Proof.Machine.execXori d a n s
  | .shli d a n => Sys2Proof.Machine.execShli d a n s
  | .shri d a n => Sys2Proof.Machine.execShri d a n s
  | .srai d a n => Sys2Proof.Machine.execSrai d a n s
  | .slti d a n => Sys2Proof.Machine.execSlti d a n s
  | .movi d n => Sys2Proof.Machine.execMovi d n s
  | .insh d n => Sys2Proof.Machine.execInsh d n s
  | .inst d n => Sys2Proof.Machine.execInst d n s
  | .movf d n => Sys2Proof.Machine.execMovf d n s
  | .idle n => Sys2Proof.Machine.execIdle n s
  | .jmp t => Sys2Proof.Machine.execJmp t s
  | .bnz a t => Sys2Proof.Machine.execBnz a t s
  | .bz a t => Sys2Proof.Machine.execBz a t s
  | .call t => Sys2Proof.Machine.execCall t s
  | .ret => Sys2Proof.Machine.execRet s
  | .loop l c n => Sys2Proof.Machine.execLoop l c n s
  | .loops l a n => Sys2Proof.Machine.execLoops l a n s
  | .segb v n => Sys2Proof.Machine.execSegb v n s
  | .sege lit => Sys2Proof.Machine.execSege lit s
  | .endi => Sys2Proof.Machine.execEndi s
  | .kend => Sys2Proof.Machine.execKend s
  | .nexts a n b => Sys2Proof.Machine.execNexts a n b s
  | .waits y => Sys2Proof.Machine.execWaits y s
  | .ldb d a o => Sys2Proof.Machine.execLdb d a o s
  | .ldbu d a o => Sys2Proof.Machine.execLdbu d a o s
  | .ldh d a o => Sys2Proof.Machine.execLdh d a o s
  | .ldhu d a o => Sys2Proof.Machine.execLdhu d a o s
  | .ldw d a o => Sys2Proof.Machine.execLdw d a o s
  | .ldwu d a o => Sys2Proof.Machine.execLdwu d a o s
  | .ldd d a o => Sys2Proof.Machine.execLdd d a o s
  | .stb d a o => Sys2Proof.Machine.execStb d a o s
  | .sth d a o => Sys2Proof.Machine.execSth d a o s
  | .stw d a o => Sys2Proof.Machine.execStw d a o s
  | .std d a o => Sys2Proof.Machine.execStd d a o s
  | .lwait d l => Sys2Proof.Machine.execLwait d l s
  | .aadd d a b => Sys2Proof.Machine.execAadd d a b s
  | .aand d a b => Sys2Proof.Machine.execAand d a b s
  | .aor d a b => Sys2Proof.Machine.execAor d a b s
  | .axor d a b => Sys2Proof.Machine.execAxor d a b s
  | .amin d a b => Sys2Proof.Machine.execAmin d a b s
  | .amax d a b => Sys2Proof.Machine.execAmax d a b s
  | .aminu d a b => Sys2Proof.Machine.execAminu d a b s
  | .amaxu d a b => Sys2Proof.Machine.execAmaxu d a b s
  | .aswap d a b => Sys2Proof.Machine.execAswap d a b s
  | .acas d a b => Sys2Proof.Machine.execAcas d a b s
  | .afadd a b => Sys2Proof.Machine.execAfadd a b s
  | .acell a b => Sys2Proof.Machine.execAcell a b s
  | .acrd d a => Sys2Proof.Machine.execAcrd d a s
  | .acflg d a b => Sys2Proof.Machine.execAcflg d a b s
  | .fenceAcq => Sys2Proof.Machine.execFenceAcq s
  | .fenceRel => Sys2Proof.Machine.execFenceRel s
  | .fenceFull => Sys2Proof.Machine.execFenceFull s
  | .fenceAlias => Sys2Proof.Machine.execFenceAlias s
  | .mwait d a b l => Sys2Proof.Machine.execMwait d a b l s
  | .qwait a l => Sys2Proof.Machine.execQwait a l s
  | .ckdef n a k x => Sys2Proof.Machine.execCkdef n a k x s
  | .ckneg k x => Sys2Proof.Machine.execCkneg k x s
  | .when d a k => Sys2Proof.Machine.execWhen d a k s
  | .whenT d a k => Sys2Proof.Machine.execWhenT d a k s
  | .merge d a k => Sys2Proof.Machine.execMerge d a k s
  | .mergeT d a k => Sys2Proof.Machine.execMergeT d a k s
  | .dlyi a k x => Sys2Proof.Machine.execDlyi a k x s
  | .dlyr d x => Sys2Proof.Machine.execDlyr d x s
  | .dlyw a x => Sys2Proof.Machine.execDlyw a x s
  | .cktst d k => Sys2Proof.Machine.execCktst d k s
  | .ckstat d k => Sys2Proof.Machine.execCkstat d k s
  | .rbegin l => Sys2Proof.Machine.execRbegin l s
  | .rpresvS f l => Sys2Proof.Machine.execRpresvS f l s
  | .rpresvT f l => Sys2Proof.Machine.execRpresvT f l s
  | .rpresvM a b => Sys2Proof.Machine.execRpresvM a b s
  | .rpresvC m => Sys2Proof.Machine.execRpresvC m s
  | .rend l => Sys2Proof.Machine.execRend l s
  | .rabort => Sys2Proof.Machine.execRabort s
  | .rpol a => Sys2Proof.Machine.execRpol a s
  | .safept n => Sys2Proof.Machine.execSafept n s
  | .csrr d c => Sys2Proof.Machine.execCsrr d c s
  | .csrw a c => Sys2Proof.Machine.execCsrw a c s
  | .csrs a c => Sys2Proof.Machine.execCsrs a c s
  | .csrc a c => Sys2Proof.Machine.execCsrc a c s
  | .trap c => Sys2Proof.Machine.execTrap c s
  | .tret => Sys2Proof.Machine.execTret s
  | .brk c => Sys2Proof.Machine.execBrk c s
  | .fidel n => Sys2Proof.Machine.execFidel n s
  | .clkdiv u v => Sys2Proof.Machine.execClkdiv u v s
  | .haltg => Sys2Proof.Machine.execHaltg s
  | .killc a => Sys2Proof.Machine.execKillc a s
  | .tlblk a b => Sys2Proof.Machine.execTlblk a b s
  | .vadd d a b t => Sys2Proof.Machine.execVadd d a b t s
  | .vsub d a b t => Sys2Proof.Machine.execVsub d a b t s
  | .vadds d a b t => Sys2Proof.Machine.execVadds d a b t s
  | .vaddsu d a b t => Sys2Proof.Machine.execVaddsu d a b t s
  | .vmul d a b t => Sys2Proof.Machine.execVmul d a b t s
  | .vmulh d a b t => Sys2Proof.Machine.execVmulh d a b t s
  | .vmin d a b t => Sys2Proof.Machine.execVmin d a b t s
  | .vmax d a b t => Sys2Proof.Machine.execVmax d a b t s
  | .vminu d a b t => Sys2Proof.Machine.execVminu d a b t s
  | .vmaxu d a b t => Sys2Proof.Machine.execVmaxu d a b t s
  | .vand d a b t => Sys2Proof.Machine.execVand d a b t s
  | .vor d a b t => Sys2Proof.Machine.execVor d a b t s
  | .vxor d a b t => Sys2Proof.Machine.execVxor d a b t s
  | .vshl d a b t => Sys2Proof.Machine.execVshl d a b t s
  | .vshr d a b t => Sys2Proof.Machine.execVshr d a b t s
  | .vsra d a b t => Sys2Proof.Machine.execVsra d a b t s
  | .vfadd d a b t => Sys2Proof.Machine.execVfadd d a b t s
  | .vfsub d a b t => Sys2Proof.Machine.execVfsub d a b t s
  | .vfmul d a b t => Sys2Proof.Machine.execVfmul d a b t s
  | .vfma d a b t => Sys2Proof.Machine.execVfma d a b t s
  | .vfmin d a b t => Sys2Proof.Machine.execVfmin d a b t s
  | .vfmax d a b t => Sys2Proof.Machine.execVfmax d a b t s
  | .vfabs d a t => Sys2Proof.Machine.execVfabs d a t s
  | .vfneg d a t => Sys2Proof.Machine.execVfneg d a t s
  | .vfrcp d a t => Sys2Proof.Machine.execVfrcp d a t s
  | .vfrsq d a t => Sys2Proof.Machine.execVfrsq d a t s
  | .vfexp2 d a t => Sys2Proof.Machine.execVfexp2 d a t s
  | .vflog2 d a t => Sys2Proof.Machine.execVflog2 d a t s
  | .vfrsum d a t => Sys2Proof.Machine.execVfrsum d a t s
  | .vfrmax d a t => Sys2Proof.Machine.execVfrmax d a t s
  | .vfscl d a b t => Sys2Proof.Machine.execVfscl d a b t s
  | .vfcpy d a b t => Sys2Proof.Machine.execVfcpy d a b t s
  | .vcvt d a g r y => Sys2Proof.Machine.execVcvt d a g r y s
  | .vexp d a f => Sys2Proof.Machine.execVexp d a f s
  | .vmxs d a => Sys2Proof.Machine.execVmxs d a s
  | .vcmpeq d a b => Sys2Proof.Machine.execVcmpeq d a b s
  | .vcmplt d a b => Sys2Proof.Machine.execVcmplt d a b s
  | .vcmple d a b => Sys2Proof.Machine.execVcmple d a b s
  | .vfcmpeq d a b => Sys2Proof.Machine.execVfcmpeq d a b s
  | .vfcmplt d a b => Sys2Proof.Machine.execVfcmplt d a b s
  | .vfcmple d a b => Sys2Proof.Machine.execVfcmple d a b s
  | .vsel d a b => Sys2Proof.Machine.execVsel d a b s
  | .vtrn d a => Sys2Proof.Machine.execVtrn d a s
  | .vbcr d a b => Sys2Proof.Machine.execVbcr d a b s
  | .vshuf d a b => Sys2Proof.Machine.execVshuf d a b s
  | .vmov d a => Sys2Proof.Machine.execVmov d a s
  | .vrot d a b => Sys2Proof.Machine.execVrot d a b s
  | .vpck d a b => Sys2Proof.Machine.execVpck d a b s
  | .vupk d a => Sys2Proof.Machine.execVupk d a s
  | .viota d => Sys2Proof.Machine.execViota d s
  | .vget d a b => Sys2Proof.Machine.execVget d a b s
  | .vput d a b => Sys2Proof.Machine.execVput d a b s
  | .vsete d v => Sys2Proof.Machine.execVsete d v s
  | .tld t a o => Sys2Proof.Machine.execTld t a o s
  | .tst t a o => Sys2Proof.Machine.execTst t a o s
  | .tlds t a o => Sys2Proof.Machine.execTlds t a o s
  | .tsts t a o => Sys2Proof.Machine.execTsts t a o s
  | .tstm t a m => Sys2Proof.Machine.execTstm t a m s
  | .tlook d a => Sys2Proof.Machine.execTlook d a s
  | .tins d a b => Sys2Proof.Machine.execTins d a b s
  | .tevt d a => Sys2Proof.Machine.execTevt d a s
  | .tagrd d a => Sys2Proof.Machine.execTagrd d a s
  | .mma c a b y z x m => Sys2Proof.Machine.execMma c a b y z x m s
  | .mldb a b y z x => Sys2Proof.Machine.execMldb a b y z x s
  | .mdrn c d q y => Sys2Proof.Machine.execMdrn c d q y s
  | .mzero c k m => Sys2Proof.Machine.execMzero c k m s
  | .mfmt n a => Sys2Proof.Machine.execMfmt n a s
  | .mhst b => Sys2Proof.Machine.execMhst b s
  | .cpt a b y g h => Sys2Proof.Machine.execCpt a b y g h s
  | .cpa a b y g h => Sys2Proof.Machine.execCpa a b y g h s
  | .cpm a b y g => Sys2Proof.Machine.execCpm a b y g s
  | .cpl a b l => Sys2Proof.Machine.execCpl a b l s
  | .cpk a b y g h => Sys2Proof.Machine.execCpk a b y g h s
  | .sbini a y => Sys2Proof.Machine.execSbini a y s
  | .sbarr a y => Sys2Proof.Machine.execSbarr a y s
  | .sbwt y l p => Sys2Proof.Machine.execSbwt y l p s
  | .run g b c => Sys2Proof.Machine.execRun g b c s
  | .runs g b c lit => Sys2Proof.Machine.execRuns g b c lit s
  | .loopb g a n lit => Sys2Proof.Machine.execLoopb g a n lit s
  | .pace g p => Sys2Proof.Machine.execPace g p s
  | .sigt t => Sys2Proof.Machine.execSigt t s
  | .waitt l t => Sys2Proof.Machine.execWaitt l t s
  | .guard g p h w v y u => Sys2Proof.Machine.execGuard g p h w v y u s
  | .pset p a => Sys2Proof.Machine.execPset p a s
  | .pinv p => Sys2Proof.Machine.execPinv p s
  | .qdrn g l => Sys2Proof.Machine.execQdrn g l s
  | .qseq g d y => Sys2Proof.Machine.execQseq g d y s
  | .tblw g a b => Sys2Proof.Machine.execTblw g a b s
  | .lsend r a => Sys2Proof.Machine.execLsend r a s
  | .lrecv r d => Sys2Proof.Machine.execLrecv r d s
  | .bar b => Sys2Proof.Machine.execBar b s
  | .barw b l => Sys2Proof.Machine.execBarw b l s
  | .chwr c a => Sys2Proof.Machine.execChwr c a s
  | .chrd c d k => Sys2Proof.Machine.execChrd c d k s
  | .chpop c => Sys2Proof.Machine.execChpop c s
  | .nodeq a => Sys2Proof.Machine.execNodeq a s
  | .glnch a => Sys2Proof.Machine.execGlnch a s
  | .heldBundleIssue => Sys2Proof.Machine.execHeldBundleIssue s
  | .waitEnd => Sys2Proof.Machine.execWaitEnd s
  | .waitexp => Sys2Proof.Machine.execWaitexp s
  | .queueEntryStart => Sys2Proof.Machine.execQueueEntryStart s
  | .entryCompletion => Sys2Proof.Machine.execEntryCompletion s
  | .untimedResultLand => Sys2Proof.Machine.execUntimedResultLand s
  | .timedCopyPerform serial => Sys2Proof.Machine.execTimedCopyPerform serial s
  | .multicastPerform serial => Sys2Proof.Machine.execMulticastPerform serial s
  | .cplPerform serial => Sys2Proof.Machine.execCplPerform serial s
  | .sequenceStampPerform serial => Sys2Proof.Machine.execSequenceStampPerform serial s
  | .instantStart => Sys2Proof.Machine.execInstantStart s
  | .instantCommit => Sys2Proof.Machine.execInstantCommit s
  | .swapComplete => Sys2Proof.Machine.execSwapComplete s
  | .preemptResume => Sys2Proof.Machine.execPreemptResume s
  | .stagedWriteApply => Sys2Proof.Machine.execStagedWriteApply s
  | .barrierRelease tag => Sys2Proof.Machine.execBarrierRelease tag s
  | .recoveryRegionOpen => Sys2Proof.Machine.execRecoveryRegionOpen s
  | .recoveryRegionClose => Sys2Proof.Machine.execRecoveryRegionClose s
  | .tlbWalkComplete die ctx va => Sys2Proof.Machine.execTlbWalkComplete die ctx va s
  | .tlbInvalidate ctx va => Sys2Proof.Machine.execTlbInvalidate ctx va s
  | .freeze => Sys2Proof.Machine.execFreeze s
  | .regionStop => Sys2Proof.Machine.execRegionStop s
  | .rollbackRestart => Sys2Proof.Machine.execRollbackRestart s
  | .nodeRequeue => Sys2Proof.Machine.execNodeRequeue s
  | .killDrainComplete => Sys2Proof.Machine.execKillDrainComplete s
  | .killDrainTimeout => Sys2Proof.Machine.execKillDrainTimeout s
  | .heartbeatMissed => Sys2Proof.Machine.execHeartbeatMissed s
  | .quantumExpiry => Sys2Proof.Machine.execQuantumExpiry s
  | .graphCheck => Sys2Proof.Machine.execGraphCheck s
  | .nodeReady gid node => Sys2Proof.Machine.execNodeReady gid node s
  | .gangLaunch gid node => Sys2Proof.Machine.execGangLaunch gid node s
  | .nodeCompletion => Sys2Proof.Machine.execNodeCompletion s
  | .coalescingWindowClose => Sys2Proof.Machine.execCoalescingWindowClose s
  | .powerStateChange ps reasons => Sys2Proof.Machine.execPowerStateChange ps reasons s
  | .powerDeadlineExpiry => Sys2Proof.Machine.execPowerDeadlineExpiry s
  | .twilightWindowEnd => Sys2Proof.Machine.execTwilightWindowEnd s
  | .energyUpdate => Sys2Proof.Machine.execEnergyUpdate s
  | .thrrsn v => Sys2Proof.Machine.execThrrsn v s
  | .enlo d => Sys2Proof.Machine.execEnlo d s
  | .pwrack => Sys2Proof.Machine.execPwrack s
  | .errinj v => Sys2Proof.Machine.execErrinj v s
  | .undoa v => Sys2Proof.Machine.execUndoa v s
  | .errcnt n v => Sys2Proof.Machine.execErrcnt n v s
  | .quota v => Sys2Proof.Machine.execQuota v s
  | .powercap v => Sys2Proof.Machine.execPowercap v s
  | .resetreq v => Sys2Proof.Machine.execResetreq v s
  | .fwctl v => Sys2Proof.Machine.execFwctl v s
  | .firmwareHeartbeat => Sys2Proof.Machine.execFirmwareHeartbeat s
  | .updateHeartbeatTimeout => Sys2Proof.Machine.execUpdateHeartbeatTimeout s
  | .hopen h v => Sys2Proof.Machine.execHopen h v s
  | .hflags h v => Sys2Proof.Machine.execHflags h v s
  | .submit h v => Sys2Proof.Machine.execSubmit h v s
  | .kill h v => Sys2Proof.Machine.execKill h v s
  | .hcmdMap h blk => Sys2Proof.Machine.execHcmdMap h blk s
  | .hcmdUnmap h blk => Sys2Proof.Machine.execHcmdUnmap h blk s
  | .hcmdAllocateMap h blk => Sys2Proof.Machine.execHcmdAllocateMap h blk s
  | .hcmdRegisterKey h blk => Sys2Proof.Machine.execHcmdRegisterKey h blk s
  | .registerWrite off v => Sys2Proof.Machine.execRegisterWrite off v s
  | .hostMemoryAccess off len wr data => Sys2Proof.Machine.execHostMemoryAccess off len wr data s
  | .getMeasurements => Sys2Proof.Machine.execGetMeasurements s
  | .linkTraining port lo hi => Sys2Proof.Machine.execLinkTraining port lo hi s
  | .flitReceive port ends kind seq addr len data crcOk => Sys2Proof.Machine.execFlitReceive port ends kind seq addr len data crcOk s
  | .routeDown peer => Sys2Proof.Machine.execRouteDown peer s
  | .ptmExchange host => Sys2Proof.Machine.execPtmExchange host s
  | .dawn => Sys2Proof.Machine.execDawn s
  | .stampGloballyVisible nodeRec => Sys2Proof.Machine.execStampGloballyVisible nodeRec s
  | .updateSignatureCheck => Sys2Proof.Machine.execUpdateSignatureCheck s
  | .routingTableWrite peer port => Sys2Proof.Machine.execRoutingTableWrite peer port s

end Sys2Proof.Machine
end

