-- ==== Sys2Proof/Machine/Soft.lean ====
section
/-! DEFINITION. Single-bit errors of a core's protected words: which words an action reads and writes, and their correction (R221;
assumptions 64). -/

namespace Sys2Proof.Machine

/-- A run of protected 64-bit words of a core: what holds them, as in Soft, the first, and how many. A row of a tile or of a B-slot has 32
words, and the sidecar is its row 16; an accumulator element is a word. -/
structure Words where
  core : Nat
  kind : Nat
  lo : Nat
  n : Nat
  deriving DecidableEq, Repr
def spadWords (id off n : Nat) : Words := ⟨id, 0, off / 8, (dwordsOf off n).length⟩
def tileRow (id t r : Nat) : Words := ⟨id, 1, (17 * t + r) * 32, 32⟩
def wholeTile (id t : Nat) : Words := ⟨id, 1, 17 * t * 32, 17 * 32⟩
def slotRows (id b r n : Nat) : Words := ⟨id, 2, (17 * b + r) * 32, 32 * n⟩
def accRow (id p n : Nat) : Words := ⟨id, 3, p, n⟩
/-- The words that a write of bits finds whole, and those that it writes in part: a write of part of a word reads it (R221). -/
def bitWords (id kind base lo n : Nat) : List Words × List Words :=
  let first := (lo + 63) / 64
  let stop := (lo + n) / 64
  ((if lo % 64 = 0 then [] else [⟨id, kind, base + lo / 64, 1⟩]) ++ (if (lo + n) % 64 = 0 then [] else [⟨id, kind, base + stop, 1⟩]),
   if first < stop then [⟨id, kind, base + first, stop - first⟩] else [])
/-- The words that a preserved item or a captured line is read from (R207, R225). -/
def undoWords (id : Nat) (r : UndoRec) : List Words :=
  if r.kind = 2 then (upto r.first r.last).map (wholeTile id)
  else if r.kind = 3 then ((List.range 8).filter fun c => fld r.first c 1 = 1).map fun c => accRow id (256 * c) 256
  else if r.kind = 5 then [spadWords id r.first 64] else []
/-- Every protected word of a core. -/
def coreWords (id : Nat) : List Words := (List.range 5).map fun k => ⟨id, k, 0, 2 ^ 58⟩
/-- The words that an update of a core reads, and those that it writes whole. -/
def CAct.touches (id : Nat) : CAct → List Words × List Words
  | .row t i _ _ => ([], [tileRow id t i])
  | .side t _ _ => ([], [tileRow id t 16])
  | .rowPart t i lo n _ => bitWords id 1 ((17 * t + i) * 32) lo n
  | .sidePart t lo n _ => bitWords id 1 ((17 * t + 16) * 32) lo n
  | .acc c i j _ => ([], [accRow id (c * 256 + i * 16 + j) 1])
  | .slotRow b i w _ _ => if w = 0 then ([], [slotRows id b i 1]) else ([slotRows id b 0 16], [])
  | .slotSide b _ _ => ([], [slotRows id b 16 1])
  | .spad off l => bitWords id 0 0 (8 * off) (8 * l.length)
  | .undoPush r _ => (undoWords id r, [])
  | .untimedPush u => (if u.fwd = [] then [] else [⟨id, 4, 0, Config.stagingEntries⟩], [])
  | .delayCommit => ([⟨id, 4, 0, Config.stagingEntries⟩], [])
  | .clear => ([], coreWords id)
  | _ => ([], [])
def Act.touches : Act → List Words × List Words
  | .core id a => CAct.touches id a
  | .restore id _ => ([], coreWords id)
  | _ => ([], [])

/-- The protected words that an item reads as it falls due. -/
def Item.reads (s : State) : Item → List Words
  | .sample _ t off _ n _ _ _ _ _ _ _ _ => [spadWords t off n]
  | .tldRow id _ off _ _ _ => [spadWords id off 256]
  | .tstRow id t _ r start n side _ => [⟨id, 1, (17 * t + if side then 16 else r) * 32 + start / 8, (start + n + 7) / 8 - start / 8⟩]
  | .vxRow id i r _ ctl _ => (vecTiles i).map (tileRow id · r) ++
      if readsSide i ctl then (vecTiles i).map fun t => ⟨id, 1, (17 * t + 16) * 32 + 2 * r, 2⟩ else []
  | .vxWhole id i _ _ _ _ _ => (vecTiles i).map (wholeTile id)
  | .vget id t r _ _ _ _ _ => [tileRow id t r]
  | .mxRow id (.mldb a _ _ _ _) r _ _ _ => [tileRow id a.toNat r]
  | .mxRow id (.mdrn c _ _ _) r _ _ _ => [accRow id (256 * c.toNat + 16 * r) 16]
  | .mmaLand id c zero sums _ _ _ _ _ _ => if zero then [] else sums.map fun p => accRow id (256 * c + p.1) 1
  | .copySample core serial => match (s.region (core / 2048)).copy core serial with
    | some c => (c.moves.map Mv.srcs).flatten.filterMap fun p => match p with | .sp id off => some (spadWords id off 1) | .gm _ => none
    | none => []
  | _ => []
/-- An update puts something into a region's agenda. -/
def Act.schedules : Act → Bool
  | .reg _ (.sched _ _) => true
  | _ => false
/-- The 256 bytes of the tensor map that a copy step reads (R187). -/
def mapReads (s : State) (a b : Nat) : List Words :=
  match s.cc.common [s.tag a, s.tag b], decodeAddr s.rr s.vidx (s.val a) with
  | some tg, .sp t off _ => if s.cc.present tg then [spadWords t off 256] else []
  | _, _ => []
/-- The protected words that a word reads as it acts, its updates being l: a step of an engine at its dequeue, and with its clock absent
none; a sidecar only where the format entry gives its operand scales (R11, R94, R134, R135, R187); a tile that the control core moves. -/
def wordReads (s : State) (i : Instr) (l : List Act) : List Words :=
  let id := s.cur
  match s.actor, i with
  | .engine _, .mma _ a b e _ _ m =>
    if !l.any Act.schedules then []
    else
      let f := feScale (SMap.get 0 s.cc.fmt ((formatEntry s.rr s.cc s.vidx e.toNat).getD 0)).toNat
      ⟨id, 1, 17 * a.toNat * 32, 16 * 32⟩ :: (if f = 1 ∨ f = 2 then [tileRow id a.toNat 16] else []) ++
        (((List.range 16).filter fun n => fld (maskOf s.cc m.toNat 512).colm n 1 = 1).map fun n => slotRows id b.toNat n 1) ++
        if f = 1 ∨ f = 3 then [slotRows id b.toNat 16 1] else []
  | .engine _, .mldb a _ _ z _ => if z = 0 && l.any Act.schedules then [tileRow id a.toNat 16] else []
  | .engine _, .cpt a b _ _ _ => mapReads s a.toNat b.toNat
  | .engine _, .cpa a b _ _ _ => mapReads s a.toNat b.toNat
  | .engine _, .cpm a b _ _ => mapReads s a.toNat b.toNat
  | .engine _, .cpk a b _ _ _ => mapReads s a.toNat b.toNat
  | .control, .whenT _ a k => if s.cc.present k then [wholeTile id a.toNat] else []
  | .control, .mergeT _ a k => if s.cc.present k then [wholeTile id a.toNat] else []
  | _, _ => []
/-- The scratchpad words that the waits of the acting core sample in this cycle (R163). -/
def waitReads (s : State) : List Words :=
  s.cc.waits.flatMap fun w => match w.kind with
    | .mwait _ addr _ _ [] _ => (match decodeAddr s.rr s.vidx (BitVec.ofNat 64 addr), mwaitSample s w.since addr [] 0 with
      | .sp t off _, some _ => [spadWords t off 8]
      | _, _ => [])
    | _ => []
/-- The words of a core that a save reads, and those that a rollback restores from (R314, R322). -/
def savedWords (id : Nat) (d : Live) (c : Core) : List Words :=
  (savedRanges d c).map (fun p => spadWords id p.1 p.2) ++ ((List.range 96).filter d.t.getLsbD).map (wholeTile id) ++
    ((List.range 8).filter d.c.getLsbD).map (fun a => accRow id (256 * a) 256) ++ [slotRows id 0 0 (17 * 16)]
def restoredWords (id : Nat) (before after : Core) : List Words :=
  (before.undo.filter fun r => !after.undo.contains r).map fun r => spadWords id r.off (64 + r.len)

/-- The physical core of a core's name, where a context holds it (R271, R272). -/
def State.phys (s : State) (id : Nat) : Option Nat :=
  let r := s.region (id / 2048)
  if r.phase = .none then none else some ((r.y0 + r.gy (id % 2048)) * Config.gridW + r.x0 + r.gx (id % 2048))
def Soft.isIn (s : State) (e : Soft) (w : Words) : Bool :=
  e.kind = w.kind && s.phys w.core = some e.core && decide (w.lo ≤ e.word) && decide (e.word < w.lo + w.n)
/-- What updates that read some words do to the single-bit errors that stand: one in a word that is read is corrected and journaled, one in
a word that is only written is gone (R221). -/
def eccActs (s : State) (reads : List Words) (l : List Act) : List Act :=
  if s.soft = [] then []
  else
    let s1 := s.applyAll l
    let hit := fun (e : Soft) => (reads ++ l.flatMap fun a => a.touches.1).any (e.isIn s1)
    let gone := fun (e : Soft) => (l.flatMap fun a => a.touches.2).any (e.isIn s1)
    let rest := s.soft.filter fun e => !hit e && !gone e
    if rest = s.soft then []
    else .pkg (.soft rest) :: (s.soft.filter hit).map fun e => .pkg (.journal e.die ⟨s.dtime, 0, 0, 17, e.core, e.kind + e.word * 2 ^ 3⟩)
/-- What an event that writes protected words does. -/
def eventActs (s : State) : Instr → List Act
  | .timedCopyPerform n => evTimedCopyPerform n s
  | .multicastPerform n => evMulticastPerform n s
  | .cplPerform n => evCplPerform n s
  | .sequenceStampPerform n => evSequenceStampPerform n s
  | .instantCommit => evInstantCommit s
  | .regionStop => evRegionStop s
  | .gangLaunch g n => evGangLaunch g n s
  | .preemptResume => evPreemptResume s
  | _ => []
/-- The corrections of an event: a save reads what it saves, and a rollback the records that it restores. -/
def eventEcc (s : State) (i : Instr) : List Act :=
  if s.soft = [] then []
  else
    let l := eventActs s i
    let s1 := s.applyAll l
    let r := s1.rr
    let reads := match r.phase with
      | .saving => r.ids.flatMap fun id => savedWords id (liveOf r (s.core id)) (s.core id)
      | .restoring _ => r.ids.flatMap fun id => restoredWords id (s.core id) (s1.core id)
      | _ => []
    eccActs s reads l
/-- The corrections of one word, of a unit that acts, and of the bundle at a control core's pc. -/
def wordEcc (s : State) (i : Instr) : List Act :=
  if s.soft = [] then []
  else match planWord i s with
    | .acts l => eccActs s (wordReads s i l) l
    | _ => []
def bundleEcc (s : State) (words : List Instr) : List Act :=
  if s.soft = [] then []
  else match planBundle (beginBundle s (bundleLen (s.rr.codeAt s.cc) s.cc.pc)) with
    | .acts l => eccActs s (words.flatMap (wordReads s · l)) l
    | _ => []

end Sys2Proof.Machine
end

