-- ==== Sys2Proof/Machine/Turns.lean ====
section
/-! DEFINITION. What the machine does next: the turns of one device cycle, in the order in which the units of a region act, and the
work that each turn finds (R12, R23 to R27, R173, R200, R206, R269, R278, R302 to R305, R312, R336; assumptions 1, 12). -/

namespace Sys2Proof.Machine

/-- What a step does: updates, or updates after which an instruction or event runs. -/
inductive Doing where
  | acts (l : List Act)
  | run (l : List Act) (i : Instr)
  deriving DecidableEq, Repr

/-- The work of a turn that goes on with the same turn, or gives it up. -/
def give (rest : List Turn) : Act := .pkg (.todo rest)
/-- An event runs for a core and a unit. -/
def eventAt (l : List Act) (core : Nat) (a : Actor) (i : Instr) : Doing := .run (l ++ [.pkg (.cur core a)]) i

/-! ## Inputs and what is due -/

/-- In recovery only the mailbox answers; a reset leads to Dawn (R353). -/
def answersInRecovery (i : Instr) : Bool :=
  match i with
  | .getMeasurements => true
  | .routingTableWrite _ _ => true
  | .dawn => true
  | _ => false
/-- An input from outside: the first one of the queue that has arrived (assumptions 8). An instruction word is no input, and in recovery
one that nothing answers has no effect (R353). -/
def doInputs (s : State) (rest : List Turn) : Doing :=
  match s.inputs.find? fun x => decide (x.1 ≤ s.now) with
  | some x =>
    let l := [Act.pkg (.inputs (s.inputs.erase x))]
    if x.2.2.isWord || (s.recovery && !answersInRecovery x.2.2) then .acts l else eventAt l x.2.1 .control x.2.2
  | none => .acts [give rest]
/-- The package's work that is due. -/
def doDue (s : State) (rest : List Turn) : Doing :=
  match s.agenda with
  | (n, g) :: more =>
    if s.now < n then .acts [give rest]
    else
      let l := [Act.pkg (.agenda more)]
      match g with
      | .ev core i => eventAt l core .control i
      | g => .acts (l ++ g.run (s.applyAll l))
  | [] => .acts [give rest]
/-- A region's work that is due in this cycle, in its order (R24, R34, R151, R192). -/
def doAgenda (s : State) (ctx : Nat) (rest : List Turn) : Doing :=
  let r := s.region ctx
  match r.agenda with
  | (k, it) :: more =>
    if !r.phase.counts ∨ r.cyc < k.due then .acts [give rest]
    else
      let l := [Act.reg ctx (.agenda more)]
      match it with
      | .ev core a i => eventAt (l ++ eventEcc (s.applyAll (l ++ [.pkg (.cur core a)])) i) core a i
      | it =>
        let acts := it.run k (s.applyAll l)
        .acts (l ++ eccActs s (it.reads s) acts ++ acts)
  | [] => .acts [give rest]

/-! ## The events of a region -/

/-- An entry of the region that completes by now: its core and engine (R175). -/
def completionDue (s : State) (r : Region) : Option (Nat × Nat) :=
  r.ids.findSome? fun id => ([0, 1, 2].find? fun e => ((s.core id).eng e).finishing.any fun f => f.ended r.cyc).map fun e => (id, e)
/-- The commit cycle once every core has arrived: 48 after the latest arrival, and not before this cycle (R26, R376). A region
all of whose cores have ended their groups has no commit left; its node completes (R282). -/
def commitCycle (s : State) (r : Region) : Option Nat :=
  let arr := fun (id : Nat) => (s.core id).arrCyc
  if r.between ∨ (s.live r).isEmpty ∨ !(r.ids.all fun id => (s.core id).ended || decide (arr id ≠ 0)) then none
  else some (max ((r.ids.map arr).foldl max 0 + Config.treeDelay - 1) r.cyc)
/-- A release of the barrier tree that is due: of a tag, or of a rendezvous (R200, R206, R208, R300). -/
def releaseEvent (r : Region) : Option Instr :=
  match r.btDue.find? fun p => decide (p.2 ≠ 0 ∧ p.2 ≤ r.cyc) with
  | some p => some (.barrierRelease p.1)
  | none => match r.rdvDue with
    | some p => if p.2 ≤ r.cyc then some (if p.1 then .recoveryRegionOpen else .recoveryRegionClose) else none
    | none => none
/-- The event of a running region that is due, if there is one. -/
def runEvent (s : State) (ctx : Nat) : Option Instr :=
  let r := s.region ctx
  match releaseEvent r with
  | some i => some i
  | none =>
    if (match r.commitDue with | some n => decide (n ≤ r.cyc) | none => false) && !r.skipped && (s.commitFull ctx).isEmpty then some .instantCommit
    else if s.startReady ctx then some .instantStart
    else if r.quant ≠ 0 ∧ !r.quantExp ∧ r.ranFrom + r.quant * 1000 ≤ s.dtime then some .quantumExpiry
    else if (s.live r).isEmpty ∧ r.copies = [] ∧ (r.ids.all fun id => (s.core id).untimed.isEmpty) ∧ r.visibleAt ≤ s.now ∧ s.booted ∧
        !s.heldWork.contains (coreId ctx 0, .nodeCompletion)
    then some .nodeCompletion
    else none
/-- The event of a region that is due, whatever its phase. -/
def regionEvent (s : State) (ctx : Nat) : Option Instr :=
  let r := s.region ctx
  if r.phase = .none then none
  else if (match r.deadline with | some d => decide (d ≤ s.dtime) | none => false) then some .powerDeadlineExpiry
  else if r.released ≠ [] then some .stagedWriteApply
  else match r.phase with
    | .run => runEvent s ctx
    | .handler _ => releaseEvent r
    | .resuming _ => releaseEvent r
    | .restoring b => if b ≤ r.cyc then some .rollbackRestart else none
    | .killed => if r.action ≠ 5 ∧ s.booted ∧ r.killAt + 10000000 ≤ s.dtime then some .killDrainTimeout else none
    | .drained => if r.action = 3 ∧ s.booted ∧ !s.dusk then some .nodeRequeue else none
    | _ => none
/-- A region's turn: entries complete, then events run until none is due; a base cycle or a resume cycle starts it (R275, R312,
R323). -/
def doRegion (s : State) (ctx : Nat) (rest : List Turn) : Doing :=
  let r := s.region ctx
  match (if r.phase = .run ∨ r.phase = .stopping then completionDue s r else none) with
  | some (id, e) => eventAt [] id (.engine e) .entryCompletion
  | none => match regionEvent s ctx with
    | some i => eventAt (eventEcc (s.applyAll [.pkg (.cur (coreId ctx 0) .control)]) i) (coreId ctx 0) .control i
    | none => match r.phase with
      | .loading => if r.baseAt ≤ s.now then .acts [.reg ctx (.launchAt s.now)] else .acts [give rest]
      | .resuming v =>
        if v ≤ r.cyc then .acts [.reg ctx (.put { r with phase := .run, frozen := false, fault := none, commitDue := commitCycle s r })]
        else .acts [give rest]
      | _ => .acts [give rest]

/-! ## Engines and control cores -/

/-- An engine's step (R173): its micro-order runs, or raises ILLEGAL. -/
def doStep (s : State) (core e : Nat) (rest : List Turn) : Doing :=
  let l := [give rest, .pkg (.cur core (.engine e))]
  let s' := s.applyAll l
  match microOrder (s.core core) e with
  | some i => .run (l ++ wordEcc s' i) i
  | none => .acts (l ++ (s'.trap ILLEGAL).run s')
/-- The control core may act: its region runs, or it runs the handler (R304, R312). -/
def mayAct (r : Region) (c : Core) (core : Nat) : Bool :=
  !c.ended && !c.trapped && (match r.phase with
    | .run => true
    | .handler id => id = core
    | _ => false)
/-- The control core may issue its next bundle in this cycle (R26, R27, R295). -/
def mayIssue (r : Region) (c : Core) : Bool :=
  c.waits.isEmpty && decide (c.nextAt ≤ r.cyc) && decide ((r.cyc - r.ibase) % c.divisor 0 = 0) &&
    (match r.phase with
     | .run => !r.between && !c.arrived
     | _ => true)
/-- The words of the bundle at a core's pc that decode. -/
def wordsAt (r : Region) (c : Core) : List Instr :=
  match fetchBundle (r.codeAt c) c.pc with
  | some (ws, _) => ws.filterMap fun w => (decodeAt (r.codeAt c) c.pc w).toOption
  | none => []
/-- The corrections of single-bit errors that the bundle at a control core's pc makes as it issues (R221). -/
def bundleFix (m : State) : List Act := if m.soft = [] then [] else bundleEcc m (wordsAt m.rr m.cc)
/-- The word places an entry on a queue (R42, R177). -/
def placesEntry (i : Instr) : Bool :=
  match i with
  | .run _ _ _ => true
  | .runs _ _ _ _ => true
  | .loopb _ _ _ _ => true
  | .cpt _ _ _ _ _ => true
  | .cpa _ _ _ _ _ => true
  | .cpm _ _ _ _ => true
  | .cpl _ _ _ => true
  | .cpk _ _ _ _ _ => true
  | i => let cls := encode i / 2 ^ 27 % 16; i.isWord && (cls = 8 || cls = 9 || cls = 10 || cls = 12)
/-- A word that acts before the engines of its cycle: one that places an entry, which can start in this cycle, and one that takes a
token (R12, R24, R172, R182). -/
def actsFirst (i : Instr) : Bool :=
  placesEntry i || (match i with | .waitt _ _ => true | _ => false)
/-- An engine's turn: the step that is due. A region that stops lets running entries go on, and its handler lets none (R173, R304). -/
def doEngine (s : State) (core e : Nat) (rest : List Turn) : Doing :=
  let r := s.region (core / 2048)
  let c := s.core core
  if (r.phase = .run ∨ r.phase = .stopping) ∧ c.ended = false ∧ stepDue r c e = true then doStep s core e rest else .acts [give rest]
/-- The bundle at a control core's pc issues in this cycle, as its engines leave it: its words then read the loops it runs in (R68). -/
def issuesNow (m : State) : Bool :=
  match planBundle (beginBundle m (bundleLen (m.rr.codeAt m.cc) m.cc.pc)) with
  | .acts _ => true
  | _ => false
/-- What the control core of the acting core does ahead of its engines: a WAITT whose token is there ends, and a bundle that places an entry
or takes a token issues where nothing holds it, so that the entry can start in this cycle in its engine's place in the order of R12, and
no entry takes the token before it; its own tests of tiles find them as the engines leave them (R12, R24, R42, R182). Where the bundle
at its pc issues in this cycle, the engines read its loops (R17, R68, R131). -/
def controlFirst (m : State) : Option Doing :=
  let r := m.rr
  let c := m.cc
  let l := [Act.pkg (.cur m.cur .control)]
  if !mayAct r c m.cur then none
  else if c.waits.any fun w => match w.kind with | .waitt t => SMap.get 0 c.tokens t ≠ 0 | _ => false then some (.run l .waitEnd)
  else if !mayIssue r c then none
  else
    let fix := if (wordsAt r c).any actsFirst then bundleFix m else []
    let f := m.applyAll fix
    match (if (wordsAt r c).any actsFirst then planBundle (beginBundle f (bundleLen (r.codeAt c) c.pc)) else .hold []) with
    | .acts _ => some (.acts (l ++ fix ++ issueActs f))
    | _ => if c.loopsOld ≠ c.loops && issuesNow m then some (.acts (l ++ [.core m.cur (.loopsOld c.loops)])) else none
/-- A core's turn ahead of its engines' steps, until nothing is left to do in it: its control core's share, and then the heads that start
or are skipped, whose signals of this cycle the control core and the other heads find (R12, R24, R173, R174). -/
def doEarly (s : State) (core : Nat) (rest : List Turn) : Doing :=
  let m := s.applyAll [.pkg (.cur core .control)]
  match controlFirst m with
  | some d => d
  | none => match (if m.rr.phase = .run ∧ m.cc.ended = false then starting m else none) with
    | some e => eventAt [] core (.engine e) .queueEntryStart
    | none => .acts [give rest]
/-- A control core's turn: its waits, a held bundle, or the bundle at its pc. A bundle of one well-formed word is that
instruction; any other issues as a whole (R32, R33). -/
def doControl (s : State) (core : Nat) (rest : List Turn) : Doing :=
  let r := s.region (core / 2048)
  let c := s.core core
  let l := [give rest, .pkg (.cur core .control)]
  let m := s.applyAll l
  if !mayAct r c core then .acts [give rest]
  else if c.waits ≠ [] then
    let l := l ++ eccActs m (waitReads m) []
    if c.waits.any fun w => waitMet m w || lockFails m w then .run l .waitEnd
    else if c.waits.any fun w => (match w.due with | some n => decide (n ≤ r.cyc) | none => false) then .run l .waitexp
    else .acts (l ++ c.waits.flatMap fun w => match w.kind with
      | .tlblk lo len => (match tryLock c (core / 2048) lo len with | .walk va => m.walkReq va | _ => [])
      | .mwait _ addr _ _ (k :: ks) ord => sampleAhead m addr (k :: ks) ord
      | _ => [])
  else if !mayIssue r c then .acts [give rest]
  else
    let fix := bundleFix m
    if c.held then .run (l ++ fix) .heldBundleIssue
    else match soleInstr (r.codeAt c) c.pc with
      | some (i, n) => if (segmentEnds m).isNone then .run (l ++ fix ++ beginActs m n) i else .acts (l ++ fix ++ issueActs (m.applyAll fix))
      | none => .acts (l ++ fix ++ issueActs (m.applyAll fix))

/-! ## The end of a cycle -/

/-- The rendezvous that every live core now waits for: its release falls 48 cycles later (R206, R208). -/
def rendezvous (s : State) (r : Region) : Option (Bool × Nat) :=
  let all := fun (k : WaitKind) => (s.live r).all fun id => (s.core id).waits.any fun w => w.kind = k
  if r.rdvDue.isSome then r.rdvDue
  else if (s.live r).isEmpty then none
  else if all (.rbegin true) then some (true, r.cyc + Config.treeDelay)
  else if all (.rend true) then some (false, r.cyc + Config.treeDelay)
  else none
/-- Every core has arrived at a tag, at least one of them by a word (R200). -/
def tagComplete (s : State) (r : Region) (b : Nat) : Bool :=
  (r.ids.all fun id => let c := s.core id; SMap.get false c.btArr b || (c.ended && decide (c.arrCyc ≤ r.cyc))) &&
    r.ids.any fun id => SMap.get false (s.core id).btArr b
def tagsDue (s : State) (r : Region) : SMap Nat :=
  (List.range 8).foldl (fun m b => if SMap.get 0 m b = 0 && tagComplete s r b then SMap.set 0 m b (r.cyc + Config.treeDelay) else m) r.btDue
/-- The end of a region's cycle: signatures take the micro-orders of the cycle (R75), timed entries behind a head fault at their
stamps (R173), untimed copies take effect ahead of the timed ones that meet them (R245), cores arrive at the commit (R26, R152), and the releases that this makes due are set, those of a handler's own arrivals too, the ones of its last bundle among
them (R300). -/
def settleActs (s : State) (ctx : Nat) : List Act :=
  let r := s.region ctx
  let fold := r.ids.flatMap fun id =>
    let b := (s.core id).segBuf
    if b = [] then [] else [.core id (.crc (engBytes b)), .core id (.segBuf [])]
  let begun := fold ++ orderActs r
  match r.phase with
  | .handler core =>
    let s1 := s.applyAll begun
    let r1 := s1.region ctx
    let r2 := { r1 with rdvDue := if s1.live r1 = [core] then rendezvous s1 r1 else r1.rdvDue, btDue := tagsDue s1 r1 }
    begun ++ if r2 = r1 then [] else [.reg ctx (.put r2)]
  | .resuming _ => begun ++ if tagsDue s r = r.btDue then [] else [.reg ctx (.put { (s.applyAll begun).region ctx with btDue := tagsDue s r })]
  | .run =>
    let late := r.ids.flatMap fun id => [0, 1, 2].flatMap fun e => lateEntries (s.applyAll [.pkg (.cur id (.engine e))]) e
    let arrive := if r.between then [] else (s.live r).filterMap fun id =>
      let c := s.core id
      if c.arrived && c.arrCyc = 0 && c.untimed.isEmpty && [0, 1, 2].all (engIdle c) then some (.core id (.arrived true (r.cyc + 1))) else none
    let l := begun ++ late ++ arrive
    let s1 := s.applyAll l
    let r1 := s1.region ctx
    let r2 := { r1 with commitDue := if r1.commitDue.isSome then r1.commitDue else commitCycle s1 r1, rdvDue := rendezvous s1 r1
                        btDue := tagsDue s1 r1 }
    l ++ if r2 = r1 then [] else [.reg ctx (.put r2)]
  | _ => begun
/-- A region's last turn of a cycle: entries complete, a stop is reached (R304), and the cycle is settled. -/
def doSettle (s : State) (ctx : Nat) (rest : List Turn) : Doing :=
  let r := s.region ctx
  match (if r.phase = .run ∨ r.phase = .stopping then completionDue s r else none) with
  | some (id, e) => eventAt [] id (.engine e) .entryCompletion
  | none =>
    if s.stopReached ctx then
      eventAt (give rest :: eventEcc (s.applyAll [.pkg (.cur (coreId ctx 0) .control)]) .regionStop) (coreId ctx 0) .control .regionStop
    else .acts (give rest :: settleActs s ctx)

/-! ## The scheduler and the clock -/

/-- A node that becomes ready now (R269), but for one whose readiness Dusk has held already (R358). -/
def nextReady (s : State) : Option (Nat × Nat) :=
  s.graphs.findSome? fun g =>
    if g.checked ∧ g.status = 0 then
      ((List.range g.nodes.length).find? fun i => ((g.nodes[i]?.map fun x => x.eligible s.dtime).getD false) &&
        !(s.dusk && s.heldWork.any fun p => p.2 = .nodeReady g.gid i)).map fun i => (g.gid, i)
    else none
/-- The region scheduler's turn (R269, R270, R278): nodes become ready, entries launch, and with none left to launch the swaps that the
head's reservation needs are marked. Dusk holds readiness in order and launches nothing; firmware that has not booted does nothing
(R358). -/
def doSched (s : State) (rest : List Turn) : Doing :=
  if !s.booted then .acts [give rest]
  else match nextReady s with
    | some (g, i) => eventAt [] 0 .control (.nodeReady g i)
    | none => match schedule s with
      | .launch core i => eventAt (eventEcc (s.applyAll [.pkg (.cur core .control)]) i) core .control i
      | .marks l => .acts (give rest :: l)

/-- The turns of the cycle after a tick. -/
def cycleTurns (s : State) : List Turn :=
  let l := s.regions.filter fun p => p.2.phase ≠ .none
  turnsOf l (l.filter fun p => p.2.advances || (p.2.phase = .loading && decide (p.2.baseAt ≤ s.now + 1)))
/-- Protected words of a core, by what holds them; blocks of HBM and LPDDR 6 (R221, R222, R228). -/
def softWords (kind : Nat) : Nat :=
  if kind = 0 then Config.spadBytes / 8 else if kind = 1 then 96 * 17 * 32 else if kind = 2 then 16 * 17 * 32 else if kind = 3 then 2048
  else if kind = 4 then Config.stagingEntries else 2 ^ 58
/-- The single-bit errors that have arisen in an interval of 1,024 ns: how many there are, and in which words, is free (R221, R228;
assumptions 64). -/
def newSoft (s : State) : List Soft :=
  (List.range (s.free 1 0)).map fun i =>
    { die := s.free (4 * i + 2) 4, kind := s.free (4 * i + 3) 6, core := s.free (4 * i + 4) 1536
      word := s.free (4 * i + 5) (softWords (s.free (4 * i + 3) 6)) }
/-- Single-bit errors at a tick: of the blocks of HBM and LPDDR 6 the one that has stood longest is corrected, written back and journaled in
this cycle or in a later one, which is free; new errors join at the end of an interval. One of a core's words waits for a read of the
word (R221, R228; assumptions 64). -/
def softActs (s : State) (interval : Bool) : List Act :=
  let new := if interval then newSoft s else []
  match s.soft.find? fun e => e.kind = 5 with
  | none => if interval then [.pkg (.soft (s.soft ++ new)), .pkg (.takeFree (2 + 4 * new.length))] else []
  | some e =>
    let fixed := s.free 0 2 = 1
    [.pkg (.soft ((if fixed then s.soft.erase e else s.soft) ++ new)), .pkg (.takeFree (2 + 4 * new.length))] ++
      if fixed then [.pkg (.journal e.die ⟨s.dtime, 0, 0, 17, e.core, e.kind + e.word * 2 ^ 3⟩)] else []
/-- A region that a warm reset keeps has been saved, or its groups have all ended (R318, R319). -/
def keptStill (s : State) (ctx : Nat) : Bool :=
  let r := s.region ctx
  (match r.phase with | .out => true | .saving => true | _ => false) || (s.live r).isEmpty
/-- The next device cycle begins: DTIME advances by 1 ns, slewed (R25, R352), CYC advances where it counts, and the events of
device time fall due (R285, R331, R338, R359). What the cycle has journaled stands in the rings from the next cycle on (R357).
During a warm reset, once 5 ms have passed, a region that has reached no commit is kept no more (R318). -/
def tickActs (s : State) : List Act :=
  let acc := (s.dtAcc + (Config.dtUnit + s.slew).toNat)
  let d0 := s.dtime
  let d1 := acc / Config.dtUnit
  let due := fun (b : Bool) (i : Instr) => if b then [Act.pkg (.later (s.now + 1) (.ev 0 i))] else []
  [.pkg (.now (s.now + 1)), .pkg (.time acc)] ++ journalFlush s ++ softActs s (d0 / 1024 ≠ d1 / 1024) ++
    (s.regions.flatMap fun p =>
      if p.2.advances then [.reg p.1 .tickCyc, .reg p.1 (.skipCnt 0)]
      else if p.2.phase.counts then [.reg p.1 (.skipCnt (p.2.skipCnt + 1))] else []) ++
    (if !s.booted && decide (s.keptUntil < d1) && decide (d0 ≤ s.keptUntil) then [.pkg (.kept (s.kept.filter (keptStill s)) s.keptUntil)] else []) ++
    due (d0 / 1024 ≠ d1 / 1024) .energyUpdate ++ due ((d0 - s.dawnAt) / 1000000 ≠ (d1 - s.dawnAt) / 1000000) .twilightWindowEnd ++
    due (s.msi.any fun p => p.2.open_ && decide (p.2.closeAt ≤ d1)) .coalescingWindowClose ++
    due (s.update.phase = 2 && decide (s.update.deadline < d1)) .updateHeartbeatTimeout ++ [.pkg (.todo (cycleTurns s))]

/-- What a turn does. -/
def doTurn (s : State) (rest : List Turn) : Turn → Doing
  | .inputs => doInputs s rest
  | .due => doDue s rest
  | .agenda ctx => doAgenda s ctx rest
  | .region ctx => doRegion s ctx rest
  | .engine core e => doEngine s core e rest
  | .control core early => if early then doEarly s core rest else doControl s core rest
  | .settle ctx => doSettle s ctx rest
  | .sched => doSched s rest
  | .tick => .acts (tickActs s)
/-- What the machine does next: the turn at the head of the list; with none left, the next cycle begins. -/
def State.doing (s : State) : Doing :=
  match s.todo with
  | [] => .acts (tickActs s)
  | t :: rest => doTurn s rest t

/-! ## Placing an instruction where the next step fetches it -/

/-- A region of one core that runs in its first instant, with a code memory: what a loader leaves (R275; assumptions 1). -/
def readyRegion (r : Region) (code : SMap Word) : Region :=
  { r with phase := .run, ctx := 1, w := 1, h := 1, dies := 1, code := code, between := false, instant := 1 }
/-- The context 1 with one core whose control core issues next the word at its pc, of n bits w, E set, a literal after it. -/
def placeWord (s : State) (n w : Nat) : State :=
  let c := s.core 2048
  let v := w % 2 ^ n
  let code := SMap.set 0 (SMap.set 0 (s.region 1).code c.pc (BitVec.ofNat 32 (v % 2 ^ 31 + 2 ^ 31))) (c.pc + 1) (BitVec.ofNat 32 (v / 2 ^ 32))
  s.applyAll [.pkg (.booted true false), .pkg (.todo [.control 2048 false]), .reg 1 (.put (readyRegion (s.region 1) code)),
    .core 2048 (.ended false), .core 2048 (.trapped false), .core 2048 (.arrived false 0), .core 2048 (.waits []), .core 2048 (.held false), .core 2048 (.inHandler false),
    .core 2048 (.nextAt 0), .core 2048 (.seg none)]

end Sys2Proof.Machine
end

