-- ==== Sys2Proof/Machine/Step.lean ====
section
/-! DEFINITION. One step, and an instruction placed where the next step fetches it. -/

namespace Sys2Proof.Machine

/-- One step: the work the next turn finds, and the instruction or event that it runs. -/
def step (s : State) : Host.Outcome State Fault Refusal :=
  match s.doing with
  | .acts l => .next (s.applyAll l)
  | .run l i => exec i (s.applyAll l)

/-- The state s with the instruction of nbits bits w placed where the next step fetches it (assumptions 1, 2). -/
def State.withFetchWord (s : State) (nbits w : Nat) : State := placeWord s nbits w

end Sys2Proof.Machine
end

