-- ==== Sys2Proof/Safety.lean ====
section
/-! DEFINITION. What holds in every state of a safe run, and the words that claims about one instruction are stated in: what an issue, a
dequeue and an event may change. -/

namespace Sys2Proof.Machine

/-- A core keeps its form: scratchpad and scalars canonical, and no value stored for s0 (R9, R220). -/
def Core.wf (c : Core) : Bool := Memory.wf c.spad && SMap.wf {} c.regs && c.regs.all fun p => p.1 ≠ 0
/-- The package's tables of die TLBs, clusters and vectors are canonical. -/
def State.tabled (s : State) : Prop := SMap.wf [] s.dieTlb = true ∧ SMap.wf {} s.clusters = true ∧ SMap.wf {} s.msi = true
/-- The form that every step keeps: the tiers' bytes, the tables of cores, regions, die TLBs, clusters and vectors are
canonical, and so is every core (R9, R220, R226). -/
def State.Inv (s : State) : Prop :=
  Memory.wf s.mem = true ∧ SMap.wf {} s.cores = true ∧ SMap.wf {} s.regions = true ∧ (∀ p ∈ s.cores, Core.wf p.2 = true) ∧ s.tabled
/-- A step that goes on: no fault and no refusal. -/
def goesOn (s : State) : Prop := ∃ t, step s = .next t

/-- A byte of the scratchpad of a core (R220). -/
def State.spadByte (s : State) (id off : Nat) : Byte := SMap.get 0 (s.core id).spad off

/-- The part of a core that the issue of any bundle may change: where its control stream goes on, and its loops (R55, R66, R70). -/
def Core.streamed (c d : Core) : Core :=
  { c with pc := d.pc, npc := d.npc, ncost := d.ncost, xfer := d.xfer, nextAt := d.nextAt, loops := d.loops,
           loopsOld := d.loopsOld, held := d.held, missed := d.missed, seg := d.seg }
/-- A segment without its running signature, which every word of it moves on (R75). -/
def Seg.unsigned (g : Seg) : Seg := { g with crc := 0 }
/-- An agenda with more entries put in, first to last. -/
def agendaWith (l : List (Key × Item)) (ev : List (Key × Item)) : List (Key × Item) :=
  ev.foldl (fun l p => agendaInsert p.1 p.2 l) l

/-- The package's agenda with more entries put in, first to last. -/
def laterWith (l : List (Nat × GItem)) (gs : List (Nat × GItem)) : List (Nat × GItem) :=
  gs.foldl (fun l p => laterInsert p.1 p.2 l) l

/-- From s to t nothing changed but the acting core, the agenda of its region, which gained ev, and the package's agenda, which
gained gs, with n free values used. -/
structure Local (s t : State) (ev : List (Key × Item)) (gs : List (Nat × GItem) := []) (n : Nat := 0) : Prop where
  rest : t = { s with cores := t.cores, regions := t.regions, agenda := laterWith s.agenda gs, freeCtr := s.freeCtr + n }
  cores : ∀ id, id ≠ s.cur → t.core id = s.core id
  regions : ∀ ctx, ctx ≠ s.ctx → t.region ctx = s.region ctx
  region : t.region s.ctx = { s.region s.ctx with agenda := agendaWith (s.region s.ctx).agenda ev }

/-- THE ISSUE OF A WORD by the control core, from s to t: the acting core is c but for its stream, which goes on from c's; the
agendas gained ev and gs; every byte of memory and of every other core's scratchpad, every other core and every other region is
as before. -/
structure Issued (s t : State) (c : Core) (ev : List (Key × Item)) (gs : List (Nat × GItem) := []) (n : Nat := 0) : Prop where
  here : Local s t ev gs n
  core : t.cc = c.streamed t.cc
  next : (t.cc.loops, t.cc.pc) = ((loopsAfter (c.leave (s.region s.ctx).fwAt) c.issPc c.npc c.loops).1, (loopsAfter (c.leave (s.region s.ctx).fwAt) c.issPc c.npc c.loops).2.1)
  issue : t.cc.nextAt = s.cyc + c.ncost + (loopsAfter (c.leave (s.region s.ctx).fwAt) c.issPc c.npc c.loops).2.2 * c.divisor 0
  seg : t.cc.seg.map Seg.unsigned = c.seg.map Seg.unsigned
  fresh : t.cc.held = false ∧ t.cc.missed = []
  bytes : ∀ key, t.byte key = s.byte key
  spads : ∀ id off, id ≠ s.cur → t.spadByte id off = s.spadByte id off

/-- A DEQUEUE by engine e, from s to t: the acting core is c, with the engine's step counter moved on and the micro-order
kept for a signature (R75, R173); the rest as for an issue. -/
structure Dequeued (s t : State) (e : Nat) (c : Core) (ev : List (Key × Item)) (gs : List (Nat × GItem) := []) (n : Nat := 0) :
    Prop where
  here : Local s t ev gs n
  core : t.cc = { c.setEng e (c.eng e).advance with segBuf := c.segBuf ++ [(e, (c.micro e).toNat)] }
  bytes : ∀ key, t.byte key = s.byte key
  spads : ∀ id off, id ≠ s.cur → t.spadByte id off = s.spadByte id off

/-- A HOLD by the control core, from s to t: the word has no effect, and its bundle is tried again in the next cycle (R47). -/
structure Held (s t : State) : Prop where
  rest : t = { s with cores := t.cores }
  cores : ∀ id, id ≠ s.cur → t.core id = s.core id
  core : t.cc = { s.cc with held := true, pc := s.cc.issPc, nextAt := s.cyc + 1 }

/-- A TRAP of the control core, from s to t: the word has no effect; the stream stops at its bundle, and the fault is raised (R33,
R302). -/
structure Trapped (s t : State) (f : FaultInfo) : Prop where
  core : t.cc = { s.cc with trapped := true, pc := s.cc.issPc }
  cores : ∀ id, id ≠ s.cur → t.core id = s.core id
  regions : ∀ ctx, ctx ≠ s.ctx → t.region ctx = s.region ctx
  region : t.region s.ctx = RAct.apply s (s.region s.ctx) (.raise f)
  bytes : ∀ key, t.byte key = s.byte key

/-- A step of engine e executes normally with result tag tg (R111, R116, R129, R321): its operands are settled, its sources
agree on a tag whose clock is present, the tiles' bits let it start, its checks pass and no source carries an error. -/
structure Runs (s : State) (p : EStep) (e : Nat) (tg : Tag) : Prop where
  actor : s.actor = .engine e
  ready : p.ready = true
  tags : s.cc.common (p.allTags s.cc) = some tg
  present : s.cc.present tg = true
  bits : p.blockedBy s.cc = none
  legal : p.legal = true
  marks : p.bad = false
  tiles : (p.reads.any s.cc.rowsErr) = false
  sides : (p.sides.any fun t => s.cc.sideErr t ≠ 0) = false
  scalars : (p.scal.any fun r => (s.cc.reg r).bad) = false
  dest : p.rdDst = true → (p.dst.map s.cc.rowsErr).getD false = false

/-- The sources of a word of the control core agree on a tag whose clock is present, and none carries an error (R53, R321). -/
structure Sources (s : State) (srcs : List Nat) (tg : Tag) : Prop where
  actor : s.actor = .control
  tags : s.cc.common (srcs.map fun r => (s.cc.reg r).tag) = some tg
  present : s.cc.present tg = true
  clean : (srcs.any fun r => (s.cc.reg r).bad) = false

end Sys2Proof.Machine
end

