-- ==== Sys2Proof/Certificates/Slice0/Obligations.lean ====
section
/-! DEFINITION. The statements for the provers. The tables that they rest on are written out from the spec's own tables; Safety.lean
holds the words they are stated in. -/

open Sys2Proof Sys2Proof.Machine

namespace Sys2Proof.Claim

/-! ## Tables of the scalar words (R57, R60 to R63) -/

/-- Result of a scalar word: its sources, its destination, its latency, its value, its flags. -/
structure Scalar where
  srcs : List Nat
  d : Nat
  lat : Nat
  val : DWord
  flags : Nat := 0
  deriving DecidableEq, Repr

/-- 1 for a true comparison, 0 for a false one. -/
def flag (b : Prop) [Decidable b] : DWord := if b then 1 else 0
/-- A sum or difference saturated to 64 signed bits; bit 2 of FLAGS where it saturates (R57, R61). -/
def saturated (x : Int) : DWord × Nat :=
  if x < -9223372036854775808 then (0x8000000000000000, 4) else if 9223372036854775807 < x then (0x7FFFFFFFFFFFFFFF, 4)
  else (BitVec.ofInt 64 x, 0)
/-- The mask of w bits of BEXT and BINS (R60). -/
def lowMask (b : DWord) : DWord :=
  let w := b.toNat / 64 % 128
  if 64 ≤ w then BitVec.allOnes 64 else (1 <<< w) - 1

/-- Classes 0 to 2 but for the divider's words, from the tables of R57, R60, R62 and R63; v is the value of each scalar. -/
def scalarTable (v : Nat → DWord) : Instr → Option Scalar
  | .add d a b => some ⟨[a.toNat, b.toNat], d.toNat, 1, v a.toNat + v b.toNat, 0⟩
  | .sub d a b => some ⟨[a.toNat, b.toNat], d.toNat, 1, v a.toNat - v b.toNat, 0⟩
  | .mul d a b => some ⟨[a.toNat, b.toNat], d.toNat, 3, v a.toNat * v b.toNat, 0⟩
  | .mulh d a b => some ⟨[a.toNat, b.toNat], d.toNat, 3, BitVec.ofInt 64 ((v a.toNat).toInt * (v b.toNat).toInt / 18446744073709551616), 0⟩
  | .mulhu d a b => some ⟨[a.toNat, b.toNat], d.toNat, 3, BitVec.ofNat 64 ((v a.toNat).toNat * (v b.toNat).toNat / 18446744073709551616), 0⟩
  | .andS d a b => some ⟨[a.toNat, b.toNat], d.toNat, 1, v a.toNat &&& v b.toNat, 0⟩
  | .orS d a b => some ⟨[a.toNat, b.toNat], d.toNat, 1, v a.toNat ||| v b.toNat, 0⟩
  | .xorS d a b => some ⟨[a.toNat, b.toNat], d.toNat, 1, v a.toNat ^^^ v b.toNat, 0⟩
  | .andn d a b => some ⟨[a.toNat, b.toNat], d.toNat, 1, v a.toNat &&& ~~~(v b.toNat), 0⟩
  | .shl d a b => some ⟨[a.toNat, b.toNat], d.toNat, 1, v a.toNat <<< ((v b.toNat).toNat % 64), 0⟩
  | .shr d a b => some ⟨[a.toNat, b.toNat], d.toNat, 1, v a.toNat >>> ((v b.toNat).toNat % 64), 0⟩
  | .sra d a b => some ⟨[a.toNat, b.toNat], d.toNat, 1, (v a.toNat).sshiftRight ((v b.toNat).toNat % 64), 0⟩
  | .rot d a b => some ⟨[a.toNat, b.toNat], d.toNat, 1, (v a.toNat).rotateLeft ((v b.toNat).toNat % 64), 0⟩
  | .min d a b => some ⟨[a.toNat, b.toNat], d.toNat, 1, if (v a.toNat).toInt ≤ (v b.toNat).toInt then v a.toNat else v b.toNat, 0⟩
  | .max d a b => some ⟨[a.toNat, b.toNat], d.toNat, 1, if (v a.toNat).toInt ≤ (v b.toNat).toInt then v b.toNat else v a.toNat, 0⟩
  | .minu d a b => some ⟨[a.toNat, b.toNat], d.toNat, 1, if (v a.toNat).toNat ≤ (v b.toNat).toNat then v a.toNat else v b.toNat, 0⟩
  | .maxu d a b => some ⟨[a.toNat, b.toNat], d.toNat, 1, if (v a.toNat).toNat ≤ (v b.toNat).toNat then v b.toNat else v a.toNat, 0⟩
  | .seq d a b => some ⟨[a.toNat, b.toNat], d.toNat, 1, flag (v a.toNat = v b.toNat), 0⟩
  | .slt d a b => some ⟨[a.toNat, b.toNat], d.toNat, 1, flag ((v a.toNat).toInt < (v b.toNat).toInt), 0⟩
  | .sltu d a b => some ⟨[a.toNat, b.toNat], d.toNat, 1, flag ((v a.toNat).toNat < (v b.toNat).toNat), 0⟩
  | .sel d a b => some ⟨[d.toNat, a.toNat, b.toNat], d.toNat, 1, if v d.toNat = 0 then v b.toNat else v a.toNat, 0⟩
  | .clz d a => some ⟨[a.toNat], d.toNat, 1, if v a.toNat = 0 then 64 else BitVec.ofNat 64 (63 - (v a.toNat).toNat.log2), 0⟩
  | .ctz d a => some ⟨[a.toNat], d.toNat, 1, BitVec.ofNat 64 (((List.range 64).find? fun i => (v a.toNat).getLsbD i).getD 64), 0⟩
  | .popc d a => some ⟨[a.toNat], d.toNat, 1, BitVec.ofNat 64 ((List.range 64).countP fun i => (v a.toNat).getLsbD i), 0⟩
  | .addsat d a b => let x := saturated ((v a.toNat).toInt + (v b.toNat).toInt); some ⟨[a.toNat, b.toNat], d.toNat, 1, x.1, x.2⟩
  | .subsat d a b => let x := saturated ((v a.toNat).toInt - (v b.toNat).toInt); some ⟨[a.toNat, b.toNat], d.toNat, 1, x.1, x.2⟩
  | .bext d a b => some ⟨[a.toNat, b.toNat], d.toNat, 1, (v a.toNat >>> ((v b.toNat).toNat % 64)) &&& lowMask (v b.toNat), 0⟩
  | .bins d a b =>
    let lo := (v b.toNat).toNat % 64
    let m := lowMask (v b.toNat)
    some ⟨[d.toNat, a.toNat, b.toNat], d.toNat, 1, (v d.toNat &&& ~~~(m <<< lo)) ||| ((v a.toNat &&& m) <<< lo), 0⟩
  | .addi d a i => some ⟨[a.toNat], d.toNat, 1, v a.toNat + i.signExtend 64, 0⟩
  | .andi d a i => some ⟨[a.toNat], d.toNat, 1, v a.toNat &&& i.signExtend 64, 0⟩
  | .ori d a i => some ⟨[a.toNat], d.toNat, 1, v a.toNat ||| i.signExtend 64, 0⟩
  | .xori d a i => some ⟨[a.toNat], d.toNat, 1, v a.toNat ^^^ i.signExtend 64, 0⟩
  | .shli d a i => some ⟨[a.toNat], d.toNat, 1, v a.toNat <<< i.toNat, 0⟩
  | .shri d a i => some ⟨[a.toNat], d.toNat, 1, v a.toNat >>> i.toNat, 0⟩
  | .srai d a i => some ⟨[a.toNat], d.toNat, 1, (v a.toNat).sshiftRight i.toNat, 0⟩
  | .slti d a i => some ⟨[a.toNat], d.toNat, 1, flag ((v a.toNat).toInt < i.toInt), 0⟩
  | .movi d i => some ⟨[], d.toNat, 1, i.signExtend 64, 0⟩
  | .insh d i => some ⟨[d.toNat], d.toNat, 1, (v d.toNat).extractLsb' 51 13 ++ i ++ (v d.toNat).extractLsb' 0 32, 0⟩
  | .inst d i => some ⟨[d.toNat], d.toNat, 1, i ++ (v d.toNat).extractLsb' 0 51, 0⟩
  | .movf d i => some ⟨[], d.toNat, 1, BitVec.ofNat 64 (i.toNat * 8192), 0⟩
  | _ => none

/-- The divider's words, from the tables of R57 and R58. -/
def divideTable (v : Nat → DWord) : Instr → Option Scalar
  | .div d a b => some ⟨[a.toNat, b.toNat], d.toNat, 18, if v b.toNat = 0 then BitVec.allOnes 64 else (v a.toNat).sdiv (v b.toNat), 0⟩
  | .divu d a b => some ⟨[a.toNat, b.toNat], d.toNat, 18, if v b.toNat = 0 then BitVec.allOnes 64 else v a.toNat / v b.toNat, 0⟩
  | .rem d a b => some ⟨[a.toNat, b.toNat], d.toNat, 18, if v b.toNat = 0 then v a.toNat else (v a.toNat).srem (v b.toNat), 0⟩
  | .remu d a b => some ⟨[a.toNat, b.toNat], d.toNat, 18, if v b.toNat = 0 then v a.toNat else v a.toNat % v b.toNat, 0⟩
  | _ => none

/-- The agenda entry of updates of the acting core that land n figures after this cycle. -/
def landing (s : State) (n grp : Nat) (l : List CAct) : Key × Item := (s.key (s.cyc + n * s.mul) grp, .land s.cur l)
/-- The updates of a scalar result: value and tag, and the flags it raises (R53, R61). -/
def scalarLanding (x : Scalar) (tg : Tag) : List CAct :=
  .reg x.d x.val tg false :: if x.flags = 0 then [] else [.orFlags x.flags]

end Sys2Proof.Claim

open Sys2Proof.Claim

/-- R53, R57, R60 to R63: every scalar word but the divider's completes when its sources agree on a present tag and carry no
error: value and tag of its table land together in its destination at issue + L, ADDSAT and SUBSAT with the overflow flag where
they saturate; until then no register, flag, tile, special register or byte of memory changes. -/
def Sys2Proof.Claim.ScalarResultsLand : Prop :=
  ∀ (i : Instr) (s : State) (x : Scalar) (tg : Tag), scalarTable s.val i = some x → Sources s x.srcs tg →
    ∃ t, exec i s = .next t ∧ Issued s t s.cc [landing s x.lat 0 (scalarLanding x tg)]

/-- R57 to R59: a word of the divider's family that finds the divider free occupies it for 18 cycles and lands its quotient or
remainder, with the special cases of R58 and with no flag, 18 cycles after issue; with its clock absent it only occupies the
divider, and sources that disagree raise CLOCK. While the divider is occupied, elastic code holds the word's bundle, and a timed
segment raises SCHED with cause 5; nothing else changes. -/
def Obligations.DivisionsLand : Prop :=
  ∀ (i : Instr) (s : State) (x : Scalar), divideTable s.val i = some x → s.actor = .control →
    let tags := s.cc.common (x.srcs.map fun r => (s.cc.reg r).tag)
    let busy := { s.cc with divFree := s.cyc + 18 * s.mul }
    (s.cc.divFree ≤ s.cyc →
      (∀ tg, Sources s x.srcs tg → ∃ t, exec i s = .next t ∧ Issued s t busy [landing s 18 0 (scalarLanding x tg)]) ∧
      (∀ tg, tags = some tg → s.cc.present tg = false → ∃ t, exec i s = .next t ∧ Issued s t busy []) ∧
      (tags = none → ∃ t, exec i s = .next t ∧ Trapped s t (s.fault CLOCK))) ∧
    (s.cyc < s.cc.divFree →
      (s.inSeg = false → ∃ t, exec i s = .next t ∧ Held s t) ∧
      (∀ tg, tags = some tg → s.inSeg = true → ∃ t, exec i s = .next t ∧
        Trapped s t { s.fault SCHED with wobj := 5, wval1 := s.cyc }))

/-- R53, R28, R54, R321: a scalar word whose sources disagree on their tags raises CLOCK; one whose result clock is absent issues and
has no further effect; one that reads a value with an uncorrectable error on a present clock raises UECC. -/
def Sys2Proof.Claim.ScalarClockRules : Prop :=
  ∀ (i : Instr) (s : State) (x : Scalar), scalarTable s.val i = some x → s.actor = .control →
    (s.cc.common (x.srcs.map fun r => (s.cc.reg r).tag) = none → ∃ t, exec i s = .next t ∧ Trapped s t (s.fault CLOCK)) ∧
    (∀ tg, s.cc.common (x.srcs.map fun r => (s.cc.reg r).tag) = some tg → s.cc.present tg = false →
      ∃ t, exec i s = .next t ∧ Issued s t s.cc []) ∧
    (∀ tg, s.cc.common (x.srcs.map fun r => (s.cc.reg r).tag) = some tg → s.cc.present tg = true →
      (x.srcs.any fun r => (s.cc.reg r).bad) = true → ∃ t, exec i s = .next t ∧ Trapped s t (s.fault UECC))

/-- Scalar words land their results: ScalarResultsLand, ScalarClockRules hold. -/
def Obligations.ScalarWordsLand : Prop :=
  Claim.ScalarResultsLand ∧ Claim.ScalarClockRules

/-! ## Control (R64 to R79) -/

namespace Sys2Proof.Claim

/-- A scalar may steer control: tag k0 or k1, and no uncorrectable error (R54, R321). -/
def maySteer (s : State) (a : Nat) : Prop := (s.tag a = 0 ∨ s.tag a = 1) ∧ s.bad a = false
/-- A transfer to word address n, one cycle of the unit later: kind 1 a jump or branch, 2 CALL or RET (R55, R67). -/
def gone (s : State) (n kind : Nat) : Core := { s.cc with npc := n, ncost := s.cc.divisor 0, xfer := kind }
/-- The word issued from s to t and the stream goes on at word address n, one cycle of the unit later (R55). -/
def Goes (s t : State) (n kind : Nat) (ev : List (Key × Item)) : Prop :=
  Issued s t (gone s n kind) ev ∧ t.cc.pc = n ∧ t.cc.nextAt = s.cyc + s.cc.divisor 0
/-- A loop that may open at a level: none runs there, it is a temporal level, its body lies in the stream and nests (R68, R69). -/
def mayLoop (s : State) (level stop : Nat) : Prop :=
  (∀ l ∈ s.cc.loops, l.level ≠ level) ∧ (s.rr.loopTab.getD level (0, 0)).1 ≠ 2 ∧ (s.rr.loopTab.getD level (0, 0)).1 ≠ 3 ∧
    stop ≤ 8192 ∧ ∀ l ∈ s.cc.loops, l.first ≤ s.cc.npc ∧ stop ≤ l.stop

end Sys2Proof.Claim

/-- R55, R67, R78: JMP, a taken BNZ or BZ, CALL, RET and NEXTS go on at their target one cycle later; a branch not taken goes on
in sequence; CALL lands the address of the next bundle in s63; NEXTS takes the entry chosen by the clamped index. -/
def Sys2Proof.Claim.TransfersReachTheirTargets : Prop :=
  ∀ s : State, s.actor = .control →
    (∀ t, ∃ u, exec (.jmp t) s = .next u ∧ Goes s u t.toNat 1 []) ∧
    (∀ a t, maySteer s a.toNat → s.inSeg = false → s.val a.toNat ≠ 0 → ∃ u, exec (.bnz a t) s = .next u ∧ Goes s u t.toNat 1 []) ∧
    (∀ a t, maySteer s a.toNat → s.inSeg = false → s.val a.toNat = 0 → ∃ u, exec (.bnz a t) s = .next u ∧ Issued s u s.cc []) ∧
    (∀ a t, maySteer s a.toNat → s.inSeg = false → s.val a.toNat = 0 → ∃ u, exec (.bz a t) s = .next u ∧ Goes s u t.toNat 1 []) ∧
    (∀ a t, maySteer s a.toNat → s.inSeg = false → s.val a.toNat ≠ 0 → ∃ u, exec (.bz a t) s = .next u ∧ Issued s u s.cc []) ∧
    (∀ t, s.inSeg = false → ∃ u, exec (.call t) s = .next u ∧
      Goes s u t.toNat 2 [landing s 1 0 [.reg 63 (BitVec.ofNat 64 s.cc.npc) 0 false]]) ∧
    (maySteer s 63 → s.inSeg = false → ∃ u, exec .ret s = .next u ∧ Goes s u ((s.val 63).toNat % 8192) 2 []) ∧
    (∀ a n b, maySteer s a.toNat → s.inSeg = false → b.toNat + n.toNat ≤ s.rr.segs.length →
      ∃ u, exec (.nexts a n b) s = .next u ∧
        Goes s u (s.rr.segs.getD (b.toNat + min (s.val a.toNat).toNat (n.toNat - 1)) (0, 0, 1)).1 1 [])

/-- R65, R54, R78: BNZ, BZ, RET, LOOPS and NEXTS with a steering value of another tag than k0 or k1 raise CLOCK, and inside a timed
segment, with a tag that may steer, they and CALL, SEGB, ENDI, KEND and WAITS raise TIMING; a NEXTS past the segment table raises
ILLEGAL. That CLOCK comes before TIMING, and ILLEGAL before both, is the model's reading (assumptions 27). -/
def Sys2Proof.Claim.ControlWordsTrapWhereTheyMayNotStand : Prop :=
  ∀ s : State, s.actor = .control →
    (∀ a t l n, ¬ (s.tag a.toNat = 0 ∨ s.tag a.toNat = 1) →
      (∃ u, exec (.bnz a t) s = .next u ∧ Trapped s u (s.fault CLOCK)) ∧
      (∃ u, exec (.bz a t) s = .next u ∧ Trapped s u (s.fault CLOCK)) ∧
      (∃ u, exec (.loops l a n) s = .next u ∧ Trapped s u (s.fault CLOCK))) ∧
    (∀ a n b, b.toNat + n.toNat ≤ s.rr.segs.length → ¬ (s.tag a.toNat = 0 ∨ s.tag a.toNat = 1) →
      ∃ u, exec (.nexts a n b) s = .next u ∧ Trapped s u (s.fault CLOCK)) ∧
    (¬ (s.tag 63 = 0 ∨ s.tag 63 = 1) → ∃ u, exec .ret s = .next u ∧ Trapped s u (s.fault CLOCK)) ∧
    (∀ a t l n, (s.tag a.toNat = 0 ∨ s.tag a.toNat = 1) → s.inSeg = true →
      (∃ u, exec (.bnz a t) s = .next u ∧ Trapped s u (s.fault TIMING)) ∧
      (∃ u, exec (.bz a t) s = .next u ∧ Trapped s u (s.fault TIMING)) ∧
      (∃ u, exec (.loops l a n) s = .next u ∧ Trapped s u (s.fault TIMING))) ∧
    (∀ a n b, b.toNat + n.toNat ≤ s.rr.segs.length → (s.tag a.toNat = 0 ∨ s.tag a.toNat = 1) → s.inSeg = true →
      ∃ u, exec (.nexts a n b) s = .next u ∧ Trapped s u (s.fault TIMING)) ∧
    ((s.tag 63 = 0 ∨ s.tag 63 = 1) → s.inSeg = true → ∃ u, exec .ret s = .next u ∧ Trapped s u (s.fault TIMING)) ∧
    (∀ a n b, s.rr.segs.length < b.toNat + n.toNat → ∃ u, exec (.nexts a n b) s = .next u ∧ Trapped s u (s.fault ILLEGAL)) ∧
    (∀ i t v n w, (i = .call t ∨ i = .segb v n ∨ i = .endi ∨ i = .kend ∨ i = .waits w) → s.inSeg = true →
      ∃ u, exec i s = .next u ∧ Trapped s u (s.fault TIMING))

/-- Transfers reach their targets or trap: TransfersReachTheirTargets, ControlWordsTrapWhereTheyMayNotStand hold. -/
def Obligations.ControlTransfers : Prop :=
  Claim.TransfersReachTheirTargets ∧ Claim.ControlWordsTrapWhereTheyMayNotStand

/-- R66, R70, R79: after IDLE n the next bundle issues n cycles of the unit later; after WAITS, at IBASE + stamp where that is later
than this cycle, and SCHED is raised where it is not; nothing else changes. That the idle cycle of the back edge of a long body that
WAITS ends is added to the wait is the model's reading (assumptions 55). -/
def Obligations.IdleAndWaitsDelayTheStream : Prop :=
  ∀ s : State, s.actor = .control →
    (∀ n, ∃ t, exec (.idle n) s = .next t ∧ Issued s t { s.cc with ncost := n.toNat * s.cc.divisor 0 } []) ∧
    (∀ w, s.inSeg = false → s.cyc < s.rr.ibase + w.toNat →
      ∃ t, exec (.waits w) s = .next t ∧ Issued s t { s.cc with ncost := s.rr.ibase + w.toNat - s.cyc } []) ∧
    (∀ w, s.inSeg = false → s.rr.ibase + w.toNat ≤ s.cyc →
      ∃ t, exec (.waits w) s = .next t ∧ Trapped s t { s.fault SCHED with wobj := 12, wval1 := s.rr.ibase + w.toNat })

/-- R68, R69: LOOP and LOOPS open a loop whose body is the next len bundles, iteration 0 of count; with count 0 the stream goes on
past the body; a level already running, a spatial level, a body past word 8,192 or one that does not nest raises ILLEGAL. That the stream
which goes on past a skipped body goes round an enclosing loop that this body ends is the model's reading (assumptions 55). -/
def Obligations.LoopsOpen : Prop :=
  ∀ s : State, s.actor = .control → ∀ (l : BitVec 3) (n : BitVec 8) (i : Instr) (count : Nat),
    ((∃ c : BitVec 12, i = .loop l c n ∧ count = c.toNat) ∨
      (∃ a : BitVec 6, i = .loops l a n ∧ count = (s.val a.toNat).toNat % 4294967296 ∧ maySteer s a.toNat ∧ s.inSeg = false)) →
    let stop := bodyEnd s.rr.code s.cc.npc n.toNat
    (mayLoop s l.toNat stop → count ≠ 0 → ∃ t, exec i s = .next t ∧
      Issued s t { s.cc with loops := ⟨l.toNat, s.cc.npc, stop, count, 0, n.toNat⟩ :: s.cc.loops } []) ∧
    (mayLoop s l.toNat stop → count = 0 → ∃ t, exec i s = .next t ∧
      Issued s t { s.cc with npc := stop, ncost := s.cc.divisor 0 } []) ∧
    (¬ mayLoop s l.toNat stop → ∃ t, exec i s = .next t ∧ Trapped s t (s.fault ILLEGAL))

/-- R73, R75, R295: SEGB written for the divisor in force opens a segment in this cycle; SEGE closes it where the length and the
signature are the declared ones; another divisor or length raises SEGLEN, another signature SEGSIG, with both values. -/
def Obligations.SegmentsOpenAndClose : Prop :=
  ∀ s : State, s.actor = .control →
    (∀ v n, s.inSeg = false → v.toNat + 1 = s.cc.divisor 0 → ∃ t, exec (.segb v n) s = .next t ∧
      Issued s t { s.cc with seg := some ⟨s.cyc, n.toNat, v.toNat + 1, 0xFFFFFFFF, s.cc.issPc⟩ } []) ∧
    (∀ v n, s.inSeg = false → v.toNat + 1 ≠ s.cc.divisor 0 → ∃ t, exec (.segb v n) s = .next t ∧
      Trapped s t { s.fault SEGLEN with wobj := segIndex s.rr s.cc.issPc, wval1 := v.toNat + 1, wval2 := s.cc.divisor 0 }) ∧
    (∀ lit, s.cc.seg = none → ∃ t, exec (.sege lit) s = .next t ∧ Trapped s t (s.fault ILLEGAL)) ∧
    (∀ lit g, s.cc.seg = some g →
      let crc := crcBytes g.crc.toNat (wordBytes (s.rawOf (.sege lit)).toNat ++ engBytes s.cc.segBuf) ^^^ 0xFFFFFFFF
      (s.cyc - g.start + 1 = g.len → crc = lit.toNat →
        ∃ t, exec (.sege lit) s = .next t ∧ Issued s t { s.cc with seg := none } []) ∧
      (s.cyc - g.start + 1 ≠ g.len → ∃ t, exec (.sege lit) s = .next t ∧
        Trapped s t { s.fault SEGLEN with wobj := segIndex s.rr g.pc, wval1 := g.len, wval2 := s.cyc - g.start + 1 }) ∧
      (s.cyc - g.start + 1 = g.len → crc ≠ lit.toNat → ∃ t, exec (.sege lit) s = .next t ∧
        Trapped s t { s.fault SEGSIG with wobj := segIndex s.rr g.pc, wval1 := lit.toNat, wval2 := crc }))

/-- R76, R77: ENDI is the core's arrival at the commit; KEND with no level open is that and the end of the group; with levels open
it first waits to close them, without a bound, which is the model's reading (assumptions 21). -/
def Obligations.InstantsEnd : Prop :=
  ∀ s : State, s.actor = .control → s.inSeg = false →
    (∃ t, exec .endi s = .next t ∧ Issued s t { s.cc with arrived := true, arrCyc := 0 } []) ∧
    (s.cc.levels = [] → ∃ t, exec .kend s = .next t ∧ Issued s t { s.cc with kend := true, arrived := true, arrCyc := 0 } []) ∧
    (s.cc.levels ≠ [] → ∃ t, exec .kend s = .next t ∧
      Issued s t { s.cc with kendPend := true, waits := s.cc.waits ++ [⟨.rend true, s.cyc, none⟩] } [])

/-! ## Scalar memory, atomics, fences and waits (R146 to R165) -/

namespace Sys2Proof.Claim

/-- A load's fields: destination, base, signed offset, size in bytes, and whether it extends the sign (R148). -/
structure LoadWord where
  d : Nat
  a : Nat
  off : Int
  size : Nat
  signed : Bool
  deriving DecidableEq, Repr
/-- The loads, from the table of R148. -/
def loadTable : Instr → Option LoadWord
  | .ldb d a o => some ⟨d.toNat, a.toNat, o.toInt, 1, true⟩
  | .ldbu d a o => some ⟨d.toNat, a.toNat, o.toInt, 1, false⟩
  | .ldh d a o => some ⟨d.toNat, a.toNat, o.toInt, 2, true⟩
  | .ldhu d a o => some ⟨d.toNat, a.toNat, o.toInt, 2, false⟩
  | .ldw d a o => some ⟨d.toNat, a.toNat, o.toInt, 4, true⟩
  | .ldwu d a o => some ⟨d.toNat, a.toNat, o.toInt, 4, false⟩
  | .ldd d a o => some ⟨d.toNat, a.toNat, o.toInt, 8, false⟩
  | _ => none
/-- The stores, from the table of R148: value, base, signed offset, size. -/
def storeTable : Instr → Option (Nat × Nat × Int × Nat)
  | .stb d a o => some (d.toNat, a.toNat, o.toInt, 1)
  | .sth d a o => some (d.toNat, a.toNat, o.toInt, 2)
  | .stw d a o => some (d.toNat, a.toNat, o.toInt, 4)
  | .std d a o => some (d.toNat, a.toNat, o.toInt, 8)
  | _ => none
/-- The atomics, from the tables of R156, R157 and R159: sub, destination, address, operand, size, sources. -/
structure AmoWord where
  sub : Nat
  d : Nat
  a : Nat
  b : Nat
  size : Nat
  srcs : List Nat
  deriving DecidableEq, Repr
def amoTable : Instr → Option AmoWord
  | .aadd d a b => some ⟨0, d.toNat, a.toNat, b.toNat, 8, [a.toNat, b.toNat]⟩
  | .aand d a b => some ⟨1, d.toNat, a.toNat, b.toNat, 8, [a.toNat, b.toNat]⟩
  | .aor d a b => some ⟨2, d.toNat, a.toNat, b.toNat, 8, [a.toNat, b.toNat]⟩
  | .axor d a b => some ⟨3, d.toNat, a.toNat, b.toNat, 8, [a.toNat, b.toNat]⟩
  | .amin d a b => some ⟨4, d.toNat, a.toNat, b.toNat, 8, [a.toNat, b.toNat]⟩
  | .amax d a b => some ⟨5, d.toNat, a.toNat, b.toNat, 8, [a.toNat, b.toNat]⟩
  | .aminu d a b => some ⟨6, d.toNat, a.toNat, b.toNat, 8, [a.toNat, b.toNat]⟩
  | .amaxu d a b => some ⟨7, d.toNat, a.toNat, b.toNat, 8, [a.toNat, b.toNat]⟩
  | .aswap d a b => some ⟨8, d.toNat, a.toNat, b.toNat, 8, [a.toNat, b.toNat]⟩
  | .acas d a b => some ⟨9, d.toNat, a.toNat, b.toNat, 8, [d.toNat, a.toNat, b.toNat]⟩
  | .afadd a b => some ⟨10, 0, a.toNat, b.toNat, 16, [a.toNat, b.toNat]⟩
  | .acell a b => some ⟨11, 0, a.toNat, b.toNat, 16, [a.toNat, b.toNat]⟩
  | .acrd d a => some ⟨12, d.toNat, a.toNat, 0, 16, [a.toNat]⟩
  | .acflg d a b => some ⟨13, d.toNat, a.toNat, b.toNat, 16, [a.toNat, b.toNat]⟩
  | _ => none
/-- The address of a scalar access: s(a) plus the offset in units of the size (R146, R148). -/
def address (s : State) (a : Nat) (off : Int) (size : Nat) : DWord := s.val a + BitVec.ofInt 64 (off * size)
/-- The acting core's entry for an untimed access (R152), and what memory does later: it serves each part of the access, one for
each page (R261), and then lands results. -/
def untimedEntry (s : State) (d : Nat) (tg : Tag) (size : Nat) (signed : Bool) (va : Nat) (parts : List UPart)
    (fwd : List (Nat × Byte × Bool)) (op : Nat) (b cmp : DWord) : Untimed :=
  ⟨s.cc.serial, d, tg, size, signed, va, parts, fwd, op, b, cmp, none, s.cyc, s.cc.fencedAt⟩
def servedLater (s : State) (parts : Nat) : List (Nat × GItem) :=
  (List.range parts).map (fun i => (s.now + 1 + s.free (2 * i) 0, .serve s.cur s.cc.serial i)) ++
    [(s.now + 2 + s.free 0 0 + s.free 1 0, .result s.cur)]
/-- The acting core with the TLB entries used put first (R235). -/
def touched (s : State) (used : List TlbEnt) : Core := { s.cc with tlb := used.foldr touchTlb s.cc.tlb }

end Sys2Proof.Claim

/-- R147 to R152: every load completes. From a scratchpad, own or of the cluster, it samples 2 or 7 cycles after issue and lands
at 4 or 14; a global one joins the core's untimed accesses, and memory serves each of its pages and lands it later (free delays,
assumptions 3), while elastic code holds a seventeenth; no register, flag, tile, special register or byte changes at the issue. A
misaligned scratchpad address raises ALIGN, and in a timed segment a global one TIMING. -/
def Obligations.LoadsIssue : Prop :=
  ∀ (i : Instr) (s : State) (x : LoadWord) (tg : Tag), loadTable i = some x → Sources s [x.a] tg →
    let ad := address s x.a x.off x.size
    (∀ t o far, decodeAddr s.rr s.vidx ad = .sp t o far → o % x.size = 0 → ∃ u, exec i s = .next u ∧ Issued s u s.cc
      [({ s.key (s.cyc + (if far then 7 else 2) * s.mul) 1 with phase := 3 },
        .sample s.cur t o ad.toNat x.size x.signed x.d tg 0 0 0 (s.cyc + (if far then 14 else 4) * s.mul) s.timed)]) ∧
    (∀ t o far, decodeAddr s.rr s.vidx ad = .sp t o far → o % x.size ≠ 0 →
      ∃ u, exec i s = .next u ∧ Trapped s u { s.fault ALIGN with faddr := ad.toNat }) ∧
    (∀ va keys used, decodeAddr s.rr s.vidx ad = .global va → s.inSeg = false → s.cc.untimed.length < 16 →
      s.translate va x.size {} = .ok keys used → ∃ u, exec i s = .next u ∧
        Issued s u { touched s used with
            untimed := s.cc.untimed ++
              [untimedEntry s x.d tg x.size x.signed va (partsOf va keys used) (forwarded s.cc va keys) 0 0 0]
            serial := s.cc.serial + 1 } [] (servedLater s (partsOf va keys used).length) 4) ∧
    (∀ va, decodeAddr s.rr s.vidx ad = .global va → s.inSeg = false → 16 ≤ s.cc.untimed.length →
      ∃ u, exec i s = .next u ∧ Held s u) ∧
    (∀ va, decodeAddr s.rr s.vidx ad = .global va → s.inSeg = true → ∃ u, exec i s = .next u ∧ Trapped s u (s.fault TIMING))

/-- R147 to R153: every store completes. To a scratchpad, own or of the cluster, it is scheduled to write its bytes at the
computed offset 2 or 10 cycles after issue; a global one is staged, with its bytes at the computed address, until the commit;
at the issue every byte of memory and scratchpad is as before. -/
def Obligations.StoresIssue : Prop :=
  ∀ (i : Instr) (s : State) (d a : Nat) (off : Int) (size : Nat) (tg : Tag), storeTable i = some (d, a, off, size) →
    Sources s [d, a] tg →
    let ad := address s a off size
    (∀ t o far, decodeAddr s.rr s.vidx ad = .sp t o far → writeBarred (s.core t) s.cc.mode o size = false → o % size = 0 →
      ∃ u, exec i s = .next u ∧ Issued s u s.cc [(s.key (s.cyc + (if far then 10 else 2) * s.mul) 1,
        .perform s.cur t o (bytesOf (s.val d).toNat size) false)]) ∧
    (∀ t o far, decodeAddr s.rr s.vidx ad = .sp t o far → writeBarred (s.core t) s.cc.mode o size = true →
      ∃ u, exec i s = .next u ∧ Trapped s u { s.fault SCOPE with faddr := ad.toNat }) ∧
    (∀ va keys used, decodeAddr s.rr s.vidx ad = .global va →
      s.translate va size { write := true, locked := s.inSeg } = .ok keys used → stageRoom s.cc = true →
      ∃ u, exec i s = .next u ∧ Issued s u { touched s used with
        staging := s.cc.staging ++ [⟨.store, stBytes va keys (s.val d).toNat, s.cc.levels.length, false⟩] } [])

/-- R156 to R160, R237: every atomic completes. On a scratchpad it acts 2 or 8 cycles after issue and returns at 4 or 14; on a
page with the rights that R232 asks, AFADD and ACELL are staged until the commit, and the others join the untimed accesses;
at the issue no byte changes. -/
def Obligations.AtomicsIssue : Prop :=
  ∀ (i : Instr) (s : State) (x : AmoWord) (tg : Tag), amoTable i = some x → Sources s x.srcs tg →
    (∀ t o far, decodeAddr s.rr s.vidx (s.val x.a) = .sp t o far → writeBarred (s.core t) s.cc.mode o x.size = false →
      o % x.size = 0 → ∃ u, exec i s = .next u ∧ Issued s u s.cc
      [(s.key (s.cyc + (if far then 8 else 2) * s.mul) 1,
        .sample s.cur t o (s.val x.a).toNat x.size false x.d tg (x.sub + 1) (s.val x.b) (s.val x.d) (s.cyc + (if far then 14 else 4) * s.mul) s.timed)]) ∧
    (∀ va keys e, decodeAddr s.rr s.vidx (s.val x.a) = .global va → x.sub ≠ 10 → x.sub ≠ 11 → s.inSeg = false →
      s.cc.untimed.length < 16 → va % (if x.size = 16 then 16 else 4) = 0 →
      s.translate va x.size { write := true, cell := decide (10 ≤ x.sub), amo := some x.sub } = .ok keys [e] →
      ∃ u, exec i s = .next u ∧ Issued s u { touched s [e] with
          untimed := s.cc.untimed ++
            [untimedEntry s x.d tg x.size false va (partsOf va keys [e]) [] (x.sub + 1) (s.val x.b) (s.val x.d)]
          serial := s.cc.serial + 1 } [] (servedLater s 1) 4) ∧
    (∀ va keys e, decodeAddr s.rr s.vidx (s.val x.a) = .global va → (x.sub = 10 ∨ x.sub = 11) → va % 16 = 0 →
      s.translate va 16 { write := true, locked := s.inSeg, cell := true, amo := some x.sub } = .ok keys [e] →
      stageRoom s.cc = true → ∃ u, exec i s = .next u ∧ Issued s u { touched s [e] with
        staging := s.cc.staging ++ [⟨if x.sub = 10 then .afadd (BitVec.ofNat 32 (s.val x.b).toNat) else .acell,
          stBytes va keys (if x.sub = 10 then 0 else cellNew (s.val x.b)), s.cc.levels.length, false⟩] } [])

/-- R155, R162 to R165: LWAIT and QWAIT issue at once where nothing is awaited and otherwise hold the stream to issue + 2^lim at
most; MWAIT holds it so; a fence holds it, without a bound, while an untimed access is outstanding; FENCE.REL, FENCE.FULL and
FENCE.ALIAS mark the staging buffer, and FENCE.ALIAS makes forwarding match by physical address. -/
def Sys2Proof.Claim.FencesAndWaitsHoldTheStream : Prop :=
  ∀ s : State, s.actor = .control → s.inSeg = false →
    let held := fun (c : Core) (k : WaitKind) (due : Option Nat) => { c with waits := c.waits ++ [⟨k, s.cyc, due⟩] }
    let marked := { s.cc with staging := s.cc.staging ++ [⟨.mark, [], s.cc.levels.length, false⟩] }
    let fence := fun (c : Core) => if s.cc.untimed = [] then c else held c .fence none
    (∀ d l, (s.cc.untimed.filter fun u => d.toNat = 0 ∨ u.d = d.toNat) = [] →
      ∃ t, exec (.lwait d l) s = .next t ∧ Issued s t s.cc []) ∧
    (∀ d l, (s.cc.untimed.filter fun u => d.toNat = 0 ∨ u.d = d.toNat) ≠ [] →
      ∃ t, exec (.lwait d l) s = .next t ∧ Issued s t (held s.cc (.lwait d.toNat) (some (s.cyc + 2 ^ l.toNat))) []) ∧
    (∃ t, exec .fenceAcq s = .next t ∧ Issued s t (fence s.cc) []) ∧
    (∃ t, exec .fenceRel s = .next t ∧ Issued s t (fence marked) []) ∧
    (∃ t, exec .fenceFull s = .next t ∧ Issued s t (fence marked) []) ∧
    (∃ t, exec .fenceAlias s = .next t ∧ Issued s t (fence { marked with aliased := true }) []) ∧
    (∀ d a b l tg t o far, Sources s [a.toNat, b.toNat] tg → decodeAddr s.rr s.vidx (s.val a.toNat) = .sp t o far → o % 8 = 0 →
      ∃ u, exec (.mwait d a b l) s = .next u ∧
        Issued s u (held s.cc (.mwait d.toNat (s.val a.toNat).toNat (s.val b.toNat) tg [] 0) (some (s.cyc + 2 ^ l.toNat))) []) ∧
    (∀ d a b l tg va keys used, Sources s [a.toNat, b.toNat] tg → decodeAddr s.rr s.vidx (s.val a.toNat) = .global va →
      va % 8 = 0 → s.translate va 8 {} = .ok keys used → ∃ u, exec (.mwait d a b l) s = .next u ∧
        Issued s u (held (touched s used) (.mwait d.toNat (s.val a.toNat).toNat (s.val b.toNat) tg keys
          (pteOrd (((used.head?.map TlbEnt.pte).getD 0).toNat)))
          (some (s.cyc + 2 ^ l.toNat))) [])

/-- R155, R161, R164: QWAIT of a channel whose writer has no earlier instant left issues at once and frees this start of it; another
holds the stream to issue + 2^lim at most; a region that is not the channel's reader raises ILLEGAL. The condition of QWAIT is
the model's reading (assumptions 30). -/
def Sys2Proof.Claim.ChannelWaitsHoldTheStream : Prop :=
  ∀ (s : State) (a : BitVec 6) (l : BitVec 5), s.actor = .control → maySteer s a.toNat → s.inSeg = false →
    let ch := (s.val a.toNat).toNat % 256
    (s.readsCh ch = true → s.qwaitMet s.ctx ch = false → ∃ t, exec (.qwait a l) s = .next t ∧
      Issued s t { s.cc with waits := s.cc.waits ++ [⟨.qwait ch, s.cyc, some (s.cyc + 2 ^ l.toNat)⟩] } []) ∧
    (s.readsCh ch = true → s.qwaitMet s.ctx ch = true → ∃ t, exec (.qwait a l) s = .next t ∧
      (t.region s.ctx).qwaited = ch :: s.rr.qwaited ∧ t.cc = s.cc.streamed t.cc ∧ t.mem = s.mem ∧
      ∀ id, id ≠ s.cur → t.core id = s.core id) ∧
    (s.readsCh ch = false → ∃ t, exec (.qwait a l) s = .next t ∧ Trapped s t (s.fault ILLEGAL))

/-- Fences and wait words hold the stream: FencesAndWaitsHoldTheStream, ChannelWaitsHoldTheStream hold. -/
def Obligations.WaitWordsHoldTheStream : Prop :=
  Claim.FencesAndWaitsHoldTheStream ∧ Claim.ChannelWaitsHoldTheStream

/-! ## Streams and clocks (R80 to R90) -/

namespace Sys2Proof.Claim

/-- A clock definition that takes effect from the next cycle (R14). -/
def fromNext (s : State) (l : List CAct) : Key × Item := (s.key (s.cyc + 1) 0, .land s.cur l)
/-- The state of a clock: defined, and present in this instant (R14). -/
def isDefined (s : State) (k : Tag) : Prop := (s.cc.clock k.toNat).defined = true
def isPresent (s : State) (k : Tag) : Prop := isDefined s k ∧ (s.cc.clock k.toNat).present = true
/-- A source tag that a word on clock k takes: k0 or k itself, and defined (R81, R86, R88). -/
def fits (s : State) (tg k : Tag) : Prop := isDefined s tg ∧ (tg = 0 ∨ tg = k)
/-- The clock of the source that WHEN k reads: k's parent, and k1 for k1 itself (R83). -/
def sourceClock (s : State) (k : Tag) : Tag := if k = 1 then 1 else (s.cc.clock k.toNat).parent
/-- MERGE k may take a source with tag a and an old value with tag d (R84). -/
def merges (s : State) (a d k : Tag) : Prop :=
  2 ≤ k.toNat ∧ isDefined s k ∧ (s.cc.clock k.toNat).pv = true ∧ fits s a k ∧ isDefined s d ∧
    (d = 0 ∨ d = (s.cc.clock k.toNat).partner ∨ d = (s.cc.clock k.toNat).parent)
/-- The rows of tile a, as they stand, land in tile d from +2 to +17, sidecar and tag at +2 (R85). -/
def tileMoves (s : State) (d a : Nat) (tg : Tag) : List (Key × Item) :=
  landing s 2 0 [.side d (s.cc.side a) 0, .tileTag d tg] :: (List.range 16).map fun i => landing s (2 + i) 0 [.row d i (s.cc.row a i) 0]
/-- A clean tile whose coupled bit is full, and one that may be written (R12, R321). -/
def readable (s : State) (t : Nat) : Prop := (s.cc.coupling t = 0 ∨ s.cc.tfull t = true) ∧ s.cc.tileErr t = false
def writable (s : State) (t : Nat) : Prop := s.cc.coupling t = 0 ∨ s.cc.tfull t = false

end Sys2Proof.Claim

/-- R14, R81, R82: CKDEF and CKNEG define their clock from the next cycle: a stream present where its parent is and the chosen bit
is 1, or where the parent is and the partner is not; k0 and k1 raise ILLEGAL, a clock already defined CLOCK. That they land at issue + 1
whatever the control core's divisor is the model's reading (assumptions 53). -/
def Sys2Proof.Claim.ClocksAreDefined : Prop :=
  ∀ (s : State) (n : BitVec 6) (a : BitVec 7) (k x : BitVec 4), s.actor = .control →
    (x.toNat < 2 → ∃ t, exec (.ckdef n a k x) s = .next t ∧ Trapped s t (s.fault ILLEGAL)) ∧
    (x.toNat < 2 ∨ k.toNat < 2 → ∃ t, exec (.ckneg k x) s = .next t ∧ Trapped s t (s.fault ILLEGAL)) ∧
    (2 ≤ x.toNat → isDefined s x → ∃ t, exec (.ckdef n a k x) s = .next t ∧ Trapped s t (s.fault CLOCK)) ∧
    (2 ≤ x.toNat → 2 ≤ k.toNat → isDefined s x → ∃ t, exec (.ckneg k x) s = .next t ∧ Trapped s t (s.fault CLOCK)) ∧
    (2 ≤ x.toNat → isDefined s k → ¬ isDefined s x → fits s (s.tag a.toNat) k → s.bad a.toNat = false →
      ∃ t, exec (.ckdef n a k x) s = .next t ∧ Issued s t s.cc [fromNext s [.clock x.toNat
        ⟨true, (s.cc.clock k.toNat).present && (s.val a.toNat).getLsbD n.toNat, k, 0, false, false⟩]]) ∧
    (2 ≤ x.toNat → 2 ≤ k.toNat → isDefined s k → ¬ isDefined s x → (s.cc.clock k.toNat).neg = false →
      (s.cc.clock k.toNat).pv = false → ∃ t, exec (.ckneg k x) s = .next t ∧
        let q := s.cc.clock k.toNat
        Issued s t s.cc [fromNext s
          [.clock x.toNat ⟨true, (s.cc.clock q.parent.toNat).defined && (s.cc.clock q.parent.toNat).present && !q.present, q.parent, k, true, true⟩,
           .clock k.toNat { q with partner := x, pv := true }]])

/-- R83, R84, R54: WHEN moves a value of the parent's clock to clock k where k is present, and MERGE joins k's value or the old one
on k's parent; each lands at +1; where WHEN's clock, or the parent of MERGE's, is absent nothing lands; a tag that does not fit
raises CLOCK, and WHEN k0 and MERGE k0 or k1 raise ILLEGAL. -/
def Obligations.ValuesChangeTheirClock : Prop :=
  ∀ (s : State) (d a : BitVec 7) (k : BitVec 4), s.actor = .control →
    (k ≠ 0 → isPresent s k → fits s (s.tag a.toNat) (sourceClock s k) → s.bad a.toNat = false →
      ∃ t, exec (.when d a k) s = .next t ∧ Issued s t s.cc [landing s 1 0 [.reg d.toNat (s.val a.toNat) k false]]) ∧
    (k ≠ 0 → isDefined s k → ¬ isPresent s k → fits s (s.tag a.toNat) (sourceClock s k) →
      ∃ t, exec (.when d a k) s = .next t ∧ Issued s t s.cc []) ∧
    (k ≠ 0 → ¬ fits s (s.tag a.toNat) (sourceClock s k) → ∃ t, exec (.when d a k) s = .next t ∧ Trapped s t (s.fault CLOCK)) ∧
    (merges s (s.tag a.toNat) (s.tag d.toNat) k → isPresent s (s.cc.clock k.toNat).parent →
      (s.bad a.toNat = false ∧ s.bad d.toNat = false) → ∃ t, exec (.merge d a k) s = .next t ∧
        Issued s t s.cc [landing s 1 0 [.reg d.toNat
          (if (s.cc.clock k.toNat).present then s.val a.toNat else s.val d.toNat) (s.cc.clock k.toNat).parent false]]) ∧
    (merges s (s.tag a.toNat) (s.tag d.toNat) k → ¬ isPresent s (s.cc.clock k.toNat).parent →
      ∃ t, exec (.merge d a k) s = .next t ∧ Issued s t s.cc []) ∧
    (2 ≤ k.toNat → ¬ merges s (s.tag a.toNat) (s.tag d.toNat) k →
      ∃ t, exec (.merge d a k) s = .next t ∧ Trapped s t (s.fault CLOCK)) ∧
    (k = 0 → ∃ t, exec (.when d a k) s = .next t ∧ Trapped s t (s.fault ILLEGAL)) ∧
    (k.toNat < 2 → ∃ t, exec (.merge d a k) s = .next t ∧ Trapped s t (s.fault ILLEGAL))

/-- R85, R12, R33: WHEN.T copies tile a with its sidecar onto clock k where k is present, and MERGE.T tile a onto k's parent where k is
present, and otherwise only moves tile d to that clock; rows land from +2 to +17, and a coupled tile only written goes full at
+17. A source tile that is not full, and a tile only written that is not empty, holds an elastic bundle before its tags are tested,
and raises SCHED with cause 6 in a timed segment after them. With WHEN.T's clock or the parent of MERGE.T's absent no tile is tested
and nothing lands; tags that do not fit raise CLOCK. The model's choices: CLOCK before SCHED in a timed segment (assumptions 51), SCHED naming
tA where both tests fail (assumptions 66), the hold of a MERGE.T on an undefined clock, whose parent reads k0, and CLOCK at once for such a
WHEN.T (assumptions 28). -/
def Obligations.TilesChangeTheirClock : Prop :=
  ∀ (s : State) (d a : BitVec 7) (k : BitVec 4), s.actor = .control →
    let full := fun t => s.cc.coupling t = 0 ∨ s.cc.tfull t = true
    let late := fun t => { s.fault SCHED with wobj := 6, wval1 := s.cyc, wval2 := t }
    (k ≠ 0 → isPresent s k → fits s (s.cc.ttag a.toNat) (sourceClock s k) → readable s a.toNat → d = a ∨ writable s d.toNat →
      ∃ t, exec (.whenT d a k) s = .next t ∧ Issued s t s.cc (tileMoves s d.toNat a.toNat k ++
        if s.cc.coupling d.toNat = 0 ∨ d = a then [] else [(s.key (s.cyc + 17 * s.mul) 0, .full s.cur d.toNat true)])) ∧
    (merges s (s.cc.ttag a.toNat) (s.cc.ttag d.toNat) k → isPresent s (s.cc.clock k.toNat).parent → readable s a.toNat →
      readable s d.toNat → ∃ t, exec (.mergeT d a k) s = .next t ∧ Issued s t s.cc
        (if (s.cc.clock k.toNat).present then tileMoves s d.toNat a.toNat (s.cc.clock k.toNat).parent
         else [landing s 2 0 [.tileTag d.toNat (s.cc.clock k.toNat).parent]])) ∧
    (isPresent s k → ¬ (full a.toNat ∧ (d = a ∨ writable s d.toNat)) → s.inSeg = false →
      ∃ t, exec (.whenT d a k) s = .next t ∧ Held s t) ∧
    (isPresent s (s.cc.clock k.toNat).parent → ¬ (full a.toNat ∧ full d.toNat) → s.inSeg = false →
      ∃ t, exec (.mergeT d a k) s = .next t ∧ Held s t) ∧
    (k ≠ 0 → isPresent s k → fits s (s.cc.ttag a.toNat) (sourceClock s k) → s.inSeg = true →
      (¬ full a.toNat → ∃ t, exec (.whenT d a k) s = .next t ∧ Trapped s t (late a.toNat)) ∧
      (full a.toNat → ¬ (d = a ∨ writable s d.toNat) → ∃ t, exec (.whenT d a k) s = .next t ∧ Trapped s t (late d.toNat))) ∧
    (merges s (s.cc.ttag a.toNat) (s.cc.ttag d.toNat) k → isPresent s (s.cc.clock k.toNat).parent → s.inSeg = true →
      (¬ full a.toNat → ∃ t, exec (.mergeT d a k) s = .next t ∧ Trapped s t (late a.toNat)) ∧
      (full a.toNat → ¬ full d.toNat → ∃ t, exec (.mergeT d a k) s = .next t ∧ Trapped s t (late d.toNat))) ∧
    (k ≠ 0 → isDefined s k → ¬ isPresent s k → fits s (s.cc.ttag a.toNat) (sourceClock s k) →
      ∃ t, exec (.whenT d a k) s = .next t ∧ Issued s t s.cc []) ∧
    (merges s (s.cc.ttag a.toNat) (s.cc.ttag d.toNat) k → ¬ isPresent s (s.cc.clock k.toNat).parent →
      ∃ t, exec (.mergeT d a k) s = .next t ∧ Issued s t s.cc []) ∧
    (k ≠ 0 → ¬ (isDefined s k ∧ fits s (s.cc.ttag a.toNat) (sourceClock s k)) →
      s.inSeg = true ∨ ¬ isPresent s k ∨ (full a.toNat ∧ (d = a ∨ writable s d.toNat)) →
      ∃ t, exec (.whenT d a k) s = .next t ∧ Trapped s t (s.fault CLOCK)) ∧
    (2 ≤ k.toNat → ¬ merges s (s.cc.ttag a.toNat) (s.cc.ttag d.toNat) k →
      s.inSeg = true ∨ ¬ isPresent s (s.cc.clock k.toNat).parent ∨ (full a.toNat ∧ full d.toNat) →
      ∃ t, exec (.mergeT d a k) s = .next t ∧ Trapped s t (s.fault CLOCK))

/-- R86 to R89: DLYI gives a delay register its first value and clock, DLYW stages its next value where its clock is present, DLYR
reads the committed one with that clock's tag, and CKTST and CKSTAT read the state of a clock with tag k1; each lands one cycle of the
control core's unit later, which is the model's reading of +1 (assumptions 53). -/
def Sys2Proof.Claim.DelaysAndClockReadsLand : Prop :=
  ∀ (s : State) (d a : BitVec 7) (k x : BitVec 4), s.actor = .control →
    let y := SMap.get {} s.cc.delays x.toNat
    let q := s.cc.clock k.toNat
    (fits s (s.tag a.toNat) k → s.bad a.toNat = false → ∃ t, exec (.dlyi a k x) s = .next t ∧
      Issued s t s.cc [landing s 1 0 [.delayInit x.toNat (s.val a.toNat) k]]) ∧
    (isPresent s y.clk → ∃ t, exec (.dlyr d x) s = .next t ∧
      Issued s t s.cc [landing s 1 0 [.reg d.toNat y.committed y.clk false]]) ∧
    (isPresent s y.clk → fits s (s.tag a.toNat) y.clk → s.bad a.toNat = false → ∃ t, exec (.dlyw a x) s = .next t ∧
      Issued s t s.cc [landing s 1 0 [.delayStage x.toNat (s.val a.toNat)]]) ∧
    (¬ isDefined s y.clk → ∃ t, exec (.dlyr d x) s = .next t ∧ Trapped s t (s.fault CLOCK)) ∧
    (∃ t, exec (.cktst d k) s = .next t ∧ Issued s t s.cc [landing s 1 0 [.reg d.toNat
      ((if q.defined && q.present then 1 else 0) + if q.defined then 2 else 0) 1 false]]) ∧
    (∃ t, exec (.ckstat d k) s = .next t ∧ Issued s t s.cc [landing s 1 0 [.reg d.toNat
      (if q.defined then BitVec.ofNat 64 (1 + (if q.present then 2 else 0) + 4 * q.parent.toNat + (if q.pv then 64 else 0) +
        (if q.pv then 128 * q.partner.toNat else 0) + if q.neg then 2048 else 0) else 0) 1 false]])

/-- Clock and delay words land: ClocksAreDefined, DelaysAndClockReadsLand hold. -/
def Obligations.ClockWordsLand : Prop :=
  Claim.ClocksAreDefined ∧ Claim.DelaysAndClockReadsLand

/-! ## Recovery (R205 to R211, R224, R225) -/

namespace Sys2Proof.Claim

/-- A wait that ends by the release of a rendezvous, or expires 2^l cycles after its issue (R161, R206, R208). -/
def rendezvousWait (s : State) (k : WaitKind) (l : Nat) : Core := { s.cc with waits := s.cc.waits ++ [⟨k, s.cyc, some (s.cyc + 2 ^ l)⟩] }
/-- The items from a to b not preserved at the innermost level yet (R207). -/
def unpreserved (s : State) (kind : Nat) (items : List Nat) : List Nat := items.filter fun n => !s.cc.preserved s.cc.levels.length kind n
/-- The updates that put one record after another into the arena, one for each run of items: header, payload, and its entry
(R207, R224, R225). -/
def recordsPlaced (s : State) (kind : Nat) : Nat → List (Nat × Nat) → List CAct
  | _, [] => []
  | top, (a, b) :: rs =>
    let lv := s.cc.levels.length
    let n := b - a + 1
    let len := n * (if kind = 1 then 16 else if kind = 2 then 4368 else 2048)
    let size := 64 + (len + 63) / 64 * 64
    let first := if kind = 3 then (2 ^ n - 1) * 2 ^ a else a
    let last := if kind = 3 then 0 else b
    let off := s.cc.arena.1 + top
    [.spad off (undoHeader kind lv len first last s.cyc ++ payloadOf s.cc kind ((List.range n).map (a + ·))), .spadBad off size false,
     .undoPush ⟨lv, kind, first, last, off, len⟩ (top + size)] ++ recordsPlaced s kind (top + size) rs
/-- The arena's bytes that the records of these runs take (R224). -/
def recordsSize (kind : Nat) (runs : List (Nat × Nat)) : Nat :=
  (runs.map fun r => 64 + ((r.2 - r.1 + 1) * (if kind = 1 then 16 else if kind = 2 then 4368 else 2048) + 63) / 64 * 64).sum
/-- A word of RPRESV with its kind, the items it names, and the one that carries an error (R207). -/
def preserveTable (s : State) : Instr → Option (Nat × List Nat × (Nat → Bool))
  | .rpresvS f l => some (1, (List.range (l.toNat + 1 - f.toNat)).map (f.toNat + ·), s.bad)
  | .rpresvT f l => some (2, (List.range (l.toNat + 1 - f.toNat)).map (f.toNat + ·), s.cc.tileErr)
  | .rpresvC m => some (3, (List.range 8).filter fun k => m.getLsbD k, fun k => s.cc.accErr k (List.range 256))
  | _ => none

end Sys2Proof.Claim

/-- R206, R208, R224, R205: RBEGIN and REND hold the stream as this core's arrival at their rendezvous; at four levels RBEGIN raises
RDEPTH, an outermost one whose arena passes offset 0x4_FDFF or overlaps a tensor map SCOPE (R224), and with no level open REND
raises ILLEGAL; in a timed segment both raise TIMING. -/
def Sys2Proof.Claim.RendezvousWordsWait : Prop :=
  ∀ (s : State) (l : BitVec 5), s.actor = .control →
    (s.inSeg = true → (∃ t, exec (.rbegin l) s = .next t ∧ Trapped s t (s.fault TIMING)) ∧
      ∃ t, exec (.rend l) s = .next t ∧ Trapped s t (s.fault TIMING)) ∧
    (s.inSeg = false →
    (s.cc.levels.length < 4 → ¬ (s.cc.levels = [] ∧ arenaBarred s = true) → ∃ t, exec (.rbegin l) s = .next t ∧
      Issued s t (rendezvousWait s (.rbegin true) l.toNat) []) ∧
    (4 ≤ s.cc.levels.length → ∃ t, exec (.rbegin l) s = .next t ∧ Trapped s t (s.fault RDEPTH)) ∧
    (s.cc.levels = [] → arenaBarred s = true → ∃ t, exec (.rbegin l) s = .next t ∧
      Trapped s t { s.fault SCOPE with faddr := 0x80 * 2 ^ 56 + s.cc.arena.1 }) ∧
    (s.cc.levels ≠ [] → ∃ t, exec (.rend l) s = .next t ∧ Issued s t (rendezvousWait s (.rend true) l.toNat) []) ∧
    (s.cc.levels = [] → ∃ t, exec (.rend l) s = .next t ∧ Trapped s t (s.fault ILLEGAL)))

/-- R207, R224, R225, R321: RPRESV.S, .T and .C put the items that the innermost level does not preserve yet into the arena, one record
for each run of them; where they do not all fit UNDOOVF is raised and nothing is placed; where one of them carries an uncorrectable
error UECC is raised; with no level open, ILLEGAL. -/
def Sys2Proof.Claim.PreservingPlacesRecords : Prop :=
  ∀ (s : State) (i : Instr) (kind : Nat) (items : List Nat) (bad : Nat → Bool), s.actor = .control →
    preserveTable s i = some (kind, items, bad) →
    let runs := runsOf (unpreserved s kind items)
    (s.cc.levels ≠ [] → (unpreserved s kind items).any bad = false → s.cc.undoTop + recordsSize kind runs ≤ s.cc.arena.2 →
      ∃ t, exec i s = .next t ∧ Issued s t ((recordsPlaced s kind s.cc.undoTop runs).foldl CAct.apply s.cc) []) ∧
    (s.cc.levels ≠ [] → (unpreserved s kind items).any bad = false → runs ≠ [] → s.cc.arena.2 < s.cc.undoTop + recordsSize kind runs →
      ∃ t f, exec i s = .next t ∧ Trapped s t f ∧ f.code = UNDOOVF ∧ f.wobj = s.cc.levels.length ∧ f.core = s.cur) ∧
    (s.cc.levels ≠ [] → (unpreserved s kind items).any bad = true → ∃ t, exec i s = .next t ∧ Trapped s t (s.fault UECC)) ∧
    (s.cc.levels = [] → ∃ t, exec i s = .next t ∧ Trapped s t (s.fault ILLEGAL))

/-- R207: RPRESV.M records a scratchpad range at the innermost level, to be captured line by line at its first writes; an address
out of the local window raises SCOPE, a misaligned range ALIGN, one past the scratchpad SCOPE, a ninth range of the level ILLEGAL,
and one whose header does not fit UNDOOVF, in this order, which is the model's reading (assumptions 39). -/
def Sys2Proof.Claim.PreservedRangesAreRecorded : Prop :=
  ∀ (s : State) (a b : BitVec 6), s.actor = .control → s.cc.levels ≠ [] → s.bad a.toNat = false → s.bad b.toNat = false →
    let off := (s.val a.toNat).toNat % 2 ^ 56
    let n := (s.val b.toNat).toNat
    let lv := s.cc.levels.length
    let place := s.cc.arena.1 + s.cc.undoTop
    ((s.val a.toNat).toNat / 2 ^ 56 ≠ 0x80 ∨ 0x50000 ≤ off → ∃ t, exec (.rpresvM a b) s = .next t ∧
      Trapped s t { s.fault SCOPE with faddr := (s.val a.toNat).toNat }) ∧
    ((s.val a.toNat).toNat / 2 ^ 56 = 0x80 → off < 0x50000 →
    (off % 64 = 0 → n % 64 = 0 → off + n ≤ 0x50000 → (s.cc.undo.filter fun r => r.kind = 4 ∧ r.level = lv).length < 8 →
      s.cc.undoTop + 64 ≤ s.cc.arena.2 → ∃ t, exec (.rpresvM a b) s = .next t ∧
        Issued s t ([CAct.spad place (undoHeader 4 lv 0 off n s.cyc), .spadBad place 64 false,
          .undoPush ⟨lv, 4, off, n, place, 0⟩ (s.cc.undoTop + 64)].foldl CAct.apply s.cc) []) ∧
    (off % 64 ≠ 0 ∨ n % 64 ≠ 0 → ∃ t, exec (.rpresvM a b) s = .next t ∧
      Trapped s t { s.fault ALIGN with faddr := (s.val a.toNat).toNat }) ∧
    (off % 64 = 0 → n % 64 = 0 → 0x50000 < off + n → ∃ t, exec (.rpresvM a b) s = .next t ∧
      Trapped s t { s.fault SCOPE with faddr := (s.val a.toNat).toNat }) ∧
    (off % 64 = 0 → n % 64 = 0 → off + n ≤ 0x50000 → 8 ≤ (s.cc.undo.filter fun r => r.kind = 4 ∧ r.level = lv).length →
      ∃ t, exec (.rpresvM a b) s = .next t ∧ Trapped s t (s.fault ILLEGAL)) ∧
    (off % 64 = 0 → n % 64 = 0 → off + n ≤ 0x50000 → (s.cc.undo.filter fun r => r.kind = 4 ∧ r.level = lv).length < 8 →
      s.cc.arena.2 < s.cc.undoTop + 64 → ∃ t, exec (.rpresvM a b) s = .next t ∧
        Trapped s t { s.fault UNDOOVF with wobj := lv, wval1 := 64, wval2 := s.cc.arena.2 - s.cc.undoTop }))

/-- Preserving words place records: PreservingPlacesRecords, PreservedRangesAreRecorded hold. -/
def Obligations.PreservingWordsIssue : Prop :=
  Claim.PreservingPlacesRecords ∧ Claim.PreservedRangesAreRecorded

/-- R209, R210, R211, R311: RPOL sets a retry limit at +1, SAFEPT names the safe point of this instant, and RABORT raises its event, code
0x15 with INFO 0xFFFF, which starts the freeze of the region, while its stream goes on (assumptions 15). That RPOL is the acting
core's is the model's reading (assumptions 26). -/
def Sys2Proof.Claim.LimitsSafePointsAndAborts : Prop :=
  ∀ s : State, s.actor = .control →
    (∀ a, maySteer s a.toNat → ∃ t, exec (.rpol a) s = .next t ∧
      Issued s t s.cc [(s.key (s.cyc + 1 * s.mul) 0, .rpol s.cur ((s.val a.toNat).toNat % 8))]) ∧
    (∀ i, s.inSeg = false → i.toNat < s.rr.live.length → ∃ t, exec (.safept i) s = .next t ∧
      Issued s t { s.cc with safept := some i.toNat } []) ∧
    (∀ i, s.rr.live.length ≤ i.toNat → ∃ t, exec (.safept i) s = .next t ∧ Trapped s t (s.fault ILLEGAL)) ∧
    (s.cc.levels ≠ [] → ∃ t, exec .rabort s = .next t ∧ t.cc = s.cc.streamed t.cc ∧
      t.region s.ctx = RAct.apply s s.rr (.raise { s.fault SWTRAP with info := 0xFFFF }) ∧
      (∀ id, id ≠ s.cur → t.core id = s.core id) ∧ ∀ key, t.byte key = s.byte key) ∧
    (s.cc.levels = [] → ∃ t, exec .rabort s = .next t ∧ Trapped s t (s.fault ILLEGAL))

/-- Recovery words issue: RendezvousWordsWait, LimitsSafePointsAndAborts hold. -/
def Obligations.RecoveryWordsIssue : Prop :=
  Claim.RendezvousWordsWait ∧ Claim.LimitsSafePointsAndAborts

namespace Sys2Proof.Claim

/-- A core that opens a level, from core c in region r: its open snapshot, the address after the bundle that it issued last, its step
counters, and the limit it set last (R206, R210, R313). -/
def opened (r : Region) (c : Core) : Core :=
  { c with
    levels := { restart := c.issPc + bundleLen r.code c.issPc, stepMx := c.mx.step, stepVx := c.vx.step, stepCp := c.cp.step, top := c.undoTop, retries := 0
                limit := c.pendLimit
                snap := { sOpen := r.cyc - r.ibase, instant := r.instant, clocks := c.clocks, preds := c.preds, delays := c.delays
                          loops := c.loops, tokens := c.tokens, bars := c.bars, btPhase := c.btPhase } } :: c.levels
    waits := c.waits.filter fun w => w.kind ≠ .rbegin true
    nextAt := max c.nextAt r.cyc }

end Sys2Proof.Claim

/-- R206, R210, R313: RECOVERY_REGION_OPEN puts every core of the region whose group goes on one level deeper, with the open snapshot
of R313 and its own pending limit (the model's reading, assumptions 26), and its next bundle issues now; no other core, no other
region and no byte of memory changes, and of the region only its pending release. -/
def Sys2Proof.Claim.LevelsOpen : Prop :=
  ∀ s : State, ∃ t, exec .recoveryRegionOpen s = .next t ∧ t.mem = s.mem ∧ t.region s.ctx = { s.rr with rdvDue := none } ∧
    (∀ ctx, ctx ≠ s.ctx → t.region ctx = s.region ctx) ∧
    (∀ id ∈ s.live s.rr, t.core id = opened s.rr (s.core id)) ∧ (∀ id, id ∉ s.live s.rr → t.core id = s.core id)

/-- R208, R77: RECOVERY_REGION_CLOSE closes the innermost level of every core of the region whose group goes on; at the outermost
level no record stays and no staged write is held; a core that performs KEND with one level open then ends its group (that KEND
closes its levels one after another is the model's reading, assumptions 21). No other core and no byte of memory changes. -/
def Sys2Proof.Claim.LevelsClose : Prop :=
  ∀ s : State, ∃ t, exec .recoveryRegionClose s = .next t ∧ t.mem = s.mem ∧ (t.region s.ctx).rdvDue = none ∧
    (∀ id ∈ s.live s.rr, (t.core id).levels = (s.core id).levels.drop 1 ∧
      ((s.core id).levels.length = 1 → (t.core id).undo = [] ∧ (∀ e ∈ (t.core id).staging, e.level ≠ 1) ∧
        ((s.core id).kendPend = true → (t.core id).kend = true ∧ (t.core id).arrived = true)) ∧
      ((s.core id).kendPend = false → (t.core id).nextAt = max (s.core id).nextAt s.cyc)) ∧
    (∀ id, id ∉ s.live s.rr → t.core id = s.core id)

/-- Recovery levels open and close: LevelsOpen, LevelsClose hold. -/
def Obligations.LevelsOpenAndClose : Prop :=
  Claim.LevelsOpen ∧ Claim.LevelsClose

/-! ## System (R204, R212 to R219, R312, R335 to R340) -/

namespace Sys2Proof.Claim

/-- From s to t nothing changed but core id, which became c; and nothing but region ctx, which became r. -/
structure OnlyCore (s t : State) (id : Nat) (c : Core) : Prop where
  rest : t = { s with cores := t.cores }
  core : t.core id = c
  others : ∀ x, x ≠ id → t.core x = s.core x
structure OnlyRegion (s t : State) (ctx : Nat) (r : Region) : Prop where
  rest : t = { s with regions := t.regions }
  region : t.region ctx = r
  others : ∀ x, x ≠ ctx → t.region x = s.region x
/-- The value of each CSR that the map of R215 lists, at the acting core. -/
def csrValue (s : State) (n : Nat) : Option Nat :=
  let r := s.rr
  match n with
  | 0x000 => some r.cyc
  | 0x001 => some r.ibase
  | 0x002 => some r.instant
  | 0x003 => some (s.dtAcc / 1000000)
  | 0x012 => some r.fidmax
  | 0x020 => some (s.cur % 2048 % r.w)
  | 0x021 => some (s.cur % 2048 / r.w)
  | 0x022 => some ((if 24 ≤ r.x0 + s.cur % 2048 % r.w then 1 else 0) + if 16 ≤ r.y0 + s.cur % 2048 / r.w then 2 else 0)
  | 0x023 => some ((r.y0 + s.cur % 2048 / r.w) % 4 * 4 + (r.x0 + s.cur % 2048 % r.w) % 4)
  | 0x030 => some (if r.ps then 1 else 0)
  | 0x031 => some (SMap.get {} s.clusters ((r.y0 + s.cur % 2048 / r.w) / 4 * 12 + (r.x0 + s.cur % 2048 % r.w) / 4)).thrrsn.toNat
  | 0x032 => some (r.energy % 4294967296)
  | 0x033 => some s.cc.enhi.toNat
  | 0x034 => some r.quota
  | 0x035 => some 0
  | 0x036 => some r.quant
  | 0x053 => some r.treca
  | 0x060 => some s.cc.levels.length
  | 0x061 => some ((s.cc.levels.head?.map fun l => l.limit * 16 + l.retries).getD 0)
  | n =>
    if n ∈ [0x010, 0x011, 0x013, 0x014, 0x015, 0x016, 0x017, 0x018, 0x019, 0x01A, 0x01B, 0x01C, 0x024, 0x050, 0x051, 0x052, 0x054,
      0x062, 0x070] then some (s.cc.csr n).toNat
    else if 0x100 ≤ n ∧ n ≤ 0x17F then some (SMap.get 0 s.cc.hist (n - 0x100)).toNat
    else none
/-- Every access needs system mode, or every write does (R215). -/
def systemCsr (n : Nat) : Prop := n ∈ [0x050, 0x051, 0x052, 0x053, 0x054, 0x070]
def systemWriteCsr (n : Nat) : Prop := systemCsr n ∨ n = 0x034 ∨ n = 0x036
/-- The RW bits of the CSRs that a core holds, but for UNDOA (R215). -/
def rwBits : List (Nat × Nat) :=
  [(0x010, 0xF), (0x011, 7), (0x013, 3), (0x014, 0xFFFFFFFF), (0x015, 0xFFFFFFFF), (0x016, 0xFFFFFFFF), (0x017, 0xFFFFFFFF),
   (0x018, 0xFFFF), (0x019, 0xFFFFFFFFFFFFFFFF), (0x01A, 0xFFFFFFFFFFFFFFFF), (0x01B, 0xFFFFFFFFFFFFFFFF), (0x01C, 0xFFFF),
   (0x024, 0x7FFFF), (0x051, 0xFFFFFFFFFFFFFFFF), (0x052, 0x1FFF), (0x054, 0x1FFF), (0x070, 0xFF)]
/-- A word that writes a CSR: its source, the CSR, and 0 to write, 1 to set, 2 to clear (R213). -/
def csrWord : Instr → Option (Nat × Nat × Nat)
  | .csrw a c => some (a.toNat, c.toNat, 0)
  | .csrs a c => some (a.toNat, c.toNat, 1)
  | .csrc a c => some (a.toNat, c.toNat, 2)
  | _ => none

end Sys2Proof.Claim

/-- R213, R204, R339: CSRR lands the value of a listed CSR at +1 with tag k1, and a read of ENLO lands ENHI with it; an unlisted
number raises ILLEGAL, and one that the map marks system raises PRIV in user mode. -/
def Sys2Proof.Claim.CsrReadsLand : Prop :=
  ∀ (s : State) (d : BitVec 6) (n : BitVec 12), s.actor = .control →
    (∀ v, csrValue s n.toNat = some v → n.toNat ≠ 0x032 → ¬ (systemCsr n.toNat ∧ s.cc.mode = .user) →
      ∃ t, exec (.csrr d n) s = .next t ∧ Issued s t s.cc [landing s 1 0 [.reg d.toNat (BitVec.ofNat 64 v) 1 false]]) ∧
    (n.toNat = 0x032 → ∃ t, exec (.csrr d n) s = .next t ∧ Issued s t s.cc [landing s 1 0
      [.reg d.toNat (BitVec.ofNat 64 (s.rr.energy % 4294967296)) 1 false, .enhi (BitVec.ofNat 32 (s.rr.energy / 4294967296))]]) ∧
    (csrValue s n.toNat = none → ∃ t, exec (.csrr d n) s = .next t ∧ Trapped s t (s.fault ILLEGAL)) ∧
    (systemCsr n.toNat → s.cc.mode = .user → ∃ t, exec (.csrr d n) s = .next t ∧ Trapped s t (s.fault PRIV))

/-- R213, R204: CSRW, CSRS and CSRC of a listed CSR schedule their write at +1, from a source with tag k0 or k1; another tag raises
CLOCK, an unlisted number ILLEGAL, and a system or system-write CSR in user mode PRIV. -/
def Sys2Proof.Claim.CsrWritesIssue : Prop :=
  ∀ (s : State) (i : Instr) (a n kind : Nat), s.actor = .control → csrWord i = some (a, n, kind) →
    (csrValue s n ≠ none → ¬ (systemWriteCsr n ∧ s.cc.mode = .user) → maySteer s a → ∃ t, exec i s = .next t ∧
      Issued s t s.cc [(s.key (s.cyc + 1 * s.mul) 0, .csrWrite s.cur n kind (s.val a))]) ∧
    (csrValue s n ≠ none → ¬ (systemWriteCsr n ∧ s.cc.mode = .user) → ¬ (s.tag a = 0 ∨ s.tag a = 1) →
      ∃ t, exec i s = .next t ∧ Trapped s t (s.fault CLOCK)) ∧
    (csrValue s n = none → ∃ t, exec i s = .next t ∧ Trapped s t (s.fault ILLEGAL)) ∧
    (systemWriteCsr n → s.cc.mode = .user → ∃ t, exec i s = .next t ∧ Trapped s t (s.fault PRIV))

/-- CSR words issue: CsrReadsLand, CsrWritesIssue hold. -/
def Obligations.CsrWordsIssue : Prop :=
  Claim.CsrReadsLand ∧ Claim.CsrWritesIssue

/-- R213, R6, R7, R215, R219: a CSR write that lands changes the RW bits of its CSR alone: written, set or cleared where the source holds
1; every other bit, CSR, register, byte and core is as before; a write of ERRCNT0 also clears its part below the unit, and one that
would give ERRINJ another code than 0x10 and 0x0F has no effect (R219). -/
def Obligations.CsrWritesLand : Prop :=
  ∀ (s : State) (k : Key) (id n m kind : Nat) (v : DWord), (n, m) ∈ rwBits → kind ≤ 2 →
    let old := (s.core id).csr n
    let mask := BitVec.ofNat 64 m
    let new := if kind = 0 then (old &&& ~~~mask) ||| (v &&& mask) else if kind = 1 then old ||| (v &&& mask) else old &&& ~~~(v &&& mask)
    let t := s.applyAll ((Item.csrWrite id n kind v).run k s)
    OnlyCore s t id { s.core id with csrs := (t.core id).csrs, errRem := if n = 0x014 then 0 else (s.core id).errRem } ∧
      (t.core id).csr n = (if n = 0x070 ∧ new ≠ 0x10 ∧ new ≠ 0x0F then old else new) ∧ ∀ x, x ≠ n → (t.core id).csr x = (s.core id).csr x

/-- R215, R219, R330, R335, R337, R339, R340: the writes and reads of THRRSN, ENLO, PWRACK, ERRINJ, UNDOA, ERRCNT and QUOTA as they
land: W1C but for the reasons set in this cycle, the latch of ENHI, the end of a power deadline that has not passed, another code of
ERRINJ than 0x10 and 0x0F and a write of UNDOA while a level is open ignored, and the exhausted flag cleared by a QUOTA above the
energy, after which an instant that waits starts no earlier than the next cycle, on a timer due time still ahead; one that runs loses no due
time. -/
def Obligations.SpecialRegisterEvents : Prop :=
  ∀ (s : State) (v : DWord) (n d : Nat),
    (∃ t, exec (.thrrsn v) s = .next t ∧ t = { s with clusters := t.clusters } ∧
      let q := s.rr.cluster (s.cur % 2048)
      let k := SMap.get {} s.clusters q
      SMap.get {} t.clusters q = { k with thrrsn := k.thrrsn &&& (~~~(BitVec.ofNat 5 v.toNat) ||| if k.setAt = s.now then k.setBits else 0) }) ∧
    (0 < d → ∃ t, exec (.enlo d) s = .next t ∧ t = { s with cores := t.cores } ∧
      t.cc.reg d = ⟨BitVec.ofNat 64 (s.rr.energy % 4294967296), 1, false⟩ ∧ t.cc.enhi = BitVec.ofNat 32 (s.rr.energy / 4294967296) ∧
      ∀ r, r ≠ d → t.cc.reg r = s.cc.reg r) ∧
    (∃ t, exec .pwrack s = .next t ∧ OnlyRegion s t s.ctx { s.rr with deadline := s.rr.deadline.filter fun x => !decide (s.dtime ≤ x) }) ∧
    (∃ t, exec (.errinj v) s = .next t ∧ OnlyCore s t s.cur { s.cc with csrs := t.cc.csrs } ∧
      let x := (s.cc.csr 0x070 &&& ~~~(0xFF : DWord)) ||| (v &&& 0xFF)
      t.cc.csr 0x070 = if x = 0x10 ∨ x = 0x0F then x else s.cc.csr 0x070) ∧
    (s.cc.levels ≠ [] → ∃ t, exec (.undoa v) s = .next t ∧ t = s) ∧
    (s.cc.levels = [] → ∃ t, exec (.undoa v) s = .next t ∧ OnlyCore s t s.cur { s.cc with csrs := t.cc.csrs } ∧
      fld (t.cc.csr 0x062).toNat 6 13 = fld v.toNat 6 13 ∧ fld (t.cc.csr 0x062).toNat 32 11 = min 1024 (fld v.toNat 32 11)) ∧
    (∃ t, exec (.errcnt n v) s = .next t ∧ OnlyCore s t s.cur { s.cc with csrs := t.cc.csrs, errRem := if n % 4 = 0 then 0 else s.cc.errRem } ∧
      (t.cc.csr (0x014 + n % 4)).toNat % 4294967296 = v.toNat % 4294967296) ∧
    (∃ t, exec (.quota v) s = .next t ∧
      t = { s with regions := t.regions, journal := t.journal, jhead := t.jhead, jlost := t.jlost } ∧
      (∀ x, x ≠ s.ctx → t.region x = s.region x) ∧
      let clears := decide (s.rr.energy < v.toNat)
      t.region s.ctx = { s.rr with
        quota := v.toNat, exh := s.rr.exh && !clears, overE := if clears then 0 else s.rr.overE
        readyAt := if clears && s.rr.exh && s.rr.between then max s.rr.readyAt (s.rr.cyc + 1) else s.rr.readyAt
        nextDue := if clears && s.rr.exh && s.rr.between then s.rr.dueAfter s.dtime else s.rr.nextDue } ∧
      ((clears && s.rr.exh && s.rr.between) = false → t.journal = s.journal))

/-- R214, R218, R335: TRAP and BREAK raise their trap with INFO their code and NEXT 1; FIDEL writes its CSR at +1; CLKDIV's divisor
lands at +1 for the next instant start, as a power reaction. -/
def Obligations.TrapsFidelityAndDivisors : Prop :=
  ∀ s : State, s.actor = .control →
    (∀ c, ∃ t, exec (.trap c) s = .next t ∧ Trapped s t { s.fault 0x15 with info := c.toNat, next := true }) ∧
    (∀ c, ∃ t, exec (.brk c) s = .next t ∧ Trapped s t { s.fault 0x14 with info := c.toNat, next := true }) ∧
    (∀ n, ∃ t, exec (.fidel n) s = .next t ∧
      Issued s t s.cc [(s.key (s.cyc + 1 * s.mul) 0, .csrWrite s.cur 0x013 0 (n.setWidth 64))]) ∧
    (∀ u v, ∃ t, exec (.clkdiv u v) s = .next t ∧ Issued s t s.cc [landing s 1 0 [.divNext u.toNat (v.toNat + 1)],
      (s.key (s.cyc + 1 * s.mul) 0, .csrWrite s.cur 0x035 0 0)])

/-- R214, R217: outside the handler TRET raises TRETX; in it, with a reserved bit of TRAPST set, BADSTAT; otherwise the mode becomes
PMODE and the stream resumes at TRAPPC, or with NEXT at the word after the bundle that starts there; loops, registers and bytes are as
before. Where the waits of the interrupted stream go on, the address of the bundle that began them is the one issued last again. That TRETX
comes before the rule of timed segments is the model's reading (assumptions 50). -/
def Obligations.HandlersReturn : Prop :=
  ∀ s : State, s.actor = .control →
    let st := (s.cc.csr 0x051).toNat
    let back := fld (s.cc.csr 0x052).toNat 0 13
    (s.cc.inHandler = false → ∃ t, exec .tret s = .next t ∧ Trapped s t (s.fault TRETX)) ∧
    (s.cc.inHandler = true → s.inSeg = false → st / 8 ≠ 0 → ∃ t, exec .tret s = .next t ∧ Trapped s t (s.fault BADSTAT)) ∧
    (s.cc.inHandler = true → s.inSeg = false → st / 8 = 0 → ∃ t, exec .tret s = .next t ∧ t.mem = s.mem ∧
      t.cc.mode = (if st % 2 = 1 then .system else .user) ∧ t.cc.inHandler = false ∧ t.cc.regs = s.cc.regs ∧ t.cc.csrs = s.cc.csrs ∧
      t.cc.spad = s.cc.spad ∧ t.cc.loops = s.cc.loops ∧
      t.cc.pc = (if st / 4 % 2 = 0 then back else back + bundleLen s.rr.code back) ∧
      t.cc.issPc = if st / 4 % 2 = 0 ∧ back = s.cc.pcSaved then s.cc.issSaved else back)

/-- R312: a TRET that succeeds at T resumes the region at V = T + 64: IBASE moves forward by V - (F + 48), and every other core
resumes at its PC. That a core's next issue moves as the stamps do, to V or later, is the model's reading (assumptions 37). -/
def Sys2Proof.Claim.HandlersResumeTheRegion : Prop :=
  ∀ s : State, s.actor = .control → s.cc.inHandler = true → s.inSeg = false → (s.cc.csr 0x051).toNat / 8 = 0 →
    ∃ t, exec .tret s = .next t ∧ s.cyc + 64 ≤ t.cc.nextAt ∧
      (t.region s.ctx).phase = .resuming (s.cyc + 64) ∧ (t.region s.ctx).ibase = s.rr.ibase + (s.cyc + 64 - s.rr.frz) ∧
      ∀ id, id ≠ s.cur → (t.core id).regs = (s.core id).regs ∧ (t.core id).pc = (s.core id).pc ∧
        (id ∈ s.live s.rr → (t.core id).nextAt = max ((s.core id).nextAt + (s.cyc + 64 - s.rr.frz)) (s.cyc + 64)) ∧
        (id ∉ s.live s.rr → t.core id = s.core id)

namespace Sys2Proof.Claim

/-- An engine of a core whose group has ended: nothing queued, under way or finishing (R219). -/
def halted (g : Engine) (cyc : Nat) : Engine :=
  { g with queue := [], running := false, rep := 0, due := 0, doneAt := 0, copies := 0, freeAt := cyc, lastH := none
           finishing := [], blocked := false, stopped := false, aGuard := none, aWait := none, aSig := none }

end Sys2Proof.Claim

/-- R204, R219, R312, R325: in user mode HALTG, KILLC and TLBLK raise PRIV. In system mode HALTG ends the group at once, its levels,
records and staged stores discarded, its locks ended and its engines' queues emptied, and from the handler the other cores resume; KILLC starts the kill of the context that s(a) names, with status
KILLED, and TLBLK locks the range's translations, ends every lock where the length is 0, waits for a walk, or raises XLATE. That
KILLC and TLBLK check their tags so is the model's reading (assumptions 40). -/
def Obligations.PrivilegedWords : Prop :=
  ∀ s : State, s.actor = .control →
    (s.cc.mode = .user → ∀ a b i, (i = .haltg ∨ i = .killc a ∨ i = .tlblk a b) → ∃ t, exec i s = .next t ∧ Trapped s t (s.fault PRIV)) ∧
    (s.cc.mode = .system → s.inSeg = false →
      (s.cc.inHandler = false → ∃ t, exec .haltg s = .next t ∧ Issued s t { s.cc with
        levels := [], undo := [], undoTop := 0, staging := [], kend := false, ended := true, inHandler := false, arrived := true,
        arrCyc := s.cyc + 1, tlb := s.cc.tlb.map fun e => { e with locked := false }
        mx := halted s.cc.mx s.cyc, vx := halted s.cc.vx s.cyc, cp := halted s.cc.cp s.cyc } []) ∧
      (s.cc.inHandler = true → ∃ t, exec .haltg s = .next t ∧ t.mem = s.mem ∧ t.cc.ended = true ∧ t.cc.inHandler = false ∧
        t.cc.levels = [] ∧ t.cc.staging = [] ∧ (t.region s.ctx).phase = .resuming (s.cyc + 64) ∧
        t.cc.mx = halted s.cc.mx s.cyc ∧ t.cc.vx = halted s.cc.vx s.cyc ∧ t.cc.cp = halted s.cc.cp s.cyc ∧
        ∀ id, id ≠ s.cur → (id ∈ s.live s.rr → (t.core id).pc = (s.core id).pc ∧
          (t.core id).nextAt = max ((s.core id).nextAt + (s.cyc + 64 - s.rr.frz)) (s.cyc + 64)) ∧ (id ∉ s.live s.rr → t.core id = s.core id)) ∧
      (∀ a tg, Sources s [a.toNat] tg → let x := (s.val a.toNat).toNat % 65536
        ∃ t, exec (.killc a) s = .next t ∧ t.mem = s.mem ∧ t.region x = (s.region x).kill 2 s.dtime (s.core ((s.region x).ctx * 2048)).levels.length ∧
          (∀ y, y ≠ x → t.region y = s.region y) ∧ t.cc = s.cc.streamed t.cc ∧ ∀ id, id ≠ s.cur → t.core id = s.core id) ∧
      (∀ a b tg, Sources s [a.toNat, b.toNat] tg → let lo := (s.val a.toNat).toNat
        let len := (s.val b.toNat).toNat
        (len = 0 → ∃ t, exec (.tlblk a b) s = .next t ∧
          Issued s t { s.cc with tlb := s.cc.tlb.map fun e => { e with locked := false } } []) ∧
        (0 < len → lo + len ≤ 2 ^ 52 → ∀ l, tryLock s.cc s.ctx lo len = .done l → ∃ t, exec (.tlblk a b) s = .next t ∧
          Issued s t { s.cc with tlb := l } []) ∧
        (0 < len → lo + len ≤ 2 ^ 52 → ∀ va, tryLock s.cc s.ctx lo len = .walk va → ∃ t, exec (.tlblk a b) s = .next t ∧
          t.mem = s.mem ∧ t.cc = ({ s.cc with waits := s.cc.waits ++ [⟨.tlblk lo len, s.cyc, none⟩] } : Core).streamed t.cc) ∧
        (0 < len → 2 ^ 52 < lo + len ∨ tryLock s.cc s.ctx lo len = .full → ∃ t, exec (.tlblk a b) s = .next t ∧
          Trapped s t { s.fault XLATE with faddr := lo })))

/-! ## Vector words (R42, R111 to R128) -/

namespace Sys2Proof.Claim

/-- A vector word that reads its sources row by row: tiles it reads, its tb operand, its destination, whether it reads that too, its
latency, the VCTL values that it takes, and whether it reads the sidecar of ta (R112, R114, R118 to R126). -/
structure Vec where
  reads : List Nat
  tb : Option Nat
  d : Nat
  rdDst : Bool
  lat : Nat
  legal : Bool
  side : Bool := false
  deriving DecidableEq, Repr
/-- The vector words with their latencies, from R112 and the tables of R118 to R126; the fields of VCTL as R114 places them. -/
def vecTable (ctl : DWord) (i : Instr) : Option Vec :=
  let sf := ctl.toNat / 4096 % 16
  let mf := ctl.toNat / 256 % 16
  let ew := ctl.toNat / 8 % 4
  let ft := ctl.toNat / 2 % 4
  match i with
  | .vadd d a b _ => some ⟨[a.toNat], some b.toNat, d.toNat, false, 2, true, false⟩
  | .vsub d a b _ => some ⟨[a.toNat], some b.toNat, d.toNat, false, 2, true, false⟩
  | .vadds d a b _ => some ⟨[a.toNat], some b.toNat, d.toNat, false, 2, true, false⟩
  | .vaddsu d a b _ => some ⟨[a.toNat], some b.toNat, d.toNat, false, 2, true, false⟩
  | .vmul d a b _ => some ⟨[a.toNat], some b.toNat, d.toNat, false, 2, true, false⟩
  | .vmulh d a b _ => some ⟨[a.toNat], some b.toNat, d.toNat, false, 2, true, false⟩
  | .vmin d a b _ => some ⟨[a.toNat], some b.toNat, d.toNat, false, 2, true, false⟩
  | .vmax d a b _ => some ⟨[a.toNat], some b.toNat, d.toNat, false, 2, true, false⟩
  | .vminu d a b _ => some ⟨[a.toNat], some b.toNat, d.toNat, false, 2, true, false⟩
  | .vmaxu d a b _ => some ⟨[a.toNat], some b.toNat, d.toNat, false, 2, true, false⟩
  | .vand d a b _ => some ⟨[a.toNat], some b.toNat, d.toNat, false, 2, true, false⟩
  | .vor d a b _ => some ⟨[a.toNat], some b.toNat, d.toNat, false, 2, true, false⟩
  | .vxor d a b _ => some ⟨[a.toNat], some b.toNat, d.toNat, false, 2, true, false⟩
  | .vshl d a b _ => some ⟨[a.toNat], some b.toNat, d.toNat, false, 2, true, false⟩
  | .vshr d a b _ => some ⟨[a.toNat], some b.toNat, d.toNat, false, 2, true, false⟩
  | .vsra d a b _ => some ⟨[a.toNat], some b.toNat, d.toNat, false, 2, true, false⟩
  | .vfadd d a b _ => some ⟨[a.toNat], some b.toNat, d.toNat, false, 4, true, false⟩
  | .vfsub d a b _ => some ⟨[a.toNat], some b.toNat, d.toNat, false, 4, true, false⟩
  | .vfmul d a b _ => some ⟨[a.toNat], some b.toNat, d.toNat, false, 4, true, false⟩
  | .vfmin d a b _ => some ⟨[a.toNat], some b.toNat, d.toNat, false, 4, true, false⟩
  | .vfmax d a b _ => some ⟨[a.toNat], some b.toNat, d.toNat, false, 4, true, false⟩
  | .vfscl d a b _ => some ⟨[a.toNat], some b.toNat, d.toNat, false, 4, true, false⟩
  | .vfma d a b _ => some ⟨[a.toNat], some b.toNat, d.toNat, true, 5, true, false⟩
  | .vfcpy d a b _ => some ⟨[a.toNat], some b.toNat, d.toNat, false, 2, true, false⟩
  | .vfabs d a _ => some ⟨[a.toNat], none, d.toNat, false, 2, true, false⟩
  | .vfneg d a _ => some ⟨[a.toNat], none, d.toNat, false, 2, true, false⟩
  | .vfrcp d a _ => some ⟨[a.toNat], none, d.toNat, false, 8, true, false⟩
  | .vfrsq d a _ => some ⟨[a.toNat], none, d.toNat, false, 8, true, false⟩
  | .vfexp2 d a _ => some ⟨[a.toNat], none, d.toNat, false, 8, true, false⟩
  | .vflog2 d a _ => some ⟨[a.toNat], none, d.toNat, false, 8, true, false⟩
  | .vfrsum d a _ => some ⟨[a.toNat], none, d.toNat, false, 6, true, false⟩
  | .vfrmax d a _ => some ⟨[a.toNat], none, d.toNat, false, 6, true, false⟩
  | .vcvt d a g _ _ => some ⟨[a.toNat], none, d.toNat, decide (fmtBits g.toNat < fmtBits sf), 3, decide (sf ≤ 8 ∨ sf = 11),
      decide (ctl.toNat % 2 = 1 ∧ 1 ≤ sf ∧ sf ≤ 3)⟩
  | .vexp d a f => some ⟨[a.toNat], none, d.toNat, false, 3, decide (sf = 9 ∨ sf = 10 ∨ sf = 11 ∨ (sf = 1 ∧ f = 1)), decide (sf ≠ 11)⟩
  | .vmxs d a => some ⟨[a.toNat], none, d.toNat, true, 3, decide ((4 ≤ sf ∧ sf ≤ 6) ∧ 1 ≤ mf ∧ mf ≤ 3), false⟩
  | .vcmpeq d a b => some ⟨[a.toNat], some b.toNat, d.toNat, false, 2, true, false⟩
  | .vcmplt d a b => some ⟨[a.toNat], some b.toNat, d.toNat, false, 2, true, false⟩
  | .vcmple d a b => some ⟨[a.toNat], some b.toNat, d.toNat, false, 2, true, false⟩
  | .vshuf d a b => some ⟨[a.toNat], some b.toNat, d.toNat, false, 2, true, false⟩
  | .vrot d a b => some ⟨[a.toNat], some b.toNat, d.toNat, false, 2, true, false⟩
  | .vfcmpeq d a b => some ⟨[a.toNat], some b.toNat, d.toNat, false, 4, decide (ft ≠ 3), false⟩
  | .vfcmplt d a b => some ⟨[a.toNat], some b.toNat, d.toNat, false, 4, decide (ft ≠ 3), false⟩
  | .vfcmple d a b => some ⟨[a.toNat], some b.toNat, d.toNat, false, 4, decide (ft ≠ 3), false⟩
  | .vsel d a b => some ⟨[a.toNat], some b.toNat, d.toNat, true, 2, true, false⟩
  | .vmov d a => some ⟨[a.toNat], none, d.toNat, false, 2, true, true⟩
  | .vpck d a b => some ⟨[a.toNat], some b.toNat, d.toNat, false, 2, decide (ew ≠ 0), false⟩
  | .vupk d a => some ⟨[a.toNat], none, d.toNat, false, 2, decide (ew ≠ 0), false⟩
  | .viota d => some ⟨[], none, d.toNat, false, 2, true, false⟩
  | _ => none
/-- The tile that a tb operand names, or the scalar that it broadcasts (R115). -/
def tbTile (x : Option Nat) : List Nat := match x with | some b => if b < 96 then [b] else [] | none => []
def tbScalar (x : Option Nat) : List Nat := match x with | some b => if b < 96 then [] else [b - 96] | none => []
/-- The value that a tb operand broadcasts; none for a tile. -/
def broadcast (s : State) (x : Option Nat) : DWord := match x with | some b => if b < 96 then 0 else s.val (b - 96) | none => 0
/-- What the step of a vector word reads, writes and takes (R94, R111, R112, R116). -/
def Vec.step (x : Vec) : EStep :=
  { reads := x.reads ++ tbTile x.tb, sides := if x.side then x.reads else [], scal := tbScalar x.tb, dst := some x.d, rdDst := x.rdDst, legal := x.legal, occ := 16
    land := x.lat + 15, readEnd := 15, fullAt := x.lat + 15 }
/-- Something of the acting engine due n figures after this cycle, and the same read in its cycle's last phase (R23, R112). -/
def due (s : State) (n : Nat) (it : Item) : Key × Item := (s.key (s.cyc + n * s.mul) 0, it)
def readAt (s : State) (n : Nat) (it : Item) : Key × Item := ({ s.key (s.cyc + n * s.mul) 0 with phase := 3 }, it)
/-- The rows that VROW enables (R113). -/
def rowsOn (s : State) : List Nat := (List.range 16).filter fun r => (s.cc.csr 0x018).getLsbD r
/-- The acting core while engine e takes a step of an occupancy, its last result landing n figures later (R112, R142, R175). -/
def busy (s : State) (c : Core) (e occ n copies : Nat) : Core :=
  c.setEng e { c.eng e with
    freeAt := s.cyc + occ * s.mul, due := s.cyc + occ * s.mul, doneAt := max (c.eng e).doneAt (s.cyc + n * s.mul)
    copies := (c.eng e).copies + copies }
/-- The coupled tiles that a step of engine e reads and consumes, each cleared at its last read, and the tile that it only writes,
set full (R116, R145). -/
def consumed (s : State) (p : EStep) (e : Nat) : List Nat := p.reads.eraseDups.filter fun t => p.dst ≠ some t ∧ s.cc.coupling t = e + 1
def filled (s : State) (p : EStep) : List (Key × Item) :=
  match p.dst with
  | some d => if s.cc.coupling d = 0 ∨ p.rdDst = true ∨ d ∈ p.reads then [] else [due s p.fullAt (.full s.cur d true)]
  | none => []
/-- The engine of a word that the control core does not execute (R42). -/
def engineOf (i : Instr) : Option Nat :=
  if !i.isWord then none
  else
    let cls := encode i / 2 ^ 27 % 16
    if cls = 12 then some 0 else if cls = 8 ∨ cls = 9 ∨ cls = 10 then some 1
    else if cls = 13 ∧ encode i / 2 ^ 24 % 8 < 5 then some 2 else none
/-- The acting core with a one-step entry of a word behind engine e's queue (R42). -/
def withEntry (s : State) (e : Nat) (i : Instr) : Core :=
  s.cc.setEng e { s.cc.eng e with
    queue := (s.cc.eng e).queue ++ [{
      stamp := s.cyc - s.rr.ibase, base := 0, count := 1, reps := 0, guard := none, wtok := none, stok := none
      timed := s.inSeg, instant := s.rr.instant, word := some (s.rawOf i) }] }

end Sys2Proof.Claim

/-- R42, R33, R140, R176: a word of class 8, 9, 10 or 12 or a copy word that the control core issues puts a one-step entry behind its
engine's queue, or traps at its issue check; nothing else changes. At a full queue it is held in elastic code before any check of
it, and in a timed segment it raises SCHED, whatever its tags; MFMT, whose tag must be k0 or k1, raises CLOCK with another, in a timed segment
also at a full queue. Which of the two comes first there is the model's choice (assumptions 74). -/
def Obligations.EngineWordsArePlaced : Prop :=
  ∀ (s : State) (i : Instr) (e : Nat), s.actor = .control → engineOf i = some e →
    ((s.cc.eng e).queue.length < 32 → (∃ t, exec i s = .next t ∧ Issued s t (withEntry s e i) []) ∨
      (∃ t, exec i s = .next t ∧ Trapped s t (s.fault CLOCK))) ∧
    ((∀ r, s.tag r = 0) → (∀ x, s.cc.ttag x = 0 ∧ s.cc.atag x = 0 ∧ s.cc.btag x = 0) → (∀ c k m, i ≠ .mzero c k m) →
      (s.cc.eng e).queue.length < 32 → ∃ t, exec i s = .next t ∧ Issued s t (withEntry s e i) []) ∧
    (32 ≤ (s.cc.eng e).queue.length → s.inSeg = false → ∃ t, exec i s = .next t ∧ Held s t) ∧
    (∀ n a, i = .mfmt n a → ¬ (s.tag a.toNat = 0 ∨ s.tag a.toNat = 1) → s.inSeg = true ∨ (s.cc.eng e).queue.length < 32 →
      ∃ t, exec i s = .next t ∧ Trapped s t (s.fault CLOCK)) ∧
    ((∀ n a, i = .mfmt n a → s.tag a.toNat = 0 ∨ s.tag a.toNat = 1) → 32 ≤ (s.cc.eng e).queue.length → s.inSeg = true → ∃ t, exec i s = .next t ∧
      Trapped s t { s.fault SCHED with wobj := 2, wval1 := s.cyc, wval2 := e })

/-- R111 to R116, R118 to R126: every vector word that reads row by row dequeues where its checks pass: row r is read at +r and its
result is due at L + r for each row that VROW enables, the tag with row 0 at L; the coupled tiles it consumes are cleared at +15,
the one it only writes goes full at L + 15, and VX is occupied for 16 cycles; no register, tile, flag or byte changes at once. That a
blocked step waits before its tags are tested, and that VCTL at the dequeue says whether VCVT reads td, is the model's reading
(assumptions 51, 33). -/
def Sys2Proof.Claim.VectorStepsDequeue : Prop :=
  ∀ (s : State) (i : Instr) (x : Vec) (tg : Tag), vecTable (s.cc.csr 0x01C) i = some x → Runs s x.step 1 tg →
    ∃ t, exec i s = .next t ∧ Dequeued s t 1 (busy s s.cc 1 16 (x.lat + 15) 0)
      (due s x.lat (.land s.cur [.tileTag x.d tg]) ::
        (rowsOn s).map (fun r => readAt s r (.vxRow s.cur i r (broadcast s x.tb) (s.cc.csr 0x01C) (s.cyc + (x.lat + r) * s.mul))) ++
        (consumed s x.step 1).map (fun y => readAt s 15 (.full s.cur y false)) ++ filled s x.step)

/-- R111, R28, R114, R116: a vector step whose sources disagree raises CLOCK, one with a VCTL value that it does not take ILLEGAL, one
whose result clock is absent only occupies VX, and one that meets a coupled tile in the wrong state is held, unchecked, in an
elastic entry and raises SCHED with cause 6 in a timed one. That a blocked step waits before its tags are tested, that tags which disagree
raise CLOCK and not SCHED, and that VCTL at the dequeue says whether VCVT reads td, is the model's reading (assumptions 51, 33). -/
def Sys2Proof.Claim.VectorStepChecks : Prop :=
  ∀ (s : State) (i : Instr) (x : Vec), vecTable (s.cc.csr 0x01C) i = some x → s.actor = .engine 1 →
    (s.cc.common (x.step.allTags s.cc) = none → x.step.blockedBy s.cc = none ∨ s.timed = true → s.rr.phase ≠ .stopping →
      ∃ t, exec i s = .next t ∧ t.region s.ctx = RAct.apply s s.rr (.raise (s.fault CLOCK)) ∧ (t.cc.eng 1).stopped = true) ∧
    (∀ tg, s.cc.common (x.step.allTags s.cc) = some tg → x.legal = false →
      s.cc.present tg = false ∨ x.step.blockedBy s.cc = none ∨ s.timed = true →
      s.rr.phase ≠ .stopping → ∃ t, exec i s = .next t ∧ t.region s.ctx = RAct.apply s s.rr (.raise (s.fault ILLEGAL)) ∧
        (t.cc.eng 1).stopped = true) ∧
    (∀ tg, s.cc.common (x.step.allTags s.cc) = some tg → s.cc.present tg = false → x.legal = true →
      ∃ t, exec i s = .next t ∧ Dequeued s t 1 (busy s s.cc 1 16 0 0) []) ∧
    (x.step.blockedBy s.cc ≠ none → (∀ tg, s.cc.common (x.step.allTags s.cc) = some tg → s.cc.present tg = true) → s.timed = false →
      ∃ t, exec i s = .next t ∧ t.cc = s.cc.setEng 1 { s.cc.eng 1 with blocked := true, stopped := decide (s.rr.phase = .stopping) } ∧
        t.mem = s.mem ∧ t.region s.ctx = s.rr) ∧
    (∀ tg y, s.cc.common (x.step.allTags s.cc) = some tg → s.cc.present tg = true → x.legal = true → x.step.blockedBy s.cc = some y →
      s.timed = true → s.rr.phase ≠ .stopping → ∃ t, exec i s = .next t ∧ (t.cc.eng 1).stopped = true ∧
        t.region s.ctx = RAct.apply s s.rr (.raise { s.fault SCHED with wobj := 6, wval1 := s.cyc, wval2 := y }))

/-- Vector steps dequeue, are held or trap: VectorStepsDequeue, VectorStepChecks hold. -/
def Obligations.VectorRowsDequeue : Prop :=
  Claim.VectorStepsDequeue ∧ Claim.VectorStepChecks

/-- R112, R126 to R128: VTRN and VBCR read their source at +8 and land row r at 10 + r, occupying VX for 18 cycles; VGET reads row q
of its tile at +q, its scalar due at q + 2; VPUT lands its scalar's low bits in element e of row q, with the tag, at q + 2; VSETE
changes its bit at once, whatever the tags. -/
def Sys2Proof.Claim.WholeTileAndElementStepsDequeue : Prop :=
  ∀ (s : State) (d a b : BitVec 7) (tg : Tag),
    let whole : EStep := { reads := [a.toNat], sides := [a.toNat], dst := some d.toNat, occ := 18, land := 25, fullAt := 25, readEnd := 8 }
    let bcr : EStep := { whole with scal := tbScalar (some b.toNat) }
    let v := broadcast s (some b.toNat)
    let w := 8 * 2 ^ ((s.cc.csr 0x01C).toNat / 8 % 4)
    let q := v.toNat % 16
    let lo := w * (v.toNat / 16 % 512 % (2048 / w))
    let get : EStep := { reads := [a.toNat], scal := tbScalar (some b.toNat), land := q + 2, readEnd := q }
    let put : EStep := { scal := a.toNat :: tbScalar (some b.toNat), dst := some d.toNat, rdDst := true, land := q + 2 }
    (Runs s whole 1 tg → ∃ t, exec (.vtrn d a) s = .next t ∧ Dequeued s t 1 (busy s s.cc 1 18 25 0)
      ([due s 10 (.land s.cur [.tileTag d.toNat tg]),
        readAt s 8 (.vxWhole s.cur (.vtrn d a) 0 (s.cc.csr 0x01C) (fld (s.cc.csr 0x018).toNat 0 16) (s.cyc + 10 * s.mul) s.mul)] ++
        (consumed s whole 1).map (fun y => readAt s 8 (.full s.cur y false)) ++ filled s whole)) ∧
    (Runs s bcr 1 tg → ∃ t, exec (.vbcr d a b) s = .next t ∧ Dequeued s t 1 (busy s s.cc 1 18 25 0)
      ([due s 10 (.land s.cur [.tileTag d.toNat tg]),
        readAt s 8 (.vxWhole s.cur (.vbcr d a b) v (s.cc.csr 0x01C) (fld (s.cc.csr 0x018).toNat 0 16) (s.cyc + 10 * s.mul) s.mul)] ++
        (consumed s bcr 1).map (fun y => readAt s 8 (.full s.cur y false)) ++ filled s bcr)) ∧
    (Runs s get 1 tg → q ≠ 0 → ∃ t, exec (.vget d a b) s = .next t ∧ Dequeued s t 1 (busy s s.cc 1 16 (q + 2) 0)
      (readAt s q (.vget s.cur a.toNat q lo w d.toNat tg (s.cyc + (q + 2) * s.mul)) ::
        (consumed s get 1).map (fun y => readAt s q (.full s.cur y false)))) ∧
    (Runs s get 1 tg → q = 0 → ∃ t, exec (.vget d a b) s = .next t ∧
      Dequeued s t 1 (busy s (((consumed s get 1).map fun y => CAct.tileFull y false).foldl CAct.apply s.cc) 1 16 (q + 2) 0)
      [readAt s q (.vget s.cur a.toNat q lo w d.toNat tg (s.cyc + (q + 2) * s.mul))]) ∧
    (Runs s put 1 tg → ∃ t, exec (.vput d a b) s = .next t ∧ Dequeued s t 1 (busy s s.cc 1 16 (q + 2) 0)
      [due s (q + 2) (.land s.cur [.rowPart d.toNat q lo w (s.val a.toNat).toNat, .tileTag d.toNat tg])]) ∧
    (s.actor = .engine 1 → ∀ x : BitVec 7, ∃ t, exec (.vsete d x) s = .next t ∧
      Dequeued s t 1 (busy s (CAct.apply s.cc (.tileFull d.toNat (x = 1))) 1 1 0 0) [])

namespace Sys2Proof.Claim

/-- The step of a word that reads its whole tile, or one element (R112, R115, R126, R127). -/
def wholeTable (s : State) : Instr → Option EStep
  | .vtrn d a => some { reads := [a.toNat], sides := [a.toNat], dst := some d.toNat, occ := 18, land := 25, fullAt := 25, readEnd := 8 }
  | .vbcr d a b => some { reads := [a.toNat], sides := [a.toNat], scal := tbScalar (some b.toNat), dst := some d.toNat, occ := 18, land := 25
                          fullAt := 25, readEnd := 8 }
  | .vget _ a b =>
    let q := (broadcast s (some b.toNat)).toNat % 16
    some { reads := [a.toNat], scal := tbScalar (some b.toNat), land := q + 2, readEnd := q }
  | .vput d a b =>
    some { scal := a.toNat :: tbScalar (some b.toNat), dst := some d.toNat, rdDst := true
           land := (broadcast s (some b.toNat)).toNat % 16 + 2 }
  | _ => none
/-- Where a step p of engine e does not run: not ready, sources that disagree, a form not allowed, an absent result clock (the core then
becomes c and the engine is busy all the same), a coupled tile in the wrong state, or a source with an error (R28, R111, R116, R143, R321). -/
def stepChecks (s : State) (i : Instr) (p : EStep) (e busyFor : Nat) (c : Core) : Prop :=
  let tags := s.cc.common (p.allTags s.cc)
  let waits := ∃ t, exec i s = .next t ∧ t.mem = s.mem ∧ t.region s.ctx = s.rr ∧
    t.cc = s.cc.setEng e { s.cc.eng e with blocked := true, stopped := decide (s.rr.phase = .stopping) }
  let traps := fun f => s.rr.phase ≠ .stopping → ∃ t, exec i s = .next t ∧ (t.cc.eng e).stopped = true ∧
    t.region s.ctx = RAct.apply s s.rr (.raise f)
  let sched := fun cause obj => traps { s.fault SCHED with wobj := cause, wval1 := s.cyc, wval2 := obj }
  let errs := p.bad = true ∨ p.reads.any s.cc.rowsErr = true ∨ (p.sides.any fun t => s.cc.sideErr t ≠ 0) = true ∨
    (p.scal.any fun r => (s.cc.reg r).bad) = true ∨ (p.rdDst = true ∧ (p.dst.map s.cc.rowsErr).getD false = true)
  s.actor = .engine e →
    (p.ready = false → s.timed = false → waits) ∧ (p.ready = false → s.timed = true → sched 1 p.obj) ∧
    (p.ready = true → tags = none → p.blockedBy s.cc = none ∨ s.timed = true → traps (s.fault CLOCK)) ∧
    (p.ready = true → p.blockedBy s.cc ≠ none → (∀ tg, tags = some tg → s.cc.present tg = true) → s.timed = false → waits) ∧
    ∀ tg, p.ready = true → tags = some tg →
      (p.legal = false → s.cc.present tg = false ∨ p.blockedBy s.cc = none ∨ s.timed = true → traps (s.fault ILLEGAL)) ∧
      (p.legal = true → s.cc.present tg = false →
        ∃ t, exec i s = .next t ∧ Dequeued s t e (busy s c e p.occ busyFor 0) []) ∧
      (p.legal = true → s.cc.present tg = true → s.timed = true → ∀ y, p.blockedBy s.cc = some y → sched 6 y) ∧
      (p.legal = true → s.cc.present tg = true → p.blockedBy s.cc = none → errs → traps (s.fault UECC))

end Sys2Proof.Claim

/-- R28, R111, R116, R127: a step of VTRN, VBCR, VGET or VPUT whose sources disagree raises CLOCK; one whose result clock is absent only
occupies VX, for its 18 or 16 cycles; one that meets a coupled tile in the wrong state waits in an elastic entry and raises SCHED with
cause 6 in a timed one; one with an uncorrectable error in a source raises UECC. The order of these checks is the model's reading
(assumptions 51, 52). -/
def Sys2Proof.Claim.WholeTileStepChecks : Prop :=
  ∀ (s : State) (i : Instr) (p : EStep), wholeTable s i = some p → stepChecks s i p 1 0 s.cc

/-- Whole-tile and element steps dequeue, wait or trap: WholeTileAndElementStepsDequeue, WholeTileStepChecks hold. -/
def Obligations.WholeTileAndElementStepsDequeue : Prop :=
  Claim.WholeTileAndElementStepsDequeue ∧ Claim.WholeTileStepChecks

namespace Sys2Proof.Claim

/-- Element j of a row, w bits wide (R11). -/
def element (r : Row) (w j : Nat) : BitVec w := r.extractLsb' (w * j) w
/-- Class 8 by operation, on w-bit elements, with the flags that it raises (R118). -/
def integerTable {w : Nat} (a b : BitVec w) : Instr → Option (BitVec 7 × BitVec 7 × BitVec 7 × BitVec 2 × BitVec w × Nat)
  | .vadd d x y t => some (d, x, y, t, a + b, 0)
  | .vsub d x y t => some (d, x, y, t, a - b, 0)
  | .vadds d x y t =>
    let v := a.toInt + b.toInt
    some (d, x, y, t, if v < -2 ^ (w - 1) then BitVec.intMin w else if 2 ^ (w - 1) ≤ v then BitVec.intMax w else a + b,
      if v < -2 ^ (w - 1) ∨ 2 ^ (w - 1) ≤ v then 4 else 0)
  | .vaddsu d x y t => some (d, x, y, t, if 2 ^ w ≤ a.toNat + b.toNat then BitVec.allOnes w else a + b, if 2 ^ w ≤ a.toNat + b.toNat then 4 else 0)
  | .vmul d x y t => some (d, x, y, t, a * b, 0)
  | .vmulh d x y t => some (d, x, y, t, BitVec.ofInt w (a.toInt * b.toInt / 2 ^ w), 0)
  | .vmin d x y t => some (d, x, y, t, if a.toInt ≤ b.toInt then a else b, 0)
  | .vmax d x y t => some (d, x, y, t, if a.toInt ≤ b.toInt then b else a, 0)
  | .vminu d x y t => some (d, x, y, t, if a.toNat ≤ b.toNat then a else b, 0)
  | .vmaxu d x y t => some (d, x, y, t, if a.toNat ≤ b.toNat then b else a, 0)
  | .vand d x y t => some (d, x, y, t, a &&& b, 0)
  | .vor d x y t => some (d, x, y, t, a ||| b, 0)
  | .vxor d x y t => some (d, x, y, t, a ^^^ b, 0)
  | .vshl d x y t => some (d, x, y, t, a <<< (b.toNat % w), 0)
  | .vshr d x y t => some (d, x, y, t, a >>> (b.toNat % w), 0)
  | .vsra d x y t => some (d, x, y, t, a.sshiftRight (b.toNat % w), 0)
  | _ => none
/-- Element j of a tb operand in row r: of its tile, or the low bits of the broadcast value (R115). -/
def tbElement (c : Core) (b r w j : Nat) (v : DWord) : BitVec w := if b < 96 then element (c.row b r) w j else v.setWidth w

end Sys2Proof.Claim

/-- R115, R118: where row r of a class 8 step lands, each element of that row of td is the operation's result on the elements of ta
and tb as they stood when the row was read, and FLAGS takes overflow exactly where an element saturates; every other row, every
register, CSR but FLAGS, accumulator and byte is as before. -/
def Sys2Proof.Claim.IntegerElements : Prop :=
  ∀ (c : Core) (i : Instr) (d x y : BitVec 7) (ty : BitVec 2) (r : Nat) (bv ctl : DWord), r < 16 →
    let w := 8 * 2 ^ ty.toNat
    let at_ := fun j => integerTable (element (c.row x.toNat r) w j) (tbElement c y.toNat r w j bv) i
    (∀ j, ∃ v f, at_ j = some (d, x, y, ty, v, f)) →
    let c' := (vecRow i c r bv ctl).foldl CAct.apply c
    (∀ j v f, j < 2048 / w → at_ j = some (d, x, y, ty, v, f) → element (c'.row d.toNat r) w j = v) ∧
    ((∃ j v, j < 2048 / w ∧ at_ j = some (d, x, y, ty, v, 4)) → c'.csr 0x010 = c.csr 0x010 ||| 4) ∧
    ((¬ ∃ j v, j < 2048 / w ∧ at_ j = some (d, x, y, ty, v, 4)) → c'.csr 0x010 = c.csr 0x010) ∧
    (∀ t k, t < 96 → k < 16 → (t, k) ≠ (d.toNat, r) → c'.row t k = c.row t k) ∧
    c' = { c with rows := c'.rows, rowBad := c'.rowBad, csrs := c'.csrs } ∧ ∀ n, n ≠ 0x010 → c'.csr n = c.csr n

/-- R119, R126: VFABS clears the sign of every element, VFNEG flips it, VFCPY takes it from tb; VMOV lands the row as it stands with
its sixteen sidecar bytes; VROT lands element (j + k) mod n as element j; none raises a flag. -/
def Sys2Proof.Claim.SignAndMoveElements : Prop :=
  ∀ (c : Core) (d a b : BitVec 7) (ty : BitVec 2) (r : Nat) (bv ctl : DWord), r < 16 → ty ≠ 3 →
    let w := if ty = 0 then 32 else 16
    let ew := 8 * 2 ^ (ctl.toNat / 8 % 4)
    let out := fun i => (vecRow i c r bv ctl).foldl CAct.apply c
    (∀ j, j < 2048 / w →
      element ((out (.vfabs d a ty)).row d.toNat r) w j = element (c.row a.toNat r) w j &&& ~~~(BitVec.intMin w) ∧
      element ((out (.vfneg d a ty)).row d.toNat r) w j = element (c.row a.toNat r) w j ^^^ BitVec.intMin w ∧
      element ((out (.vfcpy d a b ty)).row d.toNat r) w j =
        (element (c.row a.toNat r) w j &&& ~~~(BitVec.intMin w)) ||| (tbElement c b.toNat r w j bv &&& BitVec.intMin w)) ∧
    (out (.vmov d a)).row d.toNat r = c.row a.toNat r ∧
    (∀ j, j < 16 → element ((out (.vmov d a)).side d.toNat) 8 (16 * r + j) = element (c.side a.toNat) 8 (16 * r + j)) ∧
    (∀ j, j < 2048 / ew → element ((out (.vrot d a b)).row d.toNat r) ew j =
      element (c.row a.toNat r) ew ((j + bv.toNat % 2 ^ 32) % (2048 / ew))) ∧
    ∀ i, (i = .vfabs d a ty ∨ i = .vfneg d a ty ∨ i = .vfcpy d a b ty ∨ i = .vmov d a ∨ i = .vrot d a b) →
      (out i).csrs = c.csrs ∧ (out i).regs = c.regs

namespace Sys2Proof.Claim

/-! ### Exact values (R91 to R97, R119, R120) -/

/-- A finite value as an integer at an exponent k that is no higher than its own; 0 for the rest. -/
def whole (v : FVal) (k : Int) : Int := match v with
  | .fin n m e => if n then -((m * 2 ^ (e - k).toNat : Nat) : Int) else (m * 2 ^ (e - k).toNat : Nat)
  | _ => 0
/-- The exponent of a finite value. -/
def expo : FVal → Int
  | .fin _ _ e => e
  | _ => 0
def isFinite : FVal → Bool
  | .fin _ _ _ => true
  | _ => false
def isZero : FVal → Bool
  | .fin _ 0 _ => true
  | _ => false
/-- Two values with one sign that are equal exactly. -/
def same (a b : FVal) : Prop := match a, b with
  | .nan, .nan => True
  | .inf x, .inf y => x = y
  | .fin n _ e, .fin n' _ e' => n = n' ∧ whole a (min e e') = whole b (min e e')
  | _, _ => False
/-- The value under an E8M0 scale byte (R94). -/
def underScale (z : Nat) (v : FVal) : FVal := if z = 255 then .nan else match v with
  | .fin n m e => .fin n m (e + ((z : Int) - 127))
  | x => x
/-- v is a + b exactly, with the flag that the operation raises (R119). -/
def sums (a b v : FVal) (f : Nat) : Prop := match a, b with
  | .nan, _ => v = .nan ∧ f = 0
  | _, .nan => v = .nan ∧ f = 0
  | .inf x, .inf y => if x = y then v = .inf x ∧ f = 0 else v = .nan ∧ f = 8
  | .inf x, .fin _ _ _ => v = .inf x ∧ f = 0
  | .fin _ _ _, .inf y => v = .inf y ∧ f = 0
  | .fin n m e, .fin n' m' e' => f = 0 ∧ ∃ x y z, v = .fin x y z ∧
      (∀ k, k ≤ e → k ≤ e' → k ≤ z → whole v k = whole a k + whole b k) ∧
      (y = 0 → (x = true ↔ (m = 0 ∧ n = true) ∧ m' = 0 ∧ n' = true))
/-- v is a × b exactly (R119). -/
def products (a b v : FVal) (f : Nat) : Prop := match a, b with
  | .nan, _ => v = .nan ∧ f = 0
  | _, .nan => v = .nan ∧ f = 0
  | .fin n m e, .fin n' m' e' => f = 0 ∧ same v (.fin (n != n') (m * m') (e + e'))
  | .inf x, .inf y => v = .inf (x != y) ∧ f = 0
  | .inf x, .fin n m _ => if m = 0 then v = .nan ∧ f = 8 else v = .inf (x != n) ∧ f = 0
  | .fin n m _, .inf y => if m = 0 then v = .nan ∧ f = 8 else v = .inf (n != y) ∧ f = 0
/-- a with its sign inverted. -/
def minus : FVal → FVal
  | .fin n m e => .fin (!n) m e
  | .inf n => .inf (!n)
  | .nan => .nan
/-- a < b (R119, R124). -/
def less (a b : FVal) : Prop := match a, b with
  | .nan, _ => False
  | _, .nan => False
  | .inf x, .inf y => x = true ∧ y = false
  | .inf x, .fin _ _ _ => x = true
  | .fin _ _ _, .inf y => y = false
  | .fin _ _ e, .fin _ _ e' => whole a (min e e') < whole b (min e e')
/-- a stands before b where −0 is below +0 (R119). -/
def before (a b : FVal) : Prop := less a b ∨ (isZero a = true ∧ isZero b = true ∧ a.sign = true ∧ b.sign = false)
/-- The reciprocal, the reciprocal root, 2^a and log2 a of R119: special values exactly; a finite result that its format may not hold is
within one unit of its lowest bit, that bit set, so that it lies on the true value's side of every shorter number. -/
def recips (a v : FVal) : Prop := match a with
  | .nan => v = .nan
  | .inf n => v = .fin n 0 0
  | .fin n m e => if m = 0 then v = .inf n else ∃ (q : Nat) (k : Int), v = .fin n q k ∧ 2 ^ 128 ≤ q ∧ k + e ≤ 0 ∧
      (q * m = 2 ^ (-(k + e)).toNat ∨
        (q % 2 = 1 ∧ (q - 1) * m < 2 ^ (-(k + e)).toNat ∧ 2 ^ (-(k + e)).toNat < (q + 1) * m))
def recipRoots (a v : FVal) (f : Nat) : Prop := match a with
  | .nan => v = .nan ∧ f = 0
  | .inf n => if n then v = .nan ∧ f = 8 else v = .fin false 0 0 ∧ f = 0
  | .fin n m e => if m = 0 then v = .inf n ∧ f = 0 else if n then v = .nan ∧ f = 8 else f = 0 ∧
      ∃ (q : Nat) (k : Int), v = .fin false q k ∧ 2 ^ 80 ≤ q ∧ 2 * k + e ≤ 0 ∧
        (q * q * m = 2 ^ (-(2 * k + e)).toNat ∨ (q % 2 = 1 ∧ (q - 1) * (q - 1) * m < 2 ^ (-(2 * k + e)).toNat ∧
          2 ^ (-(2 * k + e)).toNat < (q + 1) * (q + 1) * m))
/-- 2^a is exact for an integer a; else it is odd at its lowest bit, between the powers of 2 next to it. -/
def powers (a v : FVal) : Prop := match a with
  | .nan => v = .nan
  | .inf n => v = if n then .fin false 0 0 else .inf false
  | .fin n m e =>
    (∀ i : Int, whole (.fin n m e) (min e 0) = i * (2 ^ (-min e 0).toNat : Nat) → v = .fin false 1 i) ∧
    (∀ i : Int, i * (2 ^ (-min e 0).toNat : Nat) < whole (.fin n m e) (min e 0) →
      whole (.fin n m e) (min e 0) < (i + 1) * (2 ^ (-min e 0).toNat : Nat) →
      ∃ q : Nat, v = .fin false (2 * q + 1) (i - 225) ∧ 2 ^ 224 ≤ q ∧ q ≤ 2 ^ 225)
/-- log2 a is exact for a power of two; else it is odd at its lowest bit, strictly between the integers next to it. -/
def logs (a v : FVal) (f : Nat) : Prop := match a with
  | .nan => v = .nan ∧ f = 0
  | .inf n => if n then v = .nan ∧ f = 8 else v = .inf false ∧ f = 0
  | .fin n m e => if m = 0 then v = .inf true ∧ f = 0 else if n then v = .nan ∧ f = 8 else f = 0 ∧
      let i : Int := (m.log2 : Int) + e
      (m = 2 ^ m.log2 → v = .fin (decide (i < 0)) i.natAbs 0) ∧
      (m ≠ 2 ^ m.log2 → ∃ q : Int, v = .fin (decide (q < 0)) q.natAbs (-129) ∧ q % 2 = 1 ∧ i * 2 ^ 129 < q ∧ q < (i + 1) * 2 ^ 129)
/-- v is the exact sum of a row (R120). -/
def rowSums (l : List FVal) (v : FVal) (f : Nat) : Prop :=
  (FVal.nan ∈ l → v = .nan ∧ f = 0) ∧
  (FVal.nan ∉ l → .inf false ∈ l → .inf true ∈ l → v = .nan ∧ f = 8) ∧
  (FVal.nan ∉ l → ∀ x, .inf x ∈ l → .inf (!x) ∉ l → v = .inf x ∧ f = 0) ∧
  (l.all isFinite = true → f = 0 ∧ ∃ x y z, v = .fin x y z ∧
    (∀ k, k ≤ z → (∀ u ∈ l, k ≤ expo u) → whole v k = (l.map fun u => whole u k).sum) ∧
    (y = 0 → (x = true ↔ ∀ u ∈ l, isZero u = true ∧ u.sign = true)))
/-- v is the largest of a row (R120). -/
def rowTop (l : List FVal) (v : FVal) : Prop :=
  (FVal.nan ∈ l → v = .nan) ∧ (FVal.nan ∉ l → v ∈ l ∧ ∀ u ∈ l, ¬ before v u)
/-- The fields td, ta, tb and type of a class 9 word of arithmetic; ta again where it has no tb. -/
def floatWord : Instr → Option (BitVec 7 × BitVec 7 × BitVec 7 × BitVec 2)
  | .vfadd d a b t | .vfsub d a b t | .vfmul d a b t | .vfma d a b t | .vfmin d a b t | .vfmax d a b t | .vfscl d a b t => some (d, a, b, t)
  | .vfrcp d a t | .vfrsq d a t | .vfexp2 d a t | .vflog2 d a t | .vfrsum d a t | .vfrmax d a t => some (d, a, a, t)
  | _ => none
/-- Class 9 by operation: v is its exact value on a, b and the old td element d, or on the row l, with its flag; m is b's signed integer
(R119, R120). -/
def floatTable (a b d : FVal) (m : Int) (l : List FVal) (v : FVal) (f : Nat) : Instr → Prop
  | .vfadd _ _ _ _ => sums a b v f
  | .vfsub _ _ _ _ => sums a (minus b) v f
  | .vfmul _ _ _ _ => products a b v f
  | .vfma _ _ _ _ => ∃ p g h, products a b p g ∧ sums p d v h ∧ f = max g h
  | .vfmin _ _ _ _ => f = 0 ∧ ((a = .nan ∨ b = .nan) → v = .nan) ∧
      (a ≠ .nan → b ≠ .nan → (v = a ∨ v = b) ∧ ¬ before a v ∧ ¬ before b v)
  | .vfmax _ _ _ _ => f = 0 ∧ ((a = .nan ∨ b = .nan) → v = .nan) ∧
      (a ≠ .nan → b ≠ .nan → (v = a ∨ v = b) ∧ ¬ before v a ∧ ¬ before v b)
  | .vfscl _ _ _ _ => f = 0 ∧ v = match a with | .fin n y e => .fin n y (e + m) | x => x
  | .vfrcp _ _ _ => f = 0 ∧ recips a v
  | .vfrsq _ _ _ => recipRoots a v f
  | .vfexp2 _ _ _ => f = 0 ∧ powers a v
  | .vflog2 _ _ _ => logs a v f
  | .vfrsum _ _ _ => rowSums l v f
  | .vfrmax _ _ _ => f = 0 ∧ rowTop l v
  | _ => False
/-- m·2^k rounded to an integer magnitude n by a mode: 0 RNE, 1 RZ, 2 RU, 3 RD (R96); and whether that is exact. -/
def rounds (mode : Nat) (neg : Bool) (m : Nat) (k : Int) (n : Nat) : Prop :=
  let u := 2 ^ (-k).toNat
  let away := (mode = 2 ∧ neg = false) ∨ (mode = 3 ∧ neg = true)
  (0 ≤ k → n = m * 2 ^ k.toNat) ∧
    (k < 0 → (mode = 0 → 2 * ((m : Int) - (n * u : Nat)).natAbs ≤ u ∧ (2 * ((m : Int) - (n * u : Nat)).natAbs = u → n % 2 = 0)) ∧
      (mode ≠ 0 → ¬ away → n = m / u) ∧ (mode ≠ 0 → away → n = (m + (u - 1)) / u))
def isExact (m : Nat) (k : Int) (n : Nat) : Prop := 0 ≤ k ∨ n * 2 ^ (-k).toNat = m
/-- The largest finite value of a floating format (R91). -/
def largest (code : Nat) : Nat × Int :=
  match code with
  | 1 => (14, 5)
  | 2 => (7, 13)
  | 3 => (3, 1)
  | 4 => (255, 120)
  | 5 => (2047, 5)
  | 6 => (16777215, 104)
  | 9 => (15, -1)
  | _ => (7, 2)
/-- Mantissa bits of a format, and the exponent of its smallest normal value (R91). -/
def shape (code : Nat) : Nat × Int :=
  match code with
  | 1 => (3, -6)
  | 2 => (2, -14)
  | 3 => (1, 0)
  | 4 => (7, -126)
  | 5 => (10, -14)
  | 6 => (23, -126)
  | 9 => (3, 0)
  | _ => (2, -2)
/-- The canonical NaN of a format that has one (R92). -/
def canonical (code : Nat) : Nat :=
  match code with
  | 1 => 0x7F
  | 2 => 0x7E
  | 4 => 0x7FC0
  | 5 => 0x7E00
  | _ => 0x7FC00000

end Sys2Proof.Claim

/-- R119, R120: where row r of a class 9 step of arithmetic lands, each element of that row of td is the exact value that the operation
has on the elements of ta, tb and td, or on the row, rounded once by RNE, and FLAGS takes the flags of the operation and of the
rounding; VFEXP2 and VFLOG2 are exact where R119 makes them so, and inexact within the binade, or the integers, next to the true
value elsewhere; every other row and CSR is as before. -/
def Sys2Proof.Claim.FloatElements : Prop :=
  ∀ (c : Core) (i : Instr) (d x y : BitVec 7) (ty : BitVec 2) (r : Nat) (bv ctl : DWord), r < 16 → floatWord i = some (d, x, y, ty) → ty ≠ 3 →
    let w := if ty = 0 then 32 else 16
    let code := if ty = 0 then 6 else if ty = 1 then 4 else 5
    let val := fun e : BitVec w => decodeElem code e.toNat
    let l := (List.range (2048 / w)).map fun j => val (element (c.row x.toNat r) w j)
    let c' := (vecRow i c r bv ctl).foldl CAct.apply c
    ∃ out : List (Nat × Nat), out.length = 2048 / w ∧
      (∀ j o, out[j]? = some o → element (c'.row d.toNat r) w j = BitVec.ofNat w o.1 ∧ ∃ v f,
        floatTable (val (element (c.row x.toNat r) w j)) (val (tbElement c y.toNat r w j bv)) (val (element (c.row d.toNat r) w j))
          (tbElement c y.toNat r w j bv).toInt l v f i ∧
        o = ((convert code 0 false v).1, (convert code 0 false v).2 ||| f)) ∧
      c'.csr 0x010 = c.csr 0x010 ||| BitVec.ofNat 64 ((out.map Prod.snd).foldl (· ||| ·) 0) ∧
      (∀ t k, t < 96 → k < 16 → (t, k) ≠ (d.toNat, r) → c'.row t k = c.row t k) ∧ (∀ n, n ≠ 0x010 → c'.csr n = c.csr n) ∧
      c' = { c with rows := c'.rows, rowBad := c'.rowBad, csrs := c'.csrs }

/-- R96, R97: a conversion rounds the exact value once, by its mode, to the unit that the value's binade has in the format; it sets
inexact where the result differs and underflow where it is also below the smallest normal value; a value that, so rounded, passes
the largest finite one becomes what R97 gives, as do infinities and NaN; an integer format takes its nearest bound. -/
def Sys2Proof.Claim.ConversionsRound : Prop :=
  ∀ (code mode : Nat) (sat : Bool), mode < 4 →
    (code ∈ [1, 2, 3, 4, 5, 6, 9, 10] →
      let top := FVal.fin false (largest code).1 (largest code).2
      let bounded := code = 3 ∨ code = 9 ∨ code = 10
      let gives := fun (r : Nat × Nat) (v : FVal) f => r.1 < 2 ^ fmtBits code ∧ same (decodeElem code r.1) v ∧ r.2 = f
      (∀ neg m e, m ≠ 0 → ∃ n : Nat,
        let unit : Int := max ((m.log2 : Int) + e) (shape code).2 - (shape code).1
        let small := (m.log2 : Int) + e < (shape code).2
        let r := convert code mode sat (.fin neg m e)
        let inf := mode = 0 ∨ (mode = 2 ∧ neg = false) ∨ (mode = 3 ∧ neg = true)
        rounds mode neg m (e - unit) n ∧
          (¬ less top (.fin false n unit) → (isExact m (e - unit) n → gives r (.fin neg n unit) 0) ∧
            (¬ isExact m (e - unit) n → (small → gives r (.fin neg n unit) 3) ∧ (¬ small → gives r (.fin neg n unit) 1))) ∧
          (less top (.fin false n unit) → sat = true ∨ bounded ∨ ¬ inf → gives r (.fin neg (largest code).1 (largest code).2) 5) ∧
          (less top (.fin false n unit) → sat = false → ¬ bounded → inf →
            (code = 1 → r = (0x7F, 5)) ∧ (code ≠ 1 → gives r (.inf neg) 5))) ∧
      (∀ neg e, gives (convert code mode sat (.fin neg 0 e)) (.fin neg 0 e) 0) ∧
      (∀ neg, let r := convert code mode sat (.inf neg)
        (sat = true ∨ bounded → gives r (.fin neg (largest code).1 (largest code).2) (if code = 1 ∨ bounded then 8 else 0)) ∧
          (sat = false → ¬ bounded → (code = 1 → r = (0x7F, 8)) ∧ (code ≠ 1 → gives r (.inf neg) 0))) ∧
      (bounded → convert code mode sat .nan = (0, 8)) ∧ (¬ bounded → convert code mode sat .nan = (canonical code, 0))) ∧
    (code ∈ [0, 7, 8, 11] →
      let w := fmtBits code
      (∀ neg m e, ∃ n : Nat, rounds mode neg m e n ∧
        let v : Int := if neg = true then -(n : Int) else n
        let r := convert code mode sat (.fin neg m e)
        (v < -2 ^ (w - 1) → r = (2 ^ (w - 1), 5)) ∧ (2 ^ (w - 1) ≤ v → r = (2 ^ (w - 1) - 1, 5)) ∧
          (-2 ^ (w - 1) ≤ v → v < 2 ^ (w - 1) → r.1 = (BitVec.ofInt w v).toNat ∧ (isExact m e n → r.2 = 0) ∧ (¬ isExact m e n → r.2 = 1))) ∧
      convert code mode sat (.inf false) = (2 ^ (w - 1) - 1, 8) ∧ convert code mode sat (.inf true) = (2 ^ (w - 1), 8) ∧
      convert code mode sat .nan = (0, 8))

/-- R94, R95, R98, R99, R121 to R123: VCVT lands the part of row r that its formats and PART name, each element converted once, from under
its scale where SCL asks for it; VEXP lands 256 elements of the same value, or folded with their scale, and the row's scale bytes;
VMXS lands blocks of 32 under one scale each; FLAGS takes their flags. -/
def Sys2Proof.Claim.ConversionElements : Prop :=
  ∀ (c : Core) (d a : BitVec 7) (g : BitVec 4) (mode : BitVec 2) (sat fold : BitVec 1) (r : Nat) (bv ctl : DWord), r < 16 →
    let sf := ctl.toNat / 4096 % 16
    let mf := ctl.toNat / 256 % 16
    let part := ctl.toNat / 32 % 8
    let ws := fmtBits sf
    let src := fun k => decodeElem sf (element (c.row a.toNat r) ws k).toNat
    let scale := fun k => (element (c.side a.toNat) 8 (16 * r + k / 32)).toNat
    let lands := fun (i : Instr) (wt start : Nat) (out : List (Nat × Nat)) =>
      let c' := (vecRow i c r bv ctl).foldl CAct.apply c
      (∀ j o, out[j]? = some o → element (c'.row d.toNat r) wt (start + j) = BitVec.ofNat wt o.1) ∧
        (∀ j, j < 2048 / wt → j < start ∨ start + out.length ≤ j → element (c'.row d.toNat r) wt j = element (c.row d.toNat r) wt j) ∧
        c'.csr 0x010 = c.csr 0x010 ||| BitVec.ofNat 64 ((out.map Prod.snd).foldl (· ||| ·) 0) ∧ ∀ n, n ≠ 0x010 → c'.csr n = c.csr n
    let side := fun i => ((vecRow i c r bv ctl).foldl CAct.apply c).side d.toNat
    ((sf ≤ 8 ∨ sf = 11) → (g ≤ 8 ∨ g = 11) →
      let wt := fmtBits g.toNat
      let ns := 2048 / ws
      let nt := 2048 / wt
      let scl := ctl.toNat % 2 = 1 ∧ 1 ≤ sf ∧ sf ≤ 3
      let one := fun k => convert g.toNat mode.toNat (sat = 1) (if scl then underScale (scale k) (src k) else src k)
      (nt ≤ ns → lands (.vcvt d a g mode sat) wt 0 ((List.range nt).map fun j => one (part % (ns / nt) * nt + j))) ∧
        (ns < nt → lands (.vcvt d a g mode sat) wt (part % (nt / ns) * ns) ((List.range ns).map one)) ∧
        side (.vcvt d a g mode sat) = c.side d.toNat) ∧
    ((sf = 9 ∨ sf = 10 ∨ sf = 11 ∨ (sf = 1 ∧ fold = 1)) →
      let ns := if sf = 1 then 256 else if sf = 11 then 512 else 340
      let p := if sf = 1 then 0 else part % 2
      (∃ out : List (Nat × Nat), out.length = 256 ∧ lands (.vexp d a fold) 8 0 out ∧ ∀ j o, out[j]? = some o →
        let k := 256 * p + j
        (ns ≤ k → o = (0, 0)) ∧
          (k < ns → fold = 0 → o.1 < 256 ∧ same (decodeElem 1 o.1) (src k) ∧ o.2 = 0) ∧
          (k < ns → fold = 1 → o = convert 1 0 true (if sf = 11 then src k else underScale (scale k) (src k)))) ∧
      (∀ β, β < 16 → element (side (.vexp d a fold)) 8 (16 * r + β) =
        if 8 ≤ β ∨ fold = 1 ∨ sf = 11 ∨ ns ≤ 256 * p + 32 * β then 0x7F else element (c.side a.toNat) 8 (16 * r + 8 * p + β)) ∧
      ∀ n, n < 256 → n / 16 ≠ r → element (side (.vexp d a fold)) 8 n = element (c.side d.toNat) 8 n) ∧
    ((4 ≤ sf ∧ sf ≤ 6) → (1 ≤ mf ∧ mf ≤ 3) →
      let wt := fmtBits mf
      let ns := 2048 / ws
      let first := part % (2048 / wt / ns) * ns
      (∃ out : List (Nat × Nat), out.length = ns ∧ lands (.vmxs d a) wt first out ∧ ∀ β, β < ns / 32 →
        let vs := (List.range 32).map fun k => src (32 * β + k)
        let z := (element (side (.vmxs d a)) 8 (16 * r + first / 32 + β)).toNat
        let emax : Int := if mf = 1 then 8 else if mf = 2 then 15 else 2
        (vs.all isFinite = false → z = 255 ∧ ∀ k, k < 32 → out[32 * β + k]? = some (0, 0)) ∧
          (vs.all isFinite = true → (vs.all isZero = true → z = 0) ∧
            (∀ t : Int, (∃ u ∈ vs, isZero u = false ∧ ∃ n m e, u = .fin n m e ∧ (m.log2 : Int) + e = t) →
              (∀ n m e, .fin n m e ∈ vs → m ≠ 0 → (m.log2 : Int) + e ≤ t) → (z : Int) = max (-127) (min 127 (t - emax)) + 127) ∧
            ∀ k, k < 32 → ∃ n m e, src (32 * β + k) = .fin n m e ∧
              let o := convert mf 0 true (.fin n m (e - ((z : Int) - 127)))
              out[32 * β + k]? = some (o.1, o.2 &&& 11))) ∧
      ∀ n, n < 256 → n < 16 * r + first / 32 ∨ 16 * r + first / 32 + ns / 32 ≤ n →
        element (side (.vmxs d a)) 8 n = element (c.side d.toNat) 8 n)

/-- R124 to R126: compares write all ones where their condition holds, VFCMPLT and VFCMPLE set invalid where an element is NaN; VSEL takes
ta where td is not 0, and tb elsewhere; VSHUF, VPCK, VUPK and VIOTA move whole elements, VPCK saturating with overflow; VTRN transposes
each block of 16 columns and VBCR copies the row that its scalar names, with the sidecar bytes of the row. -/
def Sys2Proof.Claim.ComparesAndMovesLand : Prop :=
  ∀ (c : Core) (d a b : BitVec 7) (r : Nat) (bv ctl : DWord), r < 16 →
    let w := 8 * 2 ^ (ctl.toNat / 8 % 4)
    let n := 2048 / w
    let ft := ctl.toNat / 2 % 4
    let fw := if ft = 0 then 32 else 16
    let code := if ft = 0 then 6 else if ft = 1 then 4 else 5
    let out := fun i => (vecRow i c r bv ctl).foldl CAct.apply c
    let el := fun i wd j => element ((out i).row d.toNat r) wd j
    let x := fun j => element (c.row a.toNat r) w j
    let y := fun j => tbElement c b.toNat r w j bv
    let u := fun j => decodeElem code (element (c.row a.toNat r) fw j).toNat
    let v := fun j => decodeElem code (tbElement c b.toNat r fw j bv).toNat
    let ones := fun wd (p : Prop) (e : BitVec wd) => (p → e = BitVec.allOnes wd) ∧ (¬ p → e = 0)
    (∀ j, j < n → ones w (x j = y j) (el (.vcmpeq d a b) w j) ∧ ones w ((x j).toInt < (y j).toInt) (el (.vcmplt d a b) w j) ∧
      ones w ((x j).toInt ≤ (y j).toInt) (el (.vcmple d a b) w j) ∧
      el (.vsel d a b) w j = (if element (c.row d.toNat r) w j ≠ 0 then x j else y j) ∧
      el (.vshuf d a b) w j = x ((y j).toNat % n) ∧ el (.viota d) w j = BitVec.ofNat w (r * n + j)) ∧
    (ft ≠ 3 → (∀ j, j < 2048 / fw →
        ones fw (u j ≠ .nan ∧ v j ≠ .nan ∧ ¬ less (u j) (v j) ∧ ¬ less (v j) (u j)) (el (.vfcmpeq d a b) fw j) ∧
        ones fw (less (u j) (v j)) (el (.vfcmplt d a b) fw j) ∧
        ones fw (u j ≠ .nan ∧ v j ≠ .nan ∧ ¬ less (v j) (u j)) (el (.vfcmple d a b) fw j)) ∧
      ∀ i, (i = .vfcmplt d a b ∨ i = .vfcmple d a b) →
        ((∃ j, j < 2048 / fw ∧ (u j = .nan ∨ v j = .nan)) → (out i).csr 0x010 = c.csr 0x010 ||| 8) ∧
        ((∀ j, j < 2048 / fw → u j ≠ .nan ∧ v j ≠ .nan) → (out i).csrs = c.csrs)) ∧
    (w ≠ 8 → let h := w / 2
      let low := fun (e : BitVec w) => e.toInt < -2 ^ (h - 1)
      let high := fun (e : BitVec w) => 2 ^ (h - 1) ≤ e.toInt
      let packed := fun (e : BitVec w) (o : BitVec h) =>
        (low e → o = BitVec.intMin h) ∧ (high e → o = BitVec.intMax h) ∧ (¬ low e → ¬ high e → o = e.setWidth h)
      (∀ j, j < n → packed (x j) (el (.vpck d a b) h j) ∧ packed (y j) (el (.vpck d a b) h (n + j)) ∧
        el (.vupk d a) w j = (element (c.row a.toNat r) h (ctl.toNat / 32 % 2 * n + j)).signExtend w) ∧
      ((∃ j, j < n ∧ (low (x j) ∨ high (x j) ∨ low (y j) ∨ high (y j))) → (out (.vpck d a b)).csr 0x010 = c.csr 0x010 ||| 4) ∧
      ((∀ j, j < n → ¬ low (x j) ∧ ¬ high (x j) ∧ ¬ low (y j) ∧ ¬ high (y j)) → (out (.vpck d a b)).csrs = c.csrs)) ∧
    (∀ i, (i = .vcmpeq d a b ∨ i = .vcmplt d a b ∨ i = .vcmple d a b ∨ i = .vsel d a b ∨ i = .vshuf d a b ∨ i = .viota d ∨
      i = .vfcmpeq d a b ∨ i = .vupk d a) → (out i).csrs = c.csrs ∧ (out i).sides = c.sides) ∧
    (let trn := (wholeSource (.vtrn d a) c r bv ctl).foldl CAct.apply c
      let bcr := (wholeSource (.vbcr d a b) c r bv ctl).foldl CAct.apply c
      let q := bv.toNat % 16
      (∀ k j, k < n / 16 → j < 16 → element (trn.row d.toNat r) w (16 * k + j) = element (c.row a.toNat j) w (16 * k + r)) ∧
      bcr.row d.toNat r = c.row a.toNat q ∧
      ∀ j, j < 16 → element (trn.side d.toNat) 8 (16 * r + j) = element (c.side a.toNat) 8 (16 * r + j) ∧
        element (bcr.side d.toNat) 8 (16 * r + j) = element (c.side a.toNat) 8 (16 * q + j))

/-- Elements of vector results: IntegerElements, SignAndMoveElements, FloatElements, ConversionsRound, ConversionElements, ComparesAndMovesLand hold. -/
def Obligations.VectorElements : Prop :=
  Claim.IntegerElements ∧ Claim.SignAndMoveElements ∧ Claim.FloatElements ∧ Claim.ConversionsRound ∧ Claim.ConversionElements ∧ Claim.ComparesAndMovesLand

/-! ## Matrix words (R100 to R103, R129 to R145) -/

namespace Sys2Proof.Claim

/-- The format entry that fsel names, at loop level FMTL where fsel[4] is 1; none where FMTL names no level (R131). -/
def entryOf (s : State) (fsel : BitVec 5) : Option Nat :=
  let l := (s.cc.csr 0x011).toNat % 8
  if fsel.toNat < 16 then some fsel.toNat
  else if 6 ≤ l then none else some ((fsel.toNat % 16 + lcOf s.rr s.cc s.vidx l) % 16)
/-- The word in a format entry. -/
def entryWord (s : State) (fsel : BitVec 5) : Nat := (SMap.get 0 s.cc.fmt ((entryOf s fsel).getD 0)).toNat
/-- MMA by A's format: occupancy and largest depth (R132). -/
def mmaTable : Nat → Nat × Nat
  | 0 => (8, 256)
  | 1 => (4, 256)
  | 2 => (3, 256)
  | 3 => (2, 512)
  | 4 => (8, 128)
  | _ => (11, 128)
/-- The combinations of AFMT, BFMT and SCALE that MMA accepts (R132). -/
def mmaAccepts (a b sc : Nat) : Bool :=
  (a = 0 && b = 0 && sc = 0) || ((a = 1 || a = 2) && (b = 1 || b = 2)) || (a = 3 && b = 3) || (a = 4 && b = 4 && sc = 0) ||
    (a = 5 && b = 5 && sc = 0)
/-- A mask register: rows, columns, depth, reserved bits; m = 0 names every row and column, and the largest depth (R133). -/
def maskTable (s : State) (m : BitVec 3) (largest : Nat) : Nat × Nat × Nat × Nat :=
  if m = 0 then (0xFFFF, 0xFFFF, largest, 0)
  else
    let v := (s.val (56 + m.toNat)).toNat
    (v % 65536, v / 65536 % 65536, v / 4294967296 % 1024, v / 4398046511104)
def maskSource (m : BitVec 3) : List Nat := if m = 0 then [] else [56 + m.toNat]
/-- The positions 16·row + column that a mask enables. -/
def enabled (rows cols : Nat) : List Nat := (List.range 256).filter fun p => rows.testBit (p / 16) && cols.testBit (p % 16)
/-- The step of an MMA. -/
def mmaStep (s : State) (c : BitVec 3) (a : BitVec 7) (b : BitVec 4) (fs : BitVec 5) (z : BitVec 1) (m : BitVec 3) : EStep :=
  let e := entryWord s fs
  let (n, big) := mmaTable (e / 2 ^ 28 % 16)
  let k := maskTable s m big
  { reads := [a.toNat], sides := if e / 2 ^ 18 % 4 = 1 ∨ e / 2 ^ 18 % 4 = 2 then [a.toNat] else []
    scal := maskSource m, tags := s.cc.btag b.toNat :: if z = 1 then [] else [s.cc.atag c.toNat]
    legal := (entryOf s fs).isSome && mmaAccepts (e / 2 ^ 28 % 16) (e / 2 ^ 24 % 16) (e / 2 ^ 18 % 4) && k.2.2.2 = 0 && decide (k.2.2.1 ≤ big)
    ready := decide (SMap.get 0 s.cc.pendSlot b.toNat ≤ s.cyc), obj := b.toNat, occ := n, land := n + 6, readEnd := 0
    bad := s.cc.slotErr b.toNat k.2.1 (decide (e / 2 ^ 18 % 4 = 1 ∨ e / 2 ^ 18 % 4 = 3)) || (z = 0 && s.cc.accErr c.toNat (enabled k.1 k.2.1))
    always := [s.upd (.pendAcc c.toNat (s.cyc + (n + 6) * s.mul))] }
/-- A step of MX whose sources agree on an absent clock, all else in order (R143). -/
structure Idles (s : State) (p : EStep) (tg : Tag) : Prop where
  actor : s.actor = .engine 0
  ready : p.ready = true
  tags : s.cc.common (p.allTags s.cc) = some tg
  absent : s.cc.present tg = false
  legal : p.legal = true
/-- A core whose accumulator c, or slot b, is pending until a cycle (R143). -/
def pendsAcc (c : Core) (k n : Nat) : Core := { c with pendAcc := SMap.set 0 c.pendAcc k n }
def pendsSlot (c : Core) (k n : Nat) : Core := { c with pendSlot := SMap.set 0 c.pendSlot k n }
/-- A signed byte of A in row i at depth k, and of slot column j (R134). -/
def aByte (s : State) (a : Nat) (x : BitVec 1) (i k : Nat) : BitVec 8 :=
  if x = 1 then element (s.cc.row a (k % 16)) 8 (16 * (k / 16) + i) else element (s.cc.row a i) 8 k
def bByte (s : State) (b j k : Nat) : BitVec 8 := element (SMap.get 0 s.cc.slotCols (b * 16 + j)) 8 k

end Sys2Proof.Claim

/-- R131 to R136, R142, R143, R103: MMA dequeues where its checks pass: one sum for each enabled position is due at n + 6, its
accumulator pending until then, MX occupied for the n of its A format, at the least of FIDMAX, FIDREQ and FIDEL; for INT8 each
sum is the exact sum of products of the signed bytes up to the depth. With its clock absent it takes the same cycles and lands
nothing (that it completes as its result would: assumptions 50). Errors at fidelity 1 to 3 are free values (assumptions 17). -/
def Sys2Proof.Claim.MmaDequeues : Prop :=
  ∀ (s : State) (c : BitVec 3) (a : BitVec 7) (b : BitVec 4) (fs : BitVec 5) (z x : BitVec 1) (m : BitVec 3) (tg : Tag),
    let p := mmaStep s c a b fs z m
    let e := entryWord s fs
    let n := (mmaTable (e / 2 ^ 28 % 16)).1
    let k := maskTable s m (mmaTable (e / 2 ^ 28 % 16)).2
    let fid := if e / 2 ^ 28 % 16 = 0 then 0 else min s.rr.fidmax (min (e / 2 ^ 16 % 4) ((s.cc.csr 0x013).toNat % 4))
    (Idles s p tg → ∃ t, exec (.mma c a b fs z x m) s = .next t ∧
      Dequeued s t 0 (busy s (pendsAcc s.cc c.toNat (s.cyc + (n + 6) * s.mul)) 0 n (n + 6) 0) []) ∧
    (Runs s p 0 tg → ∃ t sums width bad, exec (.mma c a b fs z x m) s = .next t ∧
      Dequeued s t 0 (busy s (pendsAcc (((consumed s p 0).map fun y => CAct.tileFull y false).foldl CAct.apply s.cc) c.toNat
          (s.cyc + (n + 6) * s.mul)) 0 n (n + 6) 0)
        [due s (n + 6) (.mmaLand s.cur c.toNat (z = 1) sums width fid tg bad s.fseq s.timed)] [] (if fid = 0 then 0 else 512) ∧
      sums.map Prod.fst = enabled k.1 k.2.1 ∧
      (e / 2 ^ 28 % 16 = 0 → width = 0 ∧ bad = false ∧ ∀ q ∈ sums, q.2.1 = 0 ∧ q.2.2.2.2.1 = false ∧ q.2.2.1 =
        ((List.range k.2.2.1).map fun d => (aByte s a.toNat x (q.1 / 16) d).toInt * (bByte s b.toNat (q.1 % 16) d).toInt).sum))

/-- R103, R135: an INT8 command lands: with Z every element of its accumulator is zeroed first; each element with a sum then has a
window of old + sum saturated to 48 signed bits, its exponent and special state kept, every other element is as before or zeroed,
and the tag lands with them; no other register, and no byte, changes. -/
def Obligations.IntegerSumsLand : Prop :=
  ∀ (s : State) (k : Key) (id c : Nat) (zero : Bool) (sums : List (Nat × Nat × Int × Int × Bool × Nat)) (tg : Tag)
    (seq : Nat) (timed : Bool),
    (∀ q ∈ sums, q.1 < 256 ∧ q.2.1 = 0 ∧ q.2.2.2.2.1 = false) → (sums.map Prod.fst).Nodup →
    let t := s.applyAll ((Item.mmaLand id c zero sums 0 0 tg false seq timed).run k s)
    let old := fun p => if zero then ({} : AccElem) else SMap.get {} (s.core id).accs (c * 256 + p)
    OnlyCore s t id { s.core id with accs := (t.core id).accs, accTag := (t.core id).accTag } ∧
      (t.core id).atag c = tg ∧
      (∀ q ∈ sums, SMap.get {} (t.core id).accs (c * 256 + q.1) =
        { old q.1 with win := BitVec.ofInt 48 (max (-(2 ^ 47)) (min (2 ^ 47 - 1) ((old q.1).win.toInt + q.2.2.1))) }) ∧
      (∀ p, p < 256 → p ∉ sums.map Prod.fst → SMap.get {} (t.core id).accs (c * 256 + p) = old p)

namespace Sys2Proof.Claim

/-- ⌊v · 2^k⌋, what floor_shift keeps (R7). -/
def flo (v k : Int) : Int := if 0 ≤ k then v * (2 ^ k.toNat : Nat) else v / (2 ^ (-k).toNat : Nat)
/-- Fraction and all bits of the adder of a floating command, by A's format (R101). -/
def fracBits (a : Nat) : Nat := if a = 3 then 13 else if a = 4 then 22 else if a = 5 then 30 else 14
def sumBits (a : Nat) : Nat := if a = 4 then 32 else if a = 5 then 40 else 25
/-- Element k of A's row i, and of slot column j (R134). -/
def aPart (s : State) (a w : Nat) (x : BitVec 1) (i k : Nat) : Nat :=
  if x = 1 then (element (s.cc.row a (k % 16)) w (16 * (k / 16) + i)).toNat else (element (s.cc.row a i) w k).toNat
def bPart (s : State) (b w j k : Nat) : Nat := (element (SMap.get 0 s.cc.slotCols (b * 16 + j)) w k).toNat
/-- Byte 16·i + j of a sidecar, or no scale (R94, R134). -/
def scaleOf (on : Bool) (side : Row) (i j : Nat) : Nat := if on then (element side 8 (16 * i + j)).toNat else 127
/-- One depth element of a command at a position: its two encodings and their scale bytes. -/
structure Term where
  fa : Nat
  fb : Nat
  x : Nat
  y : Nat
  zx : Nat
  zy : Nat
  deriving DecidableEq, Repr
/-- A factor's value, NaN where its scale is (R94); whether it is an infinity, and whether it is zero. -/
def Term.fx (t : Term) : FVal := if t.zx = 255 then .nan else decodeElem t.fa t.x
def Term.fy (t : Term) : FVal := if t.zy = 255 then .nan else decodeElem t.fb t.y
def infinite (v : FVal) : Prop := v = .inf false ∨ v = .inf true
def nought (v : FVal) : Prop := ∃ n e, v = .fin n 0 e
/-- An infinity times zero; a NaN term; an infinite term of a sign; a finite one that is not zero, with its exact value (R100). -/
def Term.spoilt (t : Term) : Prop := (infinite t.fx ∧ nought t.fy) ∨ (nought t.fx ∧ infinite t.fy)
def Term.isNan (t : Term) : Prop := t.fx = .nan ∨ t.fy = .nan ∨ t.spoilt
def Term.isInf (t : Term) (neg : Bool) : Prop := ¬ t.isNan ∧ (infinite t.fx ∨ infinite t.fy) ∧ (t.fx.sign != t.fy.sign) = neg
def Term.isFin (t : Term) (v e : Int) : Prop := ∃ n m a n' m' a', t.fx = .fin n m a ∧ t.fy = .fin n' m' a' ∧ m * m' ≠ 0 ∧
  v = (if (n != n') = true then -((m * m' : Nat) : Int) else (m * m' : Nat)) ∧ e = a + a' + ((t.zx : Int) - 127) + ((t.zy : Int) - 127)
/-- A finite term's exponent: of a subnormal factor, its format's smallest normal exponent (R100). -/
def Term.exponent (t : Term) : Int :=
  ((fmtOf t.fa).map fun f => termExp f t.x).getD 0 + ((fmtOf t.fb).map fun f => termExp f t.y).getD 0 + ((t.zx : Int) - 127) + ((t.zy : Int) - 127)
/-- The result of one command at one position: special state (1 NaN, 2 +Inf, 3 -Inf), sum, weight of its lowest bit, and whether it is
invalid (R100, R101). -/
def resultOf (ts : List Term) (spec : Nat) (S g : Int) (invalid : Bool) : Prop :=
  let nan := (∃ t ∈ ts, t.isNan) ∨ ((∃ t ∈ ts, t.isInf false) ∧ ∃ t ∈ ts, t.isInf true)
  (nan → spec = 1) ∧ (¬ nan → (∃ t ∈ ts, t.isInf false) → spec = 2) ∧ (¬ nan → (∃ t ∈ ts, t.isInf true) → spec = 3) ∧
    ((∀ t ∈ ts, ¬ t.isNan ∧ ¬ t.isInf false ∧ ¬ t.isInf true) → spec = 0) ∧
    (invalid = true ↔ (∃ t ∈ ts, t.spoilt) ∨ ((∃ t ∈ ts, t.isInf false) ∧ ∃ t ∈ ts, t.isInf true)) ∧
    ((∀ t ∈ ts, ∀ v e, ¬ t.isFin v e) → S = 0) ∧
    (∀ fa, (∀ t ∈ ts, t.fa = fa) → (∃ t ∈ ts, ∃ v e, t.isFin v e) →
      (∃ t ∈ ts, (∃ v e, t.isFin v e) ∧ t.exponent = g + fracBits fa) ∧ (∀ t ∈ ts, (∃ v e, t.isFin v e) → t.exponent ≤ g + fracBits fa) ∧
      ∃ parts : List Int, parts.length = ts.length ∧ S = parts.sum ∧ ∀ (k : Nat) (t : Term) (p : Int), ts[k]? = some t → parts[k]? = some p →
        (∀ v e, t.isFin v e → p = flo v (e - g)) ∧ ((∀ v e, ¬ t.isFin v e) → p = 0))
/-- An element b after a command's result has been added into a (R102). -/
def addsResult (a b : AccElem) (spec : Nat) (S g : Int) (n : Nat) : Prop :=
  let st := a.spec.toNat
  let W := a.win.toInt
  let x := a.exp.toInt
  let nan := st = 1 ∨ spec = 1 ∨ (st = 2 ∧ spec = 3) ∨ (st = 3 ∧ spec = 2)
  (nan → b = { a with spec := 1 }) ∧ (¬ nan → spec ≠ 0 → b = { a with spec := BitVec.ofNat 2 spec }) ∧
    (spec = 0 → st ≠ 1 → st ≠ 0 ∨ S = 0 → b = a) ∧
    (spec = 0 → st = 0 → S ≠ 0 → W = 0 → -(2 ^ (n - 1)) ≤ S → S < 2 ^ (n - 1) → g + n - 48 ≤ 511 →
      b = { a with win := BitVec.ofInt 48 (S * 2 ^ (48 - n)), exp := BitVec.ofInt 10 (g + n - 48) }) ∧
    (spec = 0 → st = 0 → S ≠ 0 → W ≠ 0 →
      let xn := max (x + 47) (g + n - 1) - 47
      let V := flo W (x - xn) + flo S (g - xn)
      let fits := -(2 ^ 47) ≤ V ∧ V < 2 ^ 47
      let V' := if fits then V else V / 2
      let x' := if fits then xn else xn + 1
      b = { a with win := BitVec.ofInt 48 V', exp := BitVec.ofInt 10 x', spec := if x' ≤ 511 then 0 else if V' < 0 then 3 else 2 })
/-- An accumulator element drained to a format, with its flags (R96, R97, R104): 4 BF16, 5 FP16, 6 FP32, 7 INT32; mode 0 RNE, 1 RZ, 2 RU,
3 RD. -/
def drains (el : AccElem) (o mode : Nat) (sat : Bool) (out flags : Nat) : Prop :=
  let W := el.win.toInt
  let x := el.exp.toInt
  let w := if o ≤ 5 then 16 else 32
  let nan := if o = 4 then 0x7FC0 else if o = 5 then 0x7E00 else if o = 6 then 0x7FC00000 else 0
  let inf := if o = 4 then 0x7F80 else if o = 5 then 0x7C00 else if o = 6 then 0x7F800000 else 0x7FFFFFFF
  (el.spec = 1 → out = nan ∧ flags = if o = 7 then 8 else 0) ∧
    (el.spec = 2 → out = inf ∧ flags = if o = 7 then 8 else 0) ∧
    (el.spec = 3 → out = (if o = 7 then 2 ^ 31 else 2 ^ (w - 1) + inf) ∧ flags = if o = 7 then 8 else 0) ∧
    (el.spec = 0 → W = 0 → out = (if mode = 3 ∧ o ≠ 7 then 2 ^ (w - 1) else 0) ∧ flags = 0) ∧
    (el.spec = 0 → W ≠ 0 → o ≠ 7 → (out, flags) = convert o mode sat (.fin (decide (W < 0)) W.natAbs x) ∧
      ∀ y neg m e j, y < 2 ^ w → decodeElem o y = .fin neg m e → m ≠ 0 → W = (if neg = true then -((m * 2 ^ j : Nat) : Int) else (m * 2 ^ j : Nat)) → x = e - (j : Nat) →
        out = y ∧ flags = 0) ∧
    (el.spec = 0 → W ≠ 0 → o = 7 → ∃ (n : Int) (exact : Prop), (0 ≤ x → n = W * 2 ^ x.toNat ∧ exact) ∧
      (x < 0 → (exact ↔ W = n * 2 ^ (-x).toNat) ∧
        (mode = 0 → 2 * (W - n * 2 ^ (-x).toNat).natAbs ≤ 2 ^ (-x).toNat ∧ (2 * (W - n * 2 ^ (-x).toNat).natAbs = 2 ^ (-x).toNat → n % 2 = 0)) ∧
        (mode = 1 → n = W.tdiv (2 ^ (-x).toNat)) ∧ (mode = 2 → n = -(-W / 2 ^ (-x).toNat)) ∧ (mode = 3 → n = W / 2 ^ (-x).toNat)) ∧
      (n < -(2 ^ 31) → out = 2 ^ 31 ∧ flags = 5) ∧ (2 ^ 31 ≤ n → out = 2 ^ 31 - 1 ∧ flags = 5) ∧
      (-(2 ^ 31) ≤ n → n < 2 ^ 31 → out = (BitVec.ofInt 32 n).toNat ∧ (exact → flags = 0) ∧ (¬ exact → flags = 1)))

end Sys2Proof.Claim

/-- R94, R100, R101, R134: an MMA of a floating format at fidelity 0 has one result due for each enabled position: the special state and
sum of the depth elements below the depth count, scaled where the format entry says so, with FLAGS.invalid. -/
def Sys2Proof.Claim.FloatingSumsForm : Prop :=
  ∀ (s : State) (c : BitVec 3) (a : BitVec 7) (b : BitVec 4) (fs : BitVec 5) (z x : BitVec 1) (m : BitVec 3) (tg : Tag),
    let p := mmaStep s c a b fs z m
    let e := entryWord s fs
    let fa := e / 2 ^ 28 % 16
    let fb := e / 2 ^ 24 % 16
    let sc := e / 2 ^ 18 % 4
    let k := maskTable s m (mmaTable fa).2
    Runs s p 0 tg → fa ≠ 0 → min s.rr.fidmax (min (e / 2 ^ 16 % 4) ((s.cc.csr 0x013).toNat % 4)) = 0 →
      ∃ t key sums bad, exec (.mma c a b fs z x m) s = .next t ∧
        (key, Item.mmaLand s.cur c.toNat (z = 1) sums (sumBits fa) 0 tg bad s.fseq s.timed) ∈ (t.region s.ctx).agenda ∧
        sums.map Prod.fst = enabled k.1 k.2.1 ∧
        (∃ inv : List Bool, inv.length = sums.length ∧ bad = inv.any id ∧ ∀ (n : Nat) q v, sums[n]? = some q → inv[n]? = some v →
          let i := q.1 / 16
          let j := q.1 % 16
          resultOf ((List.range k.2.2.1).map fun d =>
            { fa := fa, fb := fb, x := aPart s a.toNat (fmtBits fa) x i d, y := bPart s b.toNat (fmtBits fa) j d
              zx := scaleOf (decide (sc = 1 ∨ sc = 2)) (s.cc.side a.toNat) i (d / 32)
              zy := scaleOf (decide (sc = 1 ∨ sc = 3)) (SMap.get 0 s.cc.slotSides b.toNat) j (d / 32) }) q.2.1 q.2.2.1 q.2.2.2.1 v)

/-- R102, R135: a floating command at fidelity 0 lands: each element that has a result takes it as R102's window and exponent do, from zero
where Z is set; every other element is as before or zeroed, the tag lands with them, and FLAGS.invalid is set where the command is
invalid; no other register, and no byte, changes. -/
def Sys2Proof.Claim.FloatingSumsLand : Prop :=
  ∀ (s : State) (k : Key) (id c : Nat) (zero : Bool) (sums : List (Nat × Nat × Int × Int × Bool × Nat)) (n : Nat) (tg : Tag) (invalid : Bool)
    (seq : Nat) (timed : Bool), 0 < n → n ≤ 48 →
    (∀ q ∈ sums, q.1 < 256 ∧ q.2.1 ≤ 3 ∧ q.2.2.2.2.1 = false) → (sums.map Prod.fst).Nodup →
    let t := s.applyAll ((Item.mmaLand id c zero sums n 0 tg invalid seq timed).run k s)
    let old := fun p => if zero then ({} : AccElem) else SMap.get {} (s.core id).accs (c * 256 + p)
    OnlyCore s t id { s.core id with accs := (t.core id).accs, accTag := (t.core id).accTag, csrs := (t.core id).csrs } ∧
      (t.core id).atag c = tg ∧ (invalid = false → (t.core id).csrs = (s.core id).csrs) ∧
      (invalid = true → (t.core id).csr 0x010 = (s.core id).csr 0x010 ||| 8 ∧ ∀ x, x ≠ 0x010 → (t.core id).csr x = (s.core id).csr x) ∧
      (∀ q ∈ sums, addsResult (old q.1) (SMap.get {} (t.core id).accs (c * 256 + q.1)) q.2.1 q.2.2.1 q.2.2.2.1 n) ∧
      (∀ p, p < 256 → p ∉ sums.map Prod.fst → SMap.get {} (t.core id).accs (c * 256 + p) = old p)

/-- R96, R97, R104, R138: a row of MDRN that is read lands, as elements 16·q and on of its row, the drained values of the sixteen
accumulator elements of that row, and their flags join FLAGS as they land; reading changes nothing but what is due. -/
def Sys2Proof.Claim.DrainsRound : Prop :=
  ∀ (s : State) (k : Key) (id r land hist : Nat) (c : BitVec 3) (d : BitVec 7) (q : BitVec 3) (fs : BitVec 5) (e : Word), r < 16 →
    let o := e.toNat / 2 ^ 20 % 16
    let w := if o ≤ 5 then 16 else 32
    4 ≤ o → o ≤ 7 → (o ≤ 5 ∨ q.toNat < 4) →
    let t := s.applyAll ((Item.mxRow id (.mdrn c d q fs) r e land hist).run k s)
    t = { s with regions := t.regions } ∧ (∀ x, x ≠ id / 2048 → t.region x = s.region x) ∧
    ∃ (l : List CAct) (out : List (Nat × Nat)), out.length = 16 ∧
      ({ k with due := land, phase := 0 }, Item.land id l) ∈ (t.region (id / 2048)).agenda ∧
      (∀ j v f, out[j]? = some (v, f) →
        drains (SMap.get {} (s.core id).accs (c.toNat * 256 + r * 16 + j)) o (e.toNat / 2 ^ 14 % 4) (e.toNat / 2 ^ 13 % 2 = 1) v f) ∧
      ∀ c' : Core, let d' := l.foldl CAct.apply c'
        (∀ j v f, out[j]? = some (v, f) → element (d'.row d.toNat r) w (16 * q.toNat + j) = BitVec.ofNat w v) ∧
        d'.csr 0x010 = c'.csr 0x010 ||| BitVec.ofNat 64 ((out.map Prod.snd).foldl (· ||| ·) 0) ∧
        ∀ x, x ≠ 0x010 → d'.csr x = c'.csr x

/-- R134, R137 to R143: MLDB reads row r of its tile at +r, the slot, its sidecar and tag due at +18; MDRN reads accumulator row r at
+r, each due rounded at 4 + r; MZERO's zeros are due at +6; MFMT's entry at +1, from a source with tag k0 or k1; MHST's clear at
+24; each occupies MX as R142 says, and so does one whose clock is absent, which lands nothing; that its completion stays that of its
result is read from R142 and R143 (assumptions 50). -/
def Sys2Proof.Claim.MatrixStepsDequeue : Prop :=
  ∀ (s : State) (c : BitVec 3) (a : BitVec 7) (b : BitVec 4) (fs : BitVec 5) (z x : BitVec 1) (m q : BitVec 3) (tg : Tag),
    let e := SMap.get 0 s.cc.fmt ((entryOf s fs).getD 0)
    let ofmt := e.toNat / 2 ^ 20 % 16
    let pl : EStep := { reads := [a.toNat], sides := if z = 0 then [a.toNat] else [], legal := (entryOf s fs).isSome && (x = 0 || decide (e.toNat / 2 ^ 24 % 16 ≤ 5)), occ := 16, land := 18,
                        always := [s.upd (.pendSlot b.toNat (s.cyc + 18 * s.mul))] }
    let pd : EStep := { tags := [s.cc.atag c.toNat, s.cc.ttag a.toNat], dst := some a.toNat, legal := (entryOf s fs).isSome && decide (4 ≤ ofmt ∧ ofmt ≤ 7) && !(decide (6 ≤ ofmt) && decide (4 ≤ q.toNat)),
                        ready := decide (SMap.get 0 s.cc.pendAcc c.toNat ≤ s.cyc), obj := c.toNat,
                        bad := s.cc.accErr c.toNat (List.range 256), land := 24, fullAt := 19 }
    let k := maskTable s m 512
    let until_ := max (SMap.get 0 s.cc.pendAcc c.toNat) (s.cyc + 6 * s.mul)
    let pz : EStep := { scal := maskSource m, tags := b :: (if m = 0 then [] else [s.cc.atag c.toNat]), legal := k.2.2.2 = 0, occ := 1,
                        land := 6, always := [s.upd (.pendAcc c.toNat until_)] }
    (Idles s pl tg → ∃ t, exec (.mldb a b fs z x) s = .next t ∧
      Dequeued s t 0 (busy s (pendsSlot s.cc b.toNat (s.cyc + 18 * s.mul)) 0 16 18 0) []) ∧
    (Idles s pd tg → ∃ t, exec (.mdrn c a q fs) s = .next t ∧ Dequeued s t 0 (busy s s.cc 0 16 24 0) []) ∧
    (Idles s pz tg → ∃ t, exec (.mzero c b m) s = .next t ∧ Dequeued s t 0 (busy s (pendsAcc s.cc c.toNat until_) 0 1 6 0) []) ∧
    (Runs s pl 0 tg → ∃ t, exec (.mldb a b fs z x) s = .next t ∧
      Dequeued s t 0 (busy s (pendsSlot s.cc b.toNat (s.cyc + 18 * s.mul)) 0 16 18 0)
        (due s 18 (.land s.cur [.slotSide b.toNat (if z = 1 then BitVec.ofNat 2048 (rowOf 8 (List.replicate 256 0x7F)) else s.cc.side a.toNat) false,
            .slotTag b.toNat tg]) ::
          (List.range 16).map (fun r => readAt s r (.mxRow s.cur (.mldb a b fs z x) r e (s.cyc + 18 * s.mul) 0)) ++
          (consumed s pl 0).map fun y => readAt s 15 (.full s.cur y false))) ∧
    (Runs s pd 0 tg → ∃ t, exec (.mdrn c a q fs) s = .next t ∧ Dequeued s t 0 (busy s s.cc 0 16 24 0)
      (due s 4 (.land s.cur [.tileTag a.toNat tg]) ::
        (List.range 16).map (fun r => readAt s r (.mxRow s.cur (.mdrn c a q fs) r e (s.cyc + (4 + r) * s.mul) (s.cyc + 24 * s.mul))) ++
        filled s pd)) ∧
    (Runs s pz 0 tg → ∃ t, exec (.mzero c b m) s = .next t ∧ Dequeued s t 0 (busy s (pendsAcc s.cc c.toNat until_) 0 1 6 0)
      [due s 6 (.land s.cur ((enabled k.1 k.2.1).map (fun p => .acc c.toNat (p / 16) (p % 16) {}) ++ [.accTag c.toNat tg]))]) ∧
    (∀ r : BitVec 6, Runs s { scal := [r.toNat], legal := decide ((s.val r.toNat).toNat % 1024 = 0), occ := 1, land := 1 } 0 tg →
      s.tag r.toNat = 0 ∨ s.tag r.toNat = 1 → ∃ t, exec (.mfmt b r) s = .next t ∧ Dequeued s t 0 (busy s s.cc 0 1 1 0)
        [due s 1 (.land s.cur [.fmt b.toNat (BitVec.ofNat 32 (s.val r.toNat).toNat)])]) ∧
    (∀ h : BitVec 2, Runs s { occ := 1, land := 24 } 0 tg → ∃ t, exec (.mhst h) s = .next t ∧
      Dequeued s t 0 (busy s s.cc 0 1 24 0) [due s 24 (.histClear s.cur h.toNat)])

namespace Sys2Proof.Claim

/-- The step of a matrix word, and the acting core with what the step leaves pending, also where its clock is absent (R137 to R143). -/
def matrixTable (s : State) : Instr → Option (EStep × Core)
  | .mma c a b fs z _ m =>
    let p := mmaStep s c a b fs z m
    some (p, pendsAcc s.cc c.toNat (s.cyc + p.land * s.mul))
  | .mldb a b fs z x =>
    let n := s.cyc + 18 * s.mul
    some ({ reads := [a.toNat], sides := if z = 0 then [a.toNat] else [], occ := 16, land := 18, always := [s.upd (.pendSlot b.toNat n)]
            legal := (entryOf s fs).isSome && (x = 0 || decide (entryWord s fs / 2 ^ 24 % 16 ≤ 5)) }, pendsSlot s.cc b.toNat n)
  | .mdrn c d q fs =>
    let o := entryWord s fs / 2 ^ 20 % 16
    some ({ tags := [s.cc.atag c.toNat, s.cc.ttag d.toNat], dst := some d.toNat, land := 24, fullAt := 19, obj := c.toNat
            ready := decide (SMap.get 0 s.cc.pendAcc c.toNat ≤ s.cyc), bad := s.cc.accErr c.toNat (List.range 256)
            legal := (entryOf s fs).isSome && decide (4 ≤ o ∧ o ≤ 7) && !(decide (6 ≤ o) && decide (4 ≤ q.toNat)) }, s.cc)
  | .mzero c k m =>
    let n := max (SMap.get 0 s.cc.pendAcc c.toNat) (s.cyc + 6 * s.mul)
    some ({ scal := maskSource m, tags := k :: (if m = 0 then [] else [s.cc.atag c.toNat]), legal := (maskTable s m 512).2.2.2 = 0
            occ := 1, land := 6, always := [s.upd (.pendAcc c.toNat n)] }, pendsAcc s.cc c.toNat n)
  | .mfmt _ r =>
    if s.tag r.toNat = 0 ∨ s.tag r.toNat = 1 then
      some ({ scal := [r.toNat], legal := decide ((s.val r.toNat).toNat % 1024 = 0), occ := 1, land := 1 }, s.cc)
    else none
  | _ => none

end Sys2Proof.Claim

/-- R28, R129 to R133, R138, R140, R143: a matrix step whose tags disagree raises CLOCK, and so does MFMT with a tag past k1; a format or
mask not taken raises ILLEGAL; a pending slot or accumulator, or a coupled tile in the wrong state, holds it, or raises SCHED in a
timed entry; with an absent clock it only occupies MX; an error in a source raises UECC (order: assumptions 51, 52). -/
def Sys2Proof.Claim.MatrixStepChecks : Prop :=
  (∀ (s : State) (i : Instr) (p : EStep) (c : Core), matrixTable s i = some (p, c) → stepChecks s i p 0 p.land c) ∧
  ∀ (s : State) (n : BitVec 4) (r : BitVec 6), s.actor = .engine 0 → ¬ (s.tag r.toNat = 0 ∨ s.tag r.toNat = 1) → s.rr.phase ≠ .stopping →
    ∃ t, exec (.mfmt n r) s = .next t ∧ (t.cc.eng 0).stopped = true ∧ t.region s.ctx = RAct.apply s s.rr (.raise (s.fault CLOCK))

/-- Matrix steps dequeue, wait or trap; their sums and drains: MmaDequeues, FloatingSumsForm, FloatingSumsLand, MatrixStepsDequeue, DrainsRound, MatrixStepChecks hold. -/
def Obligations.MatrixCommandsDequeue : Prop :=
  Claim.MmaDequeues ∧ Claim.FloatingSumsForm ∧ Claim.FloatingSumsLand ∧ Claim.MatrixStepsDequeue ∧ Claim.DrainsRound ∧ Claim.MatrixStepChecks

/-! ## Tile transfers and the tag table (R166 to R171) -/

namespace Sys2Proof.Claim

/-- Row r of a tile store: its scratchpad offset, and the bytes [start, start + n) that it stores (R167, R168). -/
structure TileStore where
  t : Nat
  srcs : List Nat
  addr : DWord
  start : Nat
  n : Nat
  rows : List Nat
  pitch : Nat
  sidecar : Bool
  aligned : Bool
  legal : Bool
  deriving DecidableEq, Repr
/-- The tile stores, from R167 and R168. -/
def tileStore (s : State) : Instr → Option TileStore
  | .tst t a o => some ⟨t.toNat, [a.toNat], s.val a.toNat + BitVec.ofNat 64 (o.toNat * 64), 0, 256, List.range 16, 256, false, true, true⟩
  | .tsts t a o => some ⟨t.toNat, [a.toNat], s.val a.toNat + BitVec.ofNat 64 (o.toNat * 64), 0, 256, List.range 16, 256, true, true, true⟩
  | .tstm t a m =>
    let k := (s.val m.toNat).toNat
    let st := k / 2 ^ 16 % 256
    let n := k / 2 ^ 24 % 512
    some ⟨t.toNat, [a.toNat, m.toNat], s.val a.toNat, st, n, if n = 0 then [] else (List.range 16).filter fun r => k.testBit r, k / 2 ^ 33 % 2 ^ 15,
      false, false, decide (k / 2 ^ 48 = 0 ∧ n ≤ 256 ∧ st + n ≤ 256)⟩
  | _ => none
/-- A tag-table word: action, destination, sources, operand (R171). -/
def tagTable (s : State) : Instr → Option (Nat × Nat × List Nat × DWord × DWord)
  | .tlook d a => some (5, d.toNat, [a.toNat], s.val a.toNat, 0)
  | .tins d a b => some (6, d.toNat, [a.toNat, b.toNat], s.val a.toNat, s.val b.toNat)
  | .tevt d a => some (7, d.toNat, [a.toNat], s.val a.toNat, 0)
  | .tagrd d a => some (8, d.toNat, [a.toNat], s.val a.toNat, 0)
  | _ => none

end Sys2Proof.Claim

/-- R167, R169: TLD and TLDS sample row r of a tile from scratchpad at 2 + r, each due at 6 + r with the tag at 6, and TLDS the
sidecar at 18, due at 22; a coupled tile, which must be empty, goes full as its last row lands; one that is not holds the bundle,
unchecked, and in a timed segment raises SCHED with cause 6; a misaligned address raises ALIGN, one past the scratchpad SCOPE. That SCHED
comes after SCOPE and ALIGN is the model's choice (assumptions 66). -/
def Sys2Proof.Claim.TileLoadsIssue : Prop :=
  ∀ (s : State) (t : BitVec 7) (a : BitVec 6) (o : BitVec 10) (tg : Tag) (off : Nat) (far : Bool), Sources s [a.toNat] tg →
    let ad := s.val a.toNat + BitVec.ofNat 64 (o.toNat * 64)
    let rows := (List.range 16).map fun r => ({ s.key (s.cyc + (2 + r) * s.mul) 1 with phase := 3 },
      Item.tldRow s.cur t.toNat (off + 256 * r) r false (s.cyc + (6 + r) * s.mul))
    let side := ({ s.key (s.cyc + 18 * s.mul) 1 with phase := 3 }, Item.tldRow s.cur t.toNat (off + 4096) 0 true (s.cyc + 22 * s.mul))
    let full := fun n => if s.cc.coupling t.toNat = 0 then [] else [(s.key (s.cyc + n * s.mul) 1, Item.full s.cur t.toNat true)]
    (¬ writable s t.toNat → s.inSeg = false → ∀ i, (i = .tld t a o ∨ i = .tlds t a o) → ∃ u, exec i s = .next u ∧ Held s u) ∧
    (decodeAddr s.rr s.vidx ad = .sp s.cur off far → ¬ writable s t.toNat → s.inSeg = true → off % 64 = 0 → off + 4352 ≤ 0x50000 →
      ∀ i, (i = .tld t a o ∨ i = .tlds t a o) → ∃ u, exec i s = .next u ∧
        Trapped s u { s.fault SCHED with wobj := 6, wval1 := s.cyc, wval2 := t.toNat }) ∧
    (decodeAddr s.rr s.vidx ad = .sp s.cur off far → writable s t.toNat ∨ s.inSeg = true →
    (writable s t.toNat → off % 64 = 0 → off + 4096 ≤ 0x50000 → ∃ u, exec (.tld t a o) s = .next u ∧
      Issued s u s.cc (rows ++ [landing s 6 1 [.tileTag t.toNat tg]] ++ full 21)) ∧
    (writable s t.toNat → off % 64 = 0 → off + 4352 ≤ 0x50000 → ∃ u, exec (.tlds t a o) s = .next u ∧
      Issued s u s.cc (rows ++ [side] ++ [landing s 6 1 [.tileTag t.toNat tg]] ++ full 22)) ∧
    (off % 64 ≠ 0 → off + 4352 ≤ 0x50000 → ∀ i, (i = .tld t a o ∨ i = .tlds t a o) → ∃ u, exec i s = .next u ∧
      Trapped s u { s.fault ALIGN with faddr := ad.toNat }) ∧
    (0x50000 < off + 4096 → ∀ i, (i = .tld t a o ∨ i = .tlds t a o) → ∃ u, exec i s = .next u ∧
      Trapped s u { s.fault SCOPE with faddr := ad.toNat }))

/-- R167 to R169: TST, TSTS and TSTM read row r of their tile at +r and store the chosen bytes of each chosen row at its computed
scratchpad offset at 6 + r, TSTS the sidecar at 22; a tile that the copy path consumes, which must be full, is cleared at its last
read; at the issue every byte of memory and scratchpad is as before. A tile that is not full holds the bundle, unchecked. A chosen
byte with an uncorrectable error raises UECC, and one that is not chosen does not (R168). UECC's place after the address checks
(assumptions 52), and that a reserved mask of TSTM raises ILLEGAL before them (assumptions 66), are the model's choice. -/
def Sys2Proof.Claim.TileStoresIssue : Prop :=
  ∀ (s : State) (i : Instr) (x : TileStore) (tg : Tag) (off : Nat) (far : Bool), tileStore s i = some x → s.actor = .control →
    s.cc.common (s.cc.ttag x.t :: x.srcs.map fun r => (s.cc.reg r).tag) = some tg → s.cc.present tg = true →
    (x.srcs.any fun r => (s.cc.reg r).bad) = false → decodeAddr s.rr s.vidx x.addr = .sp s.cur off far →
    let full := s.cc.coupling x.t = 0 ∨ s.cc.tfull x.t = true
    let errs := (x.rows.any fun r => marked (s.cc.rowErr x.t r) x.start x.n) || (x.sidecar && s.cc.sideErr x.t ≠ 0)
    let place := fun r => off + x.pitch * r + x.start
    (¬ full → s.inSeg = false → ∃ t, exec i s = .next t ∧ Held s t) ∧
    (full → x.legal = true → (∀ r ∈ x.rows, place r + x.n ≤ 0x50000 ∧ writeBarred s.cc s.cc.mode (place r) x.n = false) →
      (x.aligned = true → off % 64 = 0) →
      (x.sidecar = true → off + 4352 ≤ 0x50000 ∧ writeBarred s.cc s.cc.mode (off + 4096) 256 = false) →
      (errs = true → ∃ t, exec i s = .next t ∧ Trapped s t (s.fault UECC)) ∧
      (errs = false → ∃ t, exec i s = .next t ∧ Issued s t s.cc
        (x.rows.map (fun r => ({ s.key (s.cyc + r * s.mul) 1 with phase := 3 },
            Item.tstRow s.cur x.t (place r) r x.start x.n false (s.cyc + (6 + r) * s.mul))) ++
          (if x.sidecar then [({ s.key (s.cyc + 16 * s.mul) 1 with phase := 3 }, Item.tstRow s.cur x.t (off + 4096) 0 0 256 true (s.cyc + 22 * s.mul))]
           else []) ++
          if s.cc.coupling x.t = 3 then [({ s.key (s.cyc + (if x.sidecar then 16 else 15) * s.mul) 1 with phase := 3 }, Item.full s.cur x.t false)]
          else []))) ∧
    (full → x.legal = false → ∃ t, exec i s = .next t ∧ Trapped s t (s.fault ILLEGAL))

/-- Tile loads and stores issue: TileLoadsIssue, TileStoresIssue hold. -/
def Obligations.TileWordsIssue : Prop :=
  Claim.TileLoadsIssue ∧ Claim.TileStoresIssue

/-- R171, R28: the tag-table words act at +1 and land at +4 with the common tag of their sources; at the issue nothing changes; with their
clock absent they neither read nor change the table, and nothing lands. -/
def Sys2Proof.Claim.TagTableWordsIssue : Prop :=
  ∀ (s : State) (i : Instr) (fn d : Nat) (srcs : List Nat) (key b : DWord) (tg : Tag),
    tagTable s i = some (fn, d, srcs, key, b) →
      (Sources s srcs tg → ∃ t, exec i s = .next t ∧
        Issued s t s.cc [(s.key (s.cyc + 1 * s.mul) 1, .tagAct s.cur fn d key b tg (s.cyc + 4 * s.mul))]) ∧
      (s.actor = .control → s.cc.common (srcs.map fun r => (s.cc.reg r).tag) = some tg → s.cc.present tg = false →
        ∃ t, exec i s = .next t ∧ Issued s t s.cc [])

/-- R170, R171: TLOOK's result is the slot of the entry with the key, -2 where it is pending, -1 where none has it; TINS writes that
entry, or else the lowest invalid one, and its result is the entry's number, or -1 and no write where neither is there; TEVT
invalidates it, after which its other fields read 0 (the model's choice, assumptions 58); TAGRD's result is entry s(a)[7:0]: VALID in bit
63, PEND in bit 62, SLOT from bit 48 and KEY from bit 0. Only the tag table changes, and the result lands when it is due. -/
def Sys2Proof.Claim.TagTableActs : Prop :=
  ∀ (c : Core) (key b : DWord) (n : Nat), n < 256 →
    let k : BitVec 48 := key.setWidth 48
    let ent := fun (c : Core) i => SMap.get ({} : TagEnt) c.tagTab i
    let holds := fun i => i < 256 ∧ (ent c i).valid = true ∧ (ent c i).key = k
    let after := fun fn => (tagAction c fn key b).1.foldl CAct.apply c
    let res := fun fn => (tagAction c fn key b).2
    (holds n → (∀ i, i < n → ¬ holds i) →
      res 5 = (if (ent c n).pend then -2 else (ent c n).slot.setWidth 64) ∧ after 5 = c ∧
      res 6 = BitVec.ofNat 64 n ∧ ent (after 6) n = ⟨true, b.getLsbD 16, b.setWidth 10, k⟩ ∧ (∀ i, i ≠ n → ent (after 6) i = ent c i) ∧
      res 7 = (ent c n).slot.setWidth 64 ∧ ent (after 7) n = {} ∧ (∀ i, i ≠ n → ent (after 7) i = ent c i)) ∧
    ((∀ i, ¬ holds i) → res 5 = -1 ∧ after 5 = c ∧ res 7 = -1 ∧ after 7 = c ∧
      ((ent c n).valid = false → (∀ i, i < n → (ent c i).valid = true) → res 6 = BitVec.ofNat 64 n ∧
        ent (after 6) n = ⟨true, b.getLsbD 16, b.setWidth 10, k⟩ ∧ ∀ i, i ≠ n → ent (after 6) i = ent c i) ∧
      ((∀ i, i < 256 → (ent c i).valid = true) → res 6 = -1 ∧ after 6 = c)) ∧
    after 8 = c ∧ (let e := ent c (key.toNat % 256)
      (res 8).toNat = (if e.valid then 2 ^ 63 else 0) + (if e.pend then 2 ^ 62 else 0) + e.slot.toNat * 2 ^ 48 + e.key.toNat) ∧
    (∀ fn, after fn = { c with tagTab := (after fn).tagTab }) ∧
    ∀ (s : State) (at_ : Key) (id fn d land : Nat) (tg : Tag), s.core id = c →
      let t := s.applyAll ((Item.tagAct id fn d key b tg land).run at_ s)
      t.core id = after fn ∧ (∀ x, x ≠ id → t.core x = s.core x) ∧ t.mem = s.mem ∧
        (t.region (id / 2048)).agenda = agendaInsert { at_ with due := land, phase := 0 } (.land id [.reg d (res fn) tg false]) (s.region (id / 2048)).agenda

/-- Tag-table words: TagTableWordsIssue, TagTableActs hold. -/
def Obligations.TagTableWords : Prop :=
  Claim.TagTableWordsIssue ∧ Claim.TagTableActs

/-! ## Copies (R186 to R195) -/

namespace Sys2Proof.Claim

/-- A copy word executes normally in CP: the tags of s(a) and s(b) agree on a present clock, and neither carries an error (R186). -/
structure CopySources (s : State) (a b : BitVec 6) (tg : Tag) : Prop where
  actor : s.actor = .engine 2
  tags : s.cc.common [s.tag a.toNat, s.tag b.toNat] = some tg
  present : s.cc.present tg = true
  clean : s.bad a.toNat = false ∧ s.bad b.toNat = false
/-- The map that a copy word reads at s(a): 256 aligned bytes of its own scratchpad, legal, outside the arena of an open level and
without an error (R187, R224, R321). -/
def mapRead (s : State) (a : BitVec 6) (store : Bool) (m : TMap) : Prop :=
  ∃ off, decodeAddr s.rr s.vidx (s.val a.toNat) = .sp s.cur off false ∧ off + 256 ≤ 0x50000 ∧ off % 256 = 0 ∧
    s.cc.inArena off 256 = false ∧ s.cc.spErr off 256 = false ∧ m = tmapOf (s.cc.spNat off 256) ∧ m.legal store = true
/-- Bytes in beats of 64 (R191). -/
def inBeats (n : Nat) : Nat := (n + 63) / 64
/-- A copy begins, from s to t: CP has a new copy in flight, its sample and its perform due, and takes the step; every byte of memory and
scratchpad is as before. A timed copy also adds to the use of the links and stacks (R298). -/
structure Begins (s t : State) (c : Copy) (ev : List (Key × Item)) (core : Core) (gs : List (Nat × GItem)) (n : Nat) : Prop where
  rest : t = { s with cores := t.cores, regions := t.regions, agenda := laterWith s.agenda gs, freeCtr := s.freeCtr + n, hbmUse := t.hbmUse }
  region : t.region s.ctx = { s.rr with copies := s.rr.copies ++ [c], agenda := agendaWith s.rr.agenda ev,
                                        links := (t.region s.ctx).links }
  regions : ∀ x, x ≠ s.ctx → t.region x = s.region x
  core : t.cc = { core.setEng 2 (core.eng 2).advance with segBuf := core.segBuf ++ [(2, (s.cc.micro 2).toNat)] }
  cores : ∀ id, id ≠ s.cur → t.core id = s.core id
/-- A copy of CP's step: its moves, credits and barrier, and whether it writes outside its cluster. -/
def copyOfStep (s : State) (ms : List Mv) (credits : List (Nat × Nat)) (sb : Nat) (outside late : Bool) : Copy :=
  { serial := s.cc.serial, core := s.cur, seq := BitVec.ofNat 32 s.fseq, since := s.cyc, outside := outside, paid := false
    readsS := readsOrdered s ms, moves := ms, vals := [], credits := credits, sb := sb, stampTo := [], stampVal := 0
    pages := s.pagesOf (placesOf ms), nodeRec := none, late := late, timed := s.timed }
/-- What a timed copy has due: its sample at +2, or +8 where it reads device memory, and its perform, which no divisor moves. -/
def timedDue (s : State) (c : Copy) (perf : Nat) (i : Instr) : List (Key × Item) :=
  [({ s.key (s.cyc + if c.moves.any Mv.global then 8 else 2) 0 with phase := 3 }, .copySample s.cur c.serial),
   ({ c.key s.rr with due := s.cyc + perf }, .ev s.cur s.actor i)]
/-- The core while CP takes a timed copy's step, its translations in a new order (R191, R235). -/
def takesTimed (s : State) (tlb : List TlbEnt) (occ perf : Nat) : Core :=
  let g := s.cc.eng 2
  ({ s.cc with serial := s.cc.serial + 1, tlb := tlb } : Core).setEng 2
    { g with freeAt := s.cyc + occ * s.mul, due := s.cyc + occ * s.mul, doneAt := max g.doneAt (s.cyc + perf), copies := g.copies + 0 }

end Sys2Proof.Claim

/-- R191: CPT moves what its map names with fixed timing: it occupies CP for 4 cycles and one for each 64 bytes it delivers; device
memory performs at 1,536 plus those beats, another core at 8, 2 for each hop and 16 for each crossing plus them; its barrier is
credited with the bytes delivered where SB is set; a copy alone on its links waits for none. A map that names no core of the region raises
SCOPE. When the source is sampled, and that a held link or a stack past 4,096 bytes in a cycle makes a copy late, are the model's readings
(assumptions 36, 16). -/
def Sys2Proof.Claim.TimedCopiesBegin : Prop :=
  ∀ (s : State) (a b : BitVec 6) (sb : BitVec 4) (g h : BitVec 1) (tg : Tag) (m : TMap), CopySources s a b tg →
    mapRead s a (h = 1) m →
    (∀ far ms, targetOf s m = some far → loadOrStore s m (h = 1) far true (s.val b.toNat).toNat = .ok ms → firstBarred s ms = none →
      let n := (delivered ms).length
      let v := match far with | .core id => id % 2048 | .global => s.vidx
      let owner := match far with | .core id => if h = 1 then id else s.cur | .global => s.cur
      let perf := match far with
        | .global => 1536 + inBeats n
        | .core _ => 8 + 2 * s.rr.hops s.vidx v + 16 * s.rr.crossings s.vidx v + inBeats n
      ∃ t late tlb, exec (.cpt a b sb g h) s = .next t ∧ (∀ x, x ∈ tlb ↔ x ∈ s.cc.tlb) ∧
        (let c := copyOfStep s ms (if g = 1 then [(owner, n)] else []) sb.toNat
           (decide (h = 1 ∧ s.rr.cluster v ≠ s.rr.cluster s.vidx)) late
         Begins s t c (timedDue s c perf (.timedCopyPerform c.serial)) (takesTimed s tlb (4 + inBeats n) perf) [] 0 ∧
         (s.rr.links = [] → (t.region s.ctx).linkLate c = false)) ∧ (s.hbmUse = [] → late = false)) ∧
    (targetOf s m = none → s.rr.phase ≠ .stopping → ∃ t, exec (.cpt a b sb g h) s = .next t ∧
      t.region s.ctx = RAct.apply s s.rr (.raise (s.fault SCOPE)))

/-- R193, R194: CPL moves (l + 1)·64 bytes within the core's scratchpad, occupying CP for l + 1 cycles and performing at 8 + l + 1;
CPM moves one window to each core of its cluster that s(b) names, at that core's LBASE, and performs at 1,536, its beats, 8 and 2
for each hop to the farthest. That a stack past 4,096 bytes in a cycle makes a copy late is the model's reading (assumptions 16). -/
def Sys2Proof.Claim.LocalAndMulticastCopiesBegin : Prop :=
  ∀ (s : State) (a b : BitVec 6) (tg : Tag), CopySources s a b tg →
    (∀ (l : BitVec 12) d o, let n := (l.toNat + 1) * 64
      decodeAddr s.rr s.vidx (s.val a.toNat) = .sp s.cur d false → decodeAddr s.rr s.vidx (s.val b.toNat) = .sp s.cur o false →
      d + n ≤ 0x50000 → o + n ≤ 0x50000 → d % 64 = 0 → o % 64 = 0 → writeBarred s.cc s.cc.mode d n = false →
      ∃ t, exec (.cpl a b l) s = .next t ∧
        let c := copyOfStep s ((List.range (n / 8)).map fun k => ⟨.elem (spLocs s.cur (o + 8 * k) 8) 0, spLocs s.cur (d + 8 * k) 8, 0, 64⟩)
          [] 0 false false
        Begins s t c (timedDue s c (8 + (l.toNat + 1)) (.cplPerform c.serial)) (takesTimed s s.cc.tlb (l.toNat + 1) (8 + (l.toNat + 1))) [] 0) ∧
    (∀ (sb : BitVec 4) (g : BitVec 1) m us ms, mapRead s a false m → m.target = 0 → us ≠ [] → us.length ≤ 12 →
      ((List.range 16).filter fun k => (s.val b.toNat).getLsbD k).map (s.rr.inCluster s.vidx) = us.map some →
      (us.foldr (fun u rest => match loadMoves s m .global true 0 (coreId s.ctx u)
          (m.loff + fld ((s.core (coreId s.ctx u)).csr 0x024).toNat 0 19) with
        | .ok x => (match rest with | .ok y => MvRes.ok (x ++ y) | z => z)
        | z => z) (MvRes.ok [])) = .ok ms → firstBarred s ms = none →
      let n := (delivered ms).length / us.length
      let perf := 1536 + inBeats n + 8 + 2 * (us.map (s.rr.hops s.vidx)).foldl max 0
      ∃ t late tlb, exec (.cpm a b sb g) s = .next t ∧ (∀ x, x ∈ tlb ↔ x ∈ s.cc.tlb) ∧
        (let c := copyOfStep s ms (if g = 1 then us.map fun u => (coreId s.ctx u, n) else []) sb.toNat false late
         Begins s t c (timedDue s c perf (.multicastPerform c.serial)) (takesTimed s tlb (4 + inBeats n) perf) [] 0) ∧
        (s.hbmUse = [] → late = false)) ∧
    (∀ (l : BitVec 12) d o, let n := (l.toNat + 1) * 64
      decodeAddr s.rr s.vidx (s.val a.toNat) = .sp s.cur d false → decodeAddr s.rr s.vidx (s.val b.toNat) = .sp s.cur o false →
      d + n ≤ 0x50000 → o + n ≤ 0x50000 → d % 64 ≠ 0 → writeBarred s.cc s.cc.mode d n = false → s.rr.phase ≠ .stopping →
      ∃ t, exec (.cpl a b l) s = .next t ∧
        t.region s.ctx = RAct.apply s s.rr (.raise { s.fault ALIGN with faddr := (s.val a.toNat).toNat }))

/-- R195, R175: CPA and CPK put an untimed copy in flight: its payload performs at a later cycle that is a free value, then its
stamp takes the core's next copy count; CPK also names a node record, and every origin of its window is 0. The delay and the
origins of CPK are the model's (assumptions 3, 35). -/
def Sys2Proof.Claim.UntimedCopiesBegin : Prop :=
  ∀ (s : State) (a b : BitVec 6) (sb : BitVec 4) (g h : BitVec 1) (tg : Tag) (i : Instr) (org : Nat) (rec_ : Option Nat) (m : TMap)
    (far : Far) (ms : List Mv) (st : List Loc),
    (i = .cpa a b sb g h ∧ org = (s.val b.toNat).toNat ∧ rec_ = none) ∨ (i = .cpk a b sb g h ∧ org = 0 ∧ rec_ = some (s.val b.toNat).toNat) →
    CopySources s a b tg → mapRead s a (h = 1) m → targetOf s m = some far → loadOrStore s m (h = 1) far false org = .ok ms →
    firstBarred s ms = none → stampLocs s (BitVec.ofNat 64 m.stampa) = .ok st →
    let owner := match far with | .core id => if h = 1 then id else s.cur | .global => s.cur
    let outside := match far with | .core id => decide (h = 1 ∧ s.rr.cluster (id % 2048) ≠ s.rr.cluster s.vidx) | .global => false
    let c := { copyOfStep s ms (if g = 1 then [(owner, (delivered ms).length)] else []) sb.toNat outside false with
               stampTo := st, stampVal := s.cc.copyCount + 1, nodeRec := rec_ }
    let e := s.cc.eng 2
    ∃ t used, exec i s = .next t ∧ Begins s t c []
      (({ s.cc with serial := s.cc.serial + 1, copyCount := s.cc.copyCount + 1, tlb := used } : Core).setEng 2
        { e with freeAt := s.cyc + 4 * s.mul, due := s.cyc + 4 * s.mul, doneAt := max e.doneAt (s.cyc + 0 * s.mul), copies := e.copies + 1 })
      [(s.now + 1 + s.free 0 0, .payload s.cur s.cc.serial)] 1 ∧ ∀ x, x ∈ used ↔ x ∈ s.cc.tlb

/-- Copies begin: TimedCopiesBegin, LocalAndMulticastCopiesBegin, UntimedCopiesBegin hold. -/
def Obligations.CopiesBegin : Prop :=
  Claim.TimedCopiesBegin ∧ Claim.LocalAndMulticastCopiesBegin ∧ Claim.UntimedCopiesBegin

/-- R189: the points of a window: as many as the product of its sizes, and each of them lies, in each dimension d in use, at
origin + w·dilation - padding before for a position w below the window's size; it is inside where every coordinate lies in its
extent. -/
def Obligations.WindowPoints : Prop :=
  ∀ (m : TMap) (b : Nat), m.ndim ≤ m.dims.length →
    (m.points b).length = ((m.dims.take m.ndim).map Dim.win).prod ∧
    ∀ p ∈ m.points b, p.xs.length = m.ndim ∧
      (∀ d, d < m.ndim → ∃ w, w < (m.dim d).win ∧
        p.xs.getD d 0 = ((if 1 ≤ d ∧ d ≤ 4 then b / 2 ^ (16 * (d - 1)) % 65536 else 0) + w * (m.dim d).dil : Nat) - ((m.dim d).padb : Int)) ∧
      (p.inside = true ↔ ∀ d, d < m.ndim → 0 ≤ p.xs.getD d 0 ∧ p.xs.getD d 0 < (m.dim d).ext)

/-- R191, R193, R194, R186: TIMED_COPY_PERFORM, MULTICAST_PERFORM and CPL_PERFORM write the values sampled and end the copy: every
byte that it does not deliver is as before, and a value of whole bytes stands in its scratchpad place afterwards. A copy that
its links or its stack made late writes nothing and raises SCHED, and its entry stops where it still runs; from the freeze on it raises
nothing. A late copy's fault is the model's reading (assumptions 16). -/
def Sys2Proof.Claim.TimedCopiesPerform : Prop :=
  ∀ (s : State) (i : Instr) (serial : Nat) (c : Copy),
    (i = .timedCopyPerform serial ∨ i = .multicastPerform serial ∨ i = .cplPerform serial) → s.rr.copy s.cur serial = some c →
    (∀ id, (s.core id).undo = []) →
    (c.late = false → s.rr.linkLate c = false → ∃ t, exec i s = .next t ∧ (t.region s.ctx).copies = s.rr.withoutCopy c ∧
      (∀ key, (∀ v ∈ c.vals, Loc.gm key ∉ v.dst) → t.byte key = s.byte key) ∧
      (∀ id off, (∀ v ∈ c.vals, Loc.sp id off ∉ v.dst) → t.spadByte id off = s.spadByte id off) ∧
      (∀ id, (t.core id).regs = (s.core id).regs ∧ (t.core id).rows = (s.core id).rows) ∧
      ∀ id off n x, c.vals = [⟨spLocs id off n, 0, 8 * n, x, false, 0⟩] →
        ∀ k, k < n → t.spadByte id (off + k) = BitVec.ofNat 8 (x / 256 ^ k)) ∧
    (c.late = true ∨ s.rr.linkLate c = true → ∃ t, exec i s = .next t ∧ (t.region s.ctx).copies = s.rr.withoutCopy c ∧ t.mem = s.mem ∧
      (∀ id, id ≠ s.cur → t.core id = s.core id) ∧
      t.cc = (if s.cc.cp.running = true ∧ s.cc.cp.headSeq = c.seq then { s.cc with cp := { s.cc.cp with stopped := true } } else s.cc) ∧
      (s.rr.closed = true → (t.region s.ctx).fault = s.rr.fault) ∧
      (s.rr.closed = false → (t.region s.ctx).fault = (RAct.apply s s.rr (.raise
        { code := SCHED, core := s.cur, eng := 2, wobj := 4, wval1 := s.cyc, wval2 := 2, fseq := c.seq.toNat, timed := c.timed })).fault))

/-- R186, R248: a timed copy that performs has each of its credits, of the bytes delivered, due at its stage barrier in the cycle in which it
performs, after every perform of that cycle; one that raises SCHED credits nothing. -/
def Sys2Proof.Claim.TimedCopiesCredit : Prop :=
  ∀ (s : State) (i : Instr) (serial : Nat) (c : Copy),
    (i = .timedCopyPerform serial ∨ i = .multicastPerform serial ∨ i = .cplPerform serial) → s.rr.copy s.cur serial = some c →
    (c.late = false → s.rr.linkLate c = false → ∃ t, exec i s = .next t ∧ ∀ p ∈ c.credits, ∃ k : Key, 2 ≤ k.phase ∧ k.due = s.rr.cyc ∧
      (k, Item.credit p.1 c.sb p.2 s.cur 2 c.seq.toNat c.timed) ∈ (t.region s.ctx).agenda) ∧
    (c.late = true ∨ s.rr.linkLate c = true → ∃ t, exec i s = .next t ∧ (t.region s.ctx).agenda = s.rr.agenda)

/-- R195, R257: SEQUENCE_STAMP_PERFORM, once every payload byte has performed, writes the copy count at STAMPA, in memory or in a scratchpad,
eight bytes, and ends the copy, and before that it does nothing; every other byte is as before; a CPK's
record falls due at the scheduler once the stamp is visible, within the bound of R259; a stamp lost with its route (R351) is not written. The
delay is a free value of the model (assumptions 3). -/
def Sys2Proof.Claim.SequenceStampsPerform : Prop :=
  ∀ (s : State) (serial : Nat) (c : Copy), s.rr.copy s.cur serial = some c → (∀ id, (s.core id).undo = []) →
    (c.paid = false → exec (.sequenceStampPerform serial) s = .next s) ∧
    (c.paid = true → ∃ t, exec (.sequenceStampPerform serial) s = .next t ∧ (t.region s.ctx).copies = s.rr.withoutCopy c ∧
      (∀ key, Loc.gm key ∉ c.stampTo → t.byte key = s.byte key) ∧
      (∀ id off, Loc.sp id off ∉ c.stampTo → t.spadByte id off = s.spadByte id off) ∧
      (∀ k, c.lost = false → c.stampTo = (List.range 8).map (fun j => Loc.gm (k + j)) → k + 8 ≤ 2 ^ 52 →
        ∀ j, j < 8 → t.byte (k + j) = BitVec.ofNat 8 (c.stampVal.toNat / 256 ^ j)) ∧
      (∀ id off, c.lost = false → c.stampTo = spLocs id off 8 → ∀ j, j < 8 → t.spadByte id (off + j) = BitVec.ofNat 8 (c.stampVal.toNat / 256 ^ j)) ∧
      (c.nodeRec = none → t.agenda = s.agenda) ∧
      (∀ r, c.nodeRec = some r → t.agenda = laterWith s.agenda [(s.now + 1 + s.free 0 20000, .ev s.cur (.stampGloballyVisible (s.rr.handle, r)))]))

/-- Copies and stamps perform: TimedCopiesPerform, TimedCopiesCredit, SequenceStampsPerform hold. -/
def Obligations.CopiesPerform : Prop :=
  Claim.TimedCopiesPerform ∧ Claim.TimedCopiesCredit ∧ Claim.SequenceStampsPerform

/-! ## Queues, tokens, predicates, stage barriers (R172 to R185, R196, R197) -/

namespace Sys2Proof.Claim

/-- The words of an engine's table (R43). -/
def tableSize (e : Nat) : Nat := if e = 1 then 1024 else 256
/-- The engines that a field names: 3 is all of them (R177). -/
def namedEngines (g : BitVec 2) : List Nat := if g = 3 then [0, 1, 2] else [g.toNat]
/-- A core with an entry behind engine e's queue, which takes the attributes that GUARD left pending and clears them (R172, R180). -/
def queued (s : State) (c : Core) (e stamp base count reps : Nat) : Core :=
  let g := c.eng e
  c.setEng e { g with
    queue := g.queue ++ [{ stamp := stamp, base := base, count := count, reps := reps, guard := g.aGuard, wtok := g.aWait
                           stok := g.aSig, timed := s.inSeg, instant := s.rr.instant, word := none }]
    aGuard := none, aWait := none, aSig := none }
/-- No entry of engine e waits, runs or finishes (R184). -/
def drained (c : Core) (e : Nat) : Bool := (c.eng e).queue.isEmpty && (c.eng e).finishing.isEmpty
/-- A wait that starts now and expires 2^l cycles later. -/
def waitsFor (s : State) (k : WaitKind) (l : Nat) : Core := { s.cc with waits := s.cc.waits ++ [⟨k, s.cyc, some (s.cyc + 2 ^ l)⟩] }
/-- The power reaction of PACE and CLKDIV, as its write of PWRACK falls due (R335). -/
def reaction (s : State) : Key × Item := (s.key (s.cyc + 1 * s.mul) 0, .csrWrite s.cur 0x035 0 0)

end Sys2Proof.Claim

/-- R172, R178, R180: RUN and RUNS put an entry of c + 1 micro-orders from b behind their engine's queue, stamped with their bundle
or with the literal, with the attributes left pending; an entry past the table raises ILLEGAL, a stamp that has passed SCHED 11,
and at a full queue the word is held, or in a timed segment raises SCHED 2. -/
def Sys2Proof.Claim.EntriesAreQueued : Prop :=
  ∀ (s : State) (g : BitVec 2) (b : BitVec 10) (c : BitVec 8) (lit : Word), s.actor = .control →
    let e := g.toNat
    let now := s.cyc - s.rr.ibase
    let fits := b.toNat + c.toNat + 1 ≤ tableSize e
    ((s.cc.eng e).queue.length < 32 → fits → ∃ t, exec (.run g b c) s = .next t ∧
      Issued s t (queued s s.cc e now b.toNat (c.toNat + 1) 0) []) ∧
    ((s.cc.eng e).queue.length < 32 → fits → now ≤ lit.toNat → ∃ t, exec (.runs g b c lit) s = .next t ∧
      Issued s t (queued s s.cc e lit.toNat b.toNat (c.toNat + 1) 0) []) ∧
    ((s.cc.eng e).queue.length < 32 → fits → lit.toNat < now → ∃ t, exec (.runs g b c lit) s = .next t ∧
      Trapped s t { s.fault SCHED with wobj := 11, wval1 := s.rr.ibase + lit.toNat, wval2 := e }) ∧
    (∀ i, (i = .run g b c ∨ i = .runs g b c lit) →
      ((s.cc.eng e).queue.length < 32 → ¬ fits → ∃ t, exec i s = .next t ∧ Trapped s t (s.fault ILLEGAL)) ∧
      (32 ≤ (s.cc.eng e).queue.length → s.inSeg = false → ∃ t, exec i s = .next t ∧ Held s t)) ∧
    (32 ≤ (s.cc.eng e).queue.length → s.inSeg = true → fits → ∃ t, exec (.run g b c) s = .next t ∧
      Trapped s t { s.fault SCHED with wobj := 2, wval1 := s.cyc, wval2 := e })

/-- R179, R33: LOOPB puts one entry behind each queue that it names, with base and count from s(a), n repeats, and the skew of the
literal on its stamp; an entry past its table raises ILLEGAL, and in elastic code a full queue holds the bundle, unchecked. -/
def Sys2Proof.Claim.LoopEntriesAreQueued : Prop :=
  ∀ (s : State) (g : BitVec 2) (a : BitVec 6) (n : BitVec 15) (lit : Word), s.actor = .control →
    let v := (s.val a.toNat).toNat
    let base := fun e => v / 2 ^ (18 * e) % 1024
    let count := fun e => v / 2 ^ (18 * e + 10) % 256 + 1
    (s.inSeg = false → (∃ e ∈ namedEngines g, 32 ≤ (s.cc.eng e).queue.length) → ∃ t, exec (.loopb g a n lit) s = .next t ∧ Held s t) ∧
    (maySteer s a.toNat → (∀ e ∈ namedEngines g, (s.cc.eng e).queue.length < 32 ∧ base e + count e ≤ tableSize e) →
      ∃ t, exec (.loopb g a n lit) s = .next t ∧ Issued s t ((namedEngines g).foldl
        (fun c e => queued s c e (s.cyc - s.rr.ibase + lit.toNat / 2 ^ (10 * e) % 1024) (base e) (count e) n.toNat) s.cc) []) ∧
    (maySteer s a.toNat → (∀ e ∈ namedEngines g, (s.cc.eng e).queue.length < 32) → (∃ e ∈ namedEngines g, tableSize e < base e + count e) →
      ∃ t, exec (.loopb g a n lit) s = .next t ∧ Trapped s t (s.fault ILLEGAL))

/-- RUN, RUNS and LOOPB queue entries: EntriesAreQueued, LoopEntriesAreQueued hold. -/
def Obligations.EntriesAreQueued : Prop :=
  Claim.EntriesAreQueued ∧ Claim.LoopEntriesAreQueued

/-- R180, R181, R183 to R185, R335: GUARD sets the pending attributes at once; PACE, PSET, PINV, QSEQ and TBLW land theirs at +1, PACE
as a power reaction too; TBLW's index past the table raises ILLEGAL. -/
def Obligations.QueueSettingsLand : Prop :=
  ∀ s : State, s.actor = .control →
    (∀ (g : BitVec 2) (p : BitVec 4) (h : BitVec 1) (w : BitVec 5) (v : BitVec 1) (x : BitVec 5) (u : BitVec 1),
      ∃ t, exec (.guard g p h w v x u) s = .next t ∧ Issued s t ((namedEngines g).foldl (fun c e => c.setEng e { c.eng e with
        aGuard := if h = 1 then some p.toNat else none, aWait := if v = 1 then some w.toNat else none
        aSig := if u = 1 then some x.toNat else none }) s.cc) []) ∧
    (∀ g p, ∃ t, exec (.pace g p) s = .next t ∧
      Issued s t s.cc [landing s 1 0 ((namedEngines g).map fun e => .engPace e p.toNat), reaction s]) ∧
    (∀ p a tg, Sources s [a.toNat] tg → ∃ t, exec (.pset p a) s = .next t ∧
      Issued s t s.cc [landing s 1 0 [.pred p.toNat ⟨(s.val a.toNat).getLsbD 0, true⟩]]) ∧
    (∀ p, ∃ t, exec (.pinv p) s = .next t ∧ Issued s t s.cc [landing s 1 0 [.predUnwrite p.toNat]]) ∧
    (∀ g d x, ∃ t, exec (.qseq g d x) s = .next t ∧ Issued s t s.cc [landing s 1 0
      [.reg d.toNat (if x = 1 then s.cc.copyCount else (s.cc.eng g.toNat).seq.setWidth 64) 1 false]]) ∧
    (∀ g a b, maySteer s a.toNat → maySteer s b.toNat → (s.val a.toNat).toNat % 1024 < tableSize g.toNat →
      ∃ t, exec (.tblw g a b) s = .next t ∧
        Issued s t s.cc [landing s 1 0 [.table g.toNat ((s.val a.toNat).toNat % 1024) ((s.val b.toNat).setWidth 32)]]) ∧
    (∀ g a b, maySteer s a.toNat → maySteer s b.toNat → tableSize g.toNat ≤ (s.val a.toNat).toNat % 1024 →
      ∃ t, exec (.tblw g a b) s = .next t ∧ Trapped s t (s.fault ILLEGAL))

/-- R155, R182, R184, R196, R197: SIGT's token, SBINI's count and SBARR's credit fall due at +1, the credit after any SBINI of its
cycle; WAITT takes a token at once where one stands, QDRN and SBWT go on where their condition holds, and each otherwise holds the
stream to issue + 2^lim at most; in a timed segment SBWT is a check that raises SCHED 9. -/
def Sys2Proof.Claim.TokensAndBarriers : Prop :=
  ∀ s : State, s.actor = .control →
    (∀ x, ∃ t, exec (.sigt x) s = .next t ∧
      Issued s t s.cc [(s.key (s.cyc + 1 * s.mul) 0, .tokenAdd s.cur x.toNat 3 0 s.inSeg)]) ∧
    (∀ l x, s.inSeg = false → SMap.get 0 s.cc.tokens x.toNat ≠ 0 → ∃ t, exec (.waitt l x) s = .next t ∧
      Issued s t { s.cc with tokens := SMap.set 0 s.cc.tokens x.toNat (SMap.get 0 s.cc.tokens x.toNat - 1) } []) ∧
    (∀ l x, s.inSeg = false → SMap.get 0 s.cc.tokens x.toNat = 0 → ∃ t, exec (.waitt l x) s = .next t ∧
      Issued s t (waitsFor s (.waitt x.toNat) l.toNat) []) ∧
    (∀ g l, s.inSeg = false → (∀ e ∈ namedEngines g, drained s.cc e = true) → ∃ t, exec (.qdrn g l) s = .next t ∧ Issued s t s.cc []) ∧
    (∀ g l, s.inSeg = false → (∃ e ∈ namedEngines g, drained s.cc e = false) → ∃ t, exec (.qdrn g l) s = .next t ∧
      Issued s t (waitsFor s (.qdrn g.toNat) l.toNat) []) ∧
    (∀ a x tg, Sources s [a.toNat] tg → ∃ t, exec (.sbini a x) s = .next t ∧
      Issued s t s.cc [(s.key (s.cyc + 1 * s.mul) 0, .sbInit s.cur x.toNat ((s.val a.toNat).toNat % 4294967296))]) ∧
    (∀ a x tg, Sources s [a.toNat] tg → ∃ t, exec (.sbarr a x) s = .next t ∧
      Issued s t s.cc [({ s.key (s.cyc + 1 * s.mul) 0 with phase := 2 },
        .credit s.cur x.toNat ((s.val a.toNat).toNat % 4294967296) s.cur 3 0 s.inSeg)]) ∧
    (∀ x l p, (SMap.get {} s.cc.bars x.toNat).phase = decide (p = 1) → ∃ t, exec (.sbwt x l p) s = .next t ∧ Issued s t s.cc []) ∧
    (∀ x l p, (SMap.get {} s.cc.bars x.toNat).phase ≠ decide (p = 1) → s.inSeg = false → ∃ t, exec (.sbwt x l p) s = .next t ∧
      Issued s t (waitsFor s (.sbwt x.toNat (p = 1)) l.toNat) []) ∧
    (∀ x l p, (SMap.get {} s.cc.bars x.toNat).phase ≠ decide (p = 1) → s.inSeg = true → ∃ t, exec (.sbwt x l p) s = .next t ∧
      Trapped s t { s.fault SCHED with wobj := 9, wval1 := s.cyc, wval2 := x.toNat })

/-- R196: the credits of one cycle on a stage barrier apply together: a sum that reaches what is expected turns the phase and clears
the count, a smaller one adds to it, and one that passes it drops them all and names the first credit that did. Which credit is
named, and that none applies, is the model's reading (assumptions 22). -/
def Sys2Proof.Claim.CreditsApplyTogether : Prop :=
  ∀ (b : StageBar) (l : List Nat), b.expected.toNat + l.sum < 4294967296 →
    (0 < l.sum → b.delivered.toNat + l.sum = b.expected.toNat → creditAll b l = .inl { b with phase := !b.phase, delivered := 0 }) ∧
    (b.delivered.toNat + l.sum < b.expected.toNat → ∃ b', creditAll b l = .inl b' ∧ b'.delivered.toNat = b.delivered.toNat + l.sum ∧
      b'.expected = b.expected ∧ b'.phase = b.phase) ∧
    (0 < l.sum → b.delivered ≤ b.expected → b.expected.toNat < b.delivered.toNat + l.sum → ∃ i, creditAll b l = .inr i ∧ i < l.length ∧
      b.expected.toNat < b.delivered.toNat + (l.take (i + 1)).sum ∧ b.delivered.toNat + (l.take i).sum ≤ b.expected.toNat)

/-- Tokens and stage barriers: TokensAndBarriers, CreditsApplyTogether hold. -/
def Obligations.TokensAndBarriers : Prop :=
  Claim.TokensAndBarriers ∧ Claim.CreditsApplyTogether

/-! ## Links, barrier tags, channels, notices (R198 to R203) -/

namespace Sys2Proof.Claim

/-- The neighbour of the acting core in a direction: 0 north, 1 east, 2 south, 3 west (R199; assumptions 31). -/
def neighbour (s : State) (d : BitVec 2) : Option Nat :=
  let x := s.vidx % s.rr.w
  let y := s.vidx / s.rr.w
  if d = 0 then (if y = 0 then none else some (s.vidx - s.rr.w))
  else if d = 1 then (if x + 1 < s.rr.w then some (s.vidx + 1) else none)
  else if d = 2 then (if y + 1 < s.rr.h then some (s.vidx + s.rr.w) else none)
  else if x = 0 then none else some (s.vidx - 1)
/-- The acting core without the oldest word of an inbox (R199). -/
def popped (s : State) (d : BitVec 2) : Core := s.cc.setInbox d.toNat ((s.cc.inbox d.toNat).drop 1)

end Sys2Proof.Claim

/-- R199, R292: LSEND's word reaches the neighbour's inbox of the opposite direction 2 cycles later, whatever the divisor; where the
region has no core there it raises SCOPE; LRECV takes the oldest word of an inbox and lands it at +1 with tag k1, and at an
empty inbox is held, or in a timed segment raises SCHED 8. Which core a direction names is the model's reading (assumptions 31). -/
def Sys2Proof.Claim.NeighbourLinks : Prop :=
  ∀ (s : State) (r : BitVec 2) (a : BitVec 6), s.actor = .control →
    (maySteer s a.toNat → ∀ v, neighbour s r = some v → ∃ t, exec (.lsend r a) s = .next t ∧
      Issued s t s.cc [(s.key (s.cyc + 2) 2, .linkWord (s.ctx * 2048 + v) ((r.toNat + 2) % 4) (s.val a.toNat))]) ∧
    (maySteer s a.toNat → neighbour s r = none → ∃ t, exec (.lsend r a) s = .next t ∧ Trapped s t (s.fault SCOPE)) ∧
    (¬ (s.tag a.toNat = 0 ∨ s.tag a.toNat = 1) → ∃ t, exec (.lsend r a) s = .next t ∧ Trapped s t (s.fault CLOCK)) ∧
    (∀ v l, s.cc.inbox r.toNat = v :: l → ∃ t, exec (.lrecv r a) s = .next t ∧
      Issued s t (popped s r) [landing s 1 2 [.reg a.toNat v 1 false]]) ∧
    (s.cc.inbox r.toNat = [] → s.inSeg = false → ∃ t, exec (.lrecv r a) s = .next t ∧ Held s t) ∧
    (s.cc.inbox r.toNat = [] → s.inSeg = true → ∃ t, exec (.lrecv r a) s = .next t ∧
      Trapped s t { s.fault SCHED with wobj := 8, wval1 := s.cyc, wval2 := r.toNat })

/-- R200: BAR is this core's arrival at a tag, and a second one before the release raises ILLEGAL; BARW goes on where no arrival of
the core waits for its release, and otherwise holds the stream, or in a timed segment raises SCHED 9. -/
def Sys2Proof.Claim.BarrierTagWords : Prop :=
  ∀ (s : State) (b : BitVec 3) (l : BitVec 5), s.actor = .control →
    (SMap.get false s.cc.btArr b.toNat = false → ∃ t, exec (.bar b) s = .next t ∧ Issued s t { s.cc with
      btArr := SMap.set false s.cc.btArr b.toNat true, btOwed := SMap.set false s.cc.btOwed b.toNat true } []) ∧
    (SMap.get false s.cc.btArr b.toNat = true → ∃ t, exec (.bar b) s = .next t ∧ Trapped s t (s.fault ILLEGAL)) ∧
    (SMap.get false s.cc.btOwed b.toNat = false → ∃ t, exec (.barw b l) s = .next t ∧ Issued s t s.cc []) ∧
    (SMap.get false s.cc.btOwed b.toNat = true → s.inSeg = false → ∃ t, exec (.barw b l) s = .next t ∧
      Issued s t (waitsFor s (.barw b.toNat) l.toNat) []) ∧
    (SMap.get false s.cc.btOwed b.toNat = true → s.inSeg = true → ∃ t, exec (.barw b l) s = .next t ∧
      Trapped s t { s.fault SCHED with wobj := 9, wval1 := s.cyc, wval2 := b.toNat })

/-- Neighbour links and barrier tags: NeighbourLinks, BarrierTagWords hold. -/
def Obligations.LinksAndBarrierTags : Prop :=
  Claim.NeighbourLinks ∧ Claim.BarrierTagWords

/-- R201 to R203, R81: CHWR stages a value for its channel, with its cycle; CHRD defines kC from the next cycle, present exactly where
the snapshot holds a value, which lands at +1 on kC; CHPOP removes the head at +1 where there is one; NODEQ and GLNCH are staged
until the commit, and fail with STAGEOVF at a full buffer; a region that is not the writer or the reader raises ILLEGAL. -/
def Obligations.ChannelWords : Prop :=
  ∀ (s : State) (c : BitVec 8) (a : BitVec 6) (k : BitVec 4), s.actor = .control →
    (∀ tg, Sources s [a.toNat] tg → s.writes c.toNat = true → ∃ t, exec (.chwr c a) s = .next t ∧
      Issued s t { s.cc with chStaged := s.cc.chStaged ++ [(c.toNat, s.cyc, s.val a.toNat)] } []) ∧
    (∀ tg, Sources s [a.toNat] tg → s.writes c.toNat = false → ∃ t, exec (.chwr c a) s = .next t ∧ Trapped s t (s.fault ILLEGAL)) ∧
    (∀ v, 2 ≤ k.toNat → s.readsCh c.toNat = true → ¬ isDefined s k → s.snapshot c.toNat = some v →
      ∃ t, exec (.chrd c a k) s = .next t ∧ Issued s t s.cc
        [(s.key (s.cyc + 1) 2, .land s.cur [.clock k.toNat ⟨true, true, 1, 0, false, false⟩]), landing s 1 2 [.reg a.toNat v k false]]) ∧
    (2 ≤ k.toNat → s.readsCh c.toNat = true → ¬ isDefined s k → s.snapshot c.toNat = none →
      ∃ t, exec (.chrd c a k) s = .next t ∧ Issued s t s.cc
        [(s.key (s.cyc + 1) 2, .land s.cur [.clock k.toNat ⟨true, false, 1, 0, false, false⟩])]) ∧
    (k.toNat < 2 ∨ s.readsCh c.toNat = false → ∃ t, exec (.chrd c a k) s = .next t ∧ Trapped s t (s.fault ILLEGAL)) ∧
    (∀ q, s.chan s.ctx c.toNat = some q → q.rnode = s.rr.node → q.kind ≠ 0 → ∃ t, exec (.chpop c) s = .next t ∧
      Issued s t s.cc (if (s.snapshot c.toNat).isSome then [landing s 1 2 [.chPop c.toNat]] else [])) ∧
    (s.chan s.ctx c.toNat = none → ∃ t, exec (.chpop c) s = .next t ∧ Trapped s t (s.fault ILLEGAL)) ∧
    (∀ tg i n, Sources s [a.toNat] tg → s.inSeg = false → stageRoom s.cc = true →
      (i = .nodeq a ∧ n = StKind.nodeq (s.val a.toNat).toNat) ∨ (i = .glnch a ∧ n = StKind.glnch (s.val a.toNat).toNat) →
      ∃ t, exec i s = .next t ∧ Issued s t { s.cc with staging := s.cc.staging ++ [⟨n, [], s.cc.levels.length, false⟩] } []) ∧
    (∀ tg i, Sources s [a.toNat] tg → s.inSeg = false → stageRoom s.cc = false → (i = .nodeq a ∨ i = .glnch a) →
      ∃ t, exec i s = .next t ∧ Trapped s t (s.fault STAGEOVF))

/-! ## The step, the encoding, reset and the form that every step keeps -/

namespace Sys2Proof.Claim

/-- The state s with the single-bit errors that stand in m, and m's journal. -/
def correctedAs (s m : State) : State := { s with soft := m.soft, journal := m.journal, jhead := m.jhead, jlost := m.jlost }
/-- From s to m single-bit errors are at most corrected and journaled: none arises, and where none stands nothing changes (R221). -/
def onlyCorrects (s m : State) : Prop := (∀ e ∈ m.soft, e ∈ s.soft) ∧ (s.soft = [] → correctedAs s m = s)
/-- The state on which the bundle of length n at core's pc runs in its turn, from s: the core acts, and the bundle and the place
after it are at hand (R55); nothing else is changed, but for the correction of single-bit errors that its words meet (R221). -/
structure Begun (s m : State) (who n : Nat) (rest : List Turn) : Prop where
  rest : m = { correctedAs s m with todo := rest, cur := who, actor := .control, word := m.word, cores := m.cores }
  errors : onlyCorrects s m
  core : m.core who =
    { s.core who with issPc := (s.core who).pc, npc := (s.core who).pc + n, ncost := (s.core who).divisor 0, xfer := 0 }
  others : ∀ id, id ≠ who → m.core id = s.core id
/-- The turns that stand after an issue: one ahead of the engines leaves its turn to what else can act there. -/
def after (early : Bool) (core : Nat) (rest : List Turn) : List Turn := if early then .control core true :: rest else rest
/-- Words written out from the encodings that the spec gives beside its examples, and what they stand for. -/
def exampleWords : List (Nat × Instr) :=
  [(0x80810600, .add 4 2 3), (0x88408008, .addi 2 1 8), (0xA8000512, .ckdef 0 5 1 2), (0xA9860A20, .merge 12 10 2),
   (0xE1008C20, .mldb 2 3 1 0 0), (0xA0A0D000, .std 5 1 0), (0xA00A62AA, .afadd 20 21), (0xD8308002, .tld 3 2 2),
   (0xD8629400, .tlook 6 10), (0xF0000010, .run 0 0 2), (0xB000000C, .rbegin 12), (0xB08A2800, .rpresvS 5 5),
   (0xB8080010, .csrr 4 0x010), (0xBB800002, .fidel 2), (0xBA800000, .tret), (0xB8800035, .csrw 0 0x035)]

/-- A bundle of words ws, of n words with a literal, stands at address pc (R32, R33, R35, R36): one to three words, the last with E set
and no other; their slot groups rise; a word with a literal stands alone; and all of it lies in the code memory. -/
def isBundle (code : SMap Word) (pc : Nat) (ws : List Nat) (n : Nat) : Prop :=
  1 ≤ ws.length ∧ ws.length ≤ 3 ∧ pc + n ≤ 8192 ∧
    n = (if ws.any (fun w => takesLiteral (w % 2 ^ 31)) then 2 else ws.length) ∧
    (∀ k w, ws[k]? = some w → w = (SMap.get 0 code (pc + k)).toNat ∧ (w / 2 ^ 31 = 1 ↔ k + 1 = ws.length) ∧
      (takesLiteral (w % 2 ^ 31) = true → ws.length = 1)) ∧
    ∀ k a b, ws[k]? = some a → ws[k + 1]? = some b → slotGroup a < slotGroup b
/-- What a plan that holds asks for, and what one that acts does. -/
def asked : Plan → List Act
  | .hold l => l
  | _ => []
def done : Plan → List Act
  | .acts l => l
  | _ => []
/-- The bundle of s at a core's pc may issue: the core's turn has come, and no bundle is held there (R47, R55, R73). -/
structure MayIssue (s : State) (core : Nat) (early : Bool) (rest : List Turn) : Prop where
  turn : s.todo = .control core early :: rest
  acts : mayAct (s.region (core / 2048)) (s.core core) core = true
  issues : mayIssue (s.region (core / 2048)) (s.core core) = true
  fresh : (s.core core).held = false
/-- How a bundle with these plans ends, from the state b on which it began, in t (R33): a hold of any word holds it all; then the first word
that fails leaves it all without effect; and otherwise every word has its effect, and the bundle retires. -/
def endsTogether (b t : State) (ps : List Plan) : Prop :=
  ((∃ l, Plan.hold l ∈ ps) → t = (b.applyAll (ps.flatMap asked)).applyAll [b.upd (.held true), b.upd (.pc b.cc.issPc), b.upd (.nextAt (b.cyc + 1))]) ∧
  (∀ (k : Nat) f, (∀ l, Plan.hold l ∉ ps) → ps[k]? = some (Plan.trap f) → (∀ (j : Nat) g, j < k → ps[j]? ≠ some (Plan.trap g)) → Trapped b t f) ∧
  ((∀ p ∈ ps, ∃ l, p = .acts l) → t = (b.applyAll (ps.flatMap done)).applyAll (retire (b.applyAll (ps.flatMap done))))

end Sys2Proof.Claim

/-- R31, R35, R55, R173, R353: a step runs the decoded instruction. In a control core's turn that may issue, the one word of the
bundle at its pc runs, in the segment's last cycle only if it is SEGE, and in its turn ahead of the engines one that places an entry or
takes a token there and then; in an engine's turn its micro-order does; in the agenda's turn
the event that is due, and in the turn of inputs the first one that has arrived; in recovery one that nothing answers only leaves the
queue. The turns and their order, the queue of inputs and the word of a segment's last cycle are the model's choice (assumptions 1, 8, 12,
49). -/
def Sys2Proof.Claim.StepRunsTheDecodedInstruction : Prop :=
  ∀ (s : State) (rest : List Turn),
    (∀ core early i, let r := s.region (core / 2048)
      let c := s.core core
      let code := r.codeAt c
      let w := (SMap.get 0 code c.pc).toNat
      let n := if takesLiteral (w % 2 ^ 31) then 2 else 1
      MayIssue s core early rest → w / 2 ^ 31 = 1 →
      c.pc + n ≤ 8192 → decode w (SMap.get 0 code (c.pc + 1)) = .ok i →
      (∀ g, c.seg = some g → r.cyc + 1 = g.start + g.len → ∃ lit, i = .sege lit) →
      ∃ m, Begun s m core n (after early core rest) ∧
        (early = false ∨ (actsFirst i = true ∧ ∃ l, planWord i m = .acts l) →
          step s = exec i m)) ∧
    (∀ core e i, let r := s.region (core / 2048)
      let c := s.core core
      s.todo = .engine core e :: rest → r.phase = .run ∨ r.phase = .stopping → c.ended = false →
      (c.eng e).running = true → (c.eng e).stopped = false → (c.eng e).due ≤ r.cyc → (r.cyc - r.ibase) % c.divisor (e + 1) = 0 →
      microOrder c e = some i → ∃ m, step s = exec i m ∧ onlyCorrects s m ∧
        m = { correctedAs s m with todo := rest, cur := core, actor := .engine e }) ∧
    (∀ ctx k core a i more, s.todo = .agenda ctx :: rest → (s.region ctx).agenda = (k, .ev core a i) :: more →
      (s.region ctx).phase.counts = true → k.due ≤ (s.region ctx).cyc →
      ∃ m, step s = exec i m ∧ onlyCorrects s m ∧ m = { correctedAs s m with cur := core, actor := a, regions := m.regions } ∧
        m.region ctx = { s.region ctx with agenda := more } ∧ ∀ x, x ≠ ctx → m.region x = s.region x) ∧
    (∀ x, s.todo = .inputs :: rest → (s.inputs.find? fun x => decide (x.1 ≤ s.now)) = some x → x.2.2.isWord = false →
      (s.recovery = false ∨ answersInRecovery x.2.2 = true →
        step s = exec x.2.2 { s with inputs := s.inputs.erase x, cur := x.2.1, actor := .control }) ∧
      (s.recovery = true → answersInRecovery x.2.2 = false → step s = .next { s with inputs := s.inputs.erase x }))

/-- R32, R33, R35, R36: what stands at a core's pc is the bundle of one to three words whose form the rules give, and nothing where the form
is broken; a core outside the handler reads its image's words. Where the handler's words lie is the model's choice (assumptions 62). -/
def Sys2Proof.Claim.BundlesAreFetched : Prop :=
  (∀ (code : SMap Word) (pc : Nat) (ws : List Nat) (n : Nat), fetchBundle code pc = some (ws, n) ↔ isBundle code pc ws n) ∧
    ∀ (r : Region) (c : Core), (c.inHandler = false → r.codeAt c = r.code) ∧
      (c.inHandler = true → r.fwAt ≤ c.pc → c.pc < r.fwAt + Config.handlerLen → r.codeAt c = r.fw)

/-- R31, R32, R33, R40, R73: a bundle of two or three words issues together, each word by its plan on the state with which the bundle began: a
hold of any word holds it all, the first word that fails leaves it all without effect, and otherwise every word has its effect; a broken
form, and a word that does not decode, raise ILLEGAL. Ahead of the engines one that places an entry or takes a token issues so where
nothing holds it. The model's choices: the turns (assumptions 1, 12), the hold of a bundle before its checks with what every held word asks
for, and ILLEGAL at once for a broken form (assumptions 28). -/
def Sys2Proof.Claim.BundlesIssueTogether : Prop :=
  ∀ (s : State) (rest : List Turn) (core : Nat) (early : Bool), MayIssue s core early rest →
    let r := s.region (core / 2048)
    let c := s.core core
    let code := r.codeAt c
    (∀ g, c.seg = some g → r.cyc + 1 ≠ g.start + g.len) →
    (∀ ws n, fetchBundle code c.pc = some (ws, n) → 2 ≤ ws.length ∨ (∃ w e, ws = [w] ∧ decodeAt code c.pc w = .error e) → ∃ b, Begun s b core n (after early core rest) ∧
      let ps := planWords (ws.map (decodeAt code c.pc)) b
      (early = false → ∃ t, step s = .next t ∧ endsTogether b t ps) ∧
      (early = true → (wordsAt r c).any actsFirst = true → (∀ p ∈ ps, ∃ l, p = .acts l) → ∃ t, step s = .next t ∧ endsTogether b t ps)) ∧
    (fetchBundle code c.pc = none → early = false → ∃ b t, step s = .next t ∧ Begun s b core 1 rest ∧ Trapped b t (b.fault ILLEGAL))

/-- R12, R18, R24, R33, R34, R40, R153, R172, R176: the plan of each word of a bundle: the one it has alone on the state with which the bundle
began, with the entries, staging entries and tokens that the words before it take; a word that tests a tile or reads a count of its engines,
which act after it, finds the core as they leave it; a bundle that does not act so finds a place in a queue that they leave free; a word that
does not decode raises ILLEGAL. That order is the model's choice (assumptions 12, 28). -/
def Sys2Proof.Claim.WordsPlanOnTheirBundlesState : Prop :=
  ∀ (ws : List (Except DecodeError Instr)) (b : State),
    (∀ on : State, let ps := planInOrder ws on
      let qs := planWordsOn ws on b
      qs.length = ws.length ∧ ∀ k w, ws[k]? = some w →
        ps[k]? = some (planDecoded w (on.applyAll ((ps.take k).flatMap (Plan.placements on.cur)))) ∧
        (b.enginesToCome = false ∨ (∀ i, w = .ok i → afterEngines i = false) → qs[k]? = ps[k]?) ∧
        ∀ i, w = .ok i → afterEngines i = true → b.enginesToCome = true → qs[k]? =
          some (planWord i { b with cores := SMap.set {} b.cores b.cur (coreAfterEngines b (ps.flatMap (Plan.placements b.cur))) })) ∧
    (let ps := planWordsOn ws b b
      let qs := planWordsOn ws b.roomy b
      (b.enginesToCome = false ∨ allAct ps = true ∨ allAct qs = false ∨ Machine.fits b qs = false → planWords ws b = ps) ∧
      (b.enginesToCome = true → allAct ps = false → allAct qs = true → Machine.fits b qs = true → planWords ws b = qs)) ∧
    (∀ e, planDecoded (.error e) b = .trap (b.fault ILLEGAL)) ∧ ∀ i, planDecoded (.ok i) b = planWord i b

/-- R32, R33: every word acts by the plan that it has alone: exec of a word resolves that plan. -/
def Sys2Proof.Claim.WordsActByTheirPlans : Prop :=
  ∀ (i : Instr) (s : State), i.isWord = true → exec i s = resolve s (planWord i s)

/-- A step runs the decoded instruction: StepRunsTheDecodedInstruction, BundlesAreFetched, BundlesIssueTogether, WordsPlanOnTheirBundlesState, WordsActByTheirPlans hold. -/
def Obligations.StepRunsTheDecodedInstruction : Prop :=
  Claim.StepRunsTheDecodedInstruction ∧ Claim.BundlesAreFetched ∧ Claim.BundlesIssueTogether ∧ Claim.WordsPlanOnTheirBundlesState ∧ Claim.WordsActByTheirPlans

/-- The words of the spec's examples decode to the instructions that they stand for. -/
def Obligations.ExampleWordsDecode : Prop :=
  ∀ p ∈ exampleWords, decodeTableWord 32 p.1 = some p.2

/-- R31, R35, R37, R40, R41: decoding the encoding of any instruction that keeps its field limits gives that instruction, with its literal. -/
def Obligations.EncodingsDecode : Prop :=
  ∀ i : Instr, i.isWord = true → i.wellFormed = true → decode (encode i) i.literal = .ok i

/-- R31, R35, R37, R40, R41: a word that decodes at all is the encoding of what it decodes to, the E bit apart, which belongs to the
bundle and not to the instruction (assumptions 2): no other bit of it is dropped, and no other word stands for the same
instruction. -/
def Obligations.DecodedWordsEncode : Prop :=
  ∀ (w : Nat) (lit : Word) (i : Instr), decode w lit = .ok i →
    i.isWord = true ∧ i.wellFormed = true ∧ encode i = w % 2 ^ 31 ∧ (takesLiteral (w % 2 ^ 31) = true → i.literal = lit)

/-- R9, R220, R226: every step that goes on keeps the form of the machine: the memory tiers, the scratchpads and the scalars are
canonical, and no value is stored for s0. -/
def Obligations.EveryStepKeepsTheForm : Prop :=
  ∀ s t : State, s.Inv → step s = .next t → t.Inv

/-- R25, R345, R352: reset has the form that every step keeps; DTIME is 0, the device control block reads its reset values, no core
and no region stands, and its first step is Dawn. Memory lists nothing and every byte of it reads 0: the model's choice (assumptions
4), as are the order of a cycle's turns and the first one (assumptions 1). -/
def Obligations.ResetState : Prop :=
  State.reset.Inv ∧ State.reset.dtime = 0 ∧ State.reset.powercap = 2400 ∧ State.reset.mwTier = 0 ∧ State.reset.mwBase = 0 ∧
    State.reset.timeOfs = 0 ∧ State.reset.fwStage = 0 ∧ State.reset.fwStatus = 0 ∧ State.reset.cores = [] ∧ State.reset.regions = [] ∧
    State.reset.mem = [] ∧ (∀ k, State.reset.byte k = 0) ∧ ∃ m, step State.reset = exec .dawn m ∧ m.dtime = 0 ∧ m.cores = [] ∧ m.regions = []

/-- R23, R24: what has fallen due lands in its cycle: in the agenda's turn a landing puts its values where it names, in its core
alone, and leaves memory and every other core as they were. -/
def Sys2Proof.Claim.LandingsWriteTheirCore : Prop :=
  ∀ (s : State) (rest : List Turn) (ctx id : Nat) (k : Key) (l : List CAct) (more : List (Key × Item)),
    s.todo = .agenda ctx :: rest → (s.region ctx).agenda = (k, .land id l) :: more → (s.region ctx).phase.counts = true →
    k.due ≤ (s.region ctx).cyc → ∃ t, step s = .next t ∧ t = { s with cores := t.cores, regions := t.regions } ∧
      t.core id = l.foldl CAct.apply (s.core id) ∧ (∀ x, x ≠ id → t.core x = s.core x) ∧
      t.region ctx = { s.region ctx with agenda := more } ∧ ∀ x, x ≠ ctx → t.region x = s.region x

/-- R9, R24, R53: a scalar landing writes value and tag of its register alone; s0 discards it and reads 0 with tag k0, before and
after. -/
def Sys2Proof.Claim.ScalarLandings : Prop :=
  ∀ (c : Core) (r : Nat) (v : DWord) (tg : Tag) (bad : Bool), Core.wf c = true →
    let d := CAct.apply c (.reg r v tg bad)
    d = { c with regs := d.regs } ∧ (r ≠ 0 → d.reg r = ⟨v, tg, bad⟩) ∧ (∀ x, x ≠ r → d.reg x = c.reg x) ∧ d.reg 0 = ⟨0, 0, false⟩ ∧
      c.reg 0 = ⟨0, 0, false⟩

/-- Landings write their registers, and s0 reads 0: LandingsWriteTheirCore, ScalarLandings hold. -/
def Obligations.LandingsWriteTheirRegisters : Prop :=
  Claim.LandingsWriteTheirCore ∧ Claim.ScalarLandings

namespace Sys2Proof.Claim

/-- The new value of a location under the 64-bit atomic of a sub, from the table of R157: its old value, the operand, and the value that
ACAS compares. -/
def atomicNew (sub : Nat) (m b cmp : DWord) : DWord :=
  match sub with
  | 0 => m + b
  | 1 => m &&& b
  | 2 => m ||| b
  | 3 => m ^^^ b
  | 4 => if m.toInt ≤ b.toInt then m else b
  | 5 => if m.toInt ≤ b.toInt then b else m
  | 6 => if m.toNat ≤ b.toNat then m else b
  | 7 => if m.toNat ≤ b.toNat then b else m
  | 8 => b
  | _ => if m = cmp then b else m
/-- A scratchpad store of bytes in place: bytes off, off + 1, ... are those of the list, and every other byte is as before. -/
def storedAt (s t : State) (target off : Nat) (bytes : List Byte) : Prop :=
  (∀ i, i < bytes.length → t.spadByte target (off + i) = bytes.getD i 0) ∧
    ∀ id x, (id ≠ target ∨ x < off ∨ off + bytes.length ≤ x) → t.spadByte id x = s.spadByte id x

end Sys2Proof.Claim

/-- R148, R150, R151, R157, R207: a timed load samples its bytes, little-endian, sign-extended for LDxS forms, and its register lands
L later with the access's tag, memory and scratchpads as before; a 64-bit atomic writes its new value over the old one, which lands; a
scratchpad store writes its bytes and no other byte, with no line to capture. -/
def Obligations.TimedAccessesPerform : Prop :=
  ∀ (s : State) (k : Key) (id target off addr size d land : Nat) (signed timed : Bool) (tag : Tag) (b cmp : DWord),
    (∀ c, c = s.core id → (s.core target).spErr off size = false → (c.csr 0x070).toNat % 256 ≠ 0x10 → 0 < size → size ≤ 8 →
      let raw := BitVec.ofNat 64 ((List.range size).foldr (fun i n => (s.spadByte target (off + i)).toNat + 256 * n) 0)
      let t := s.applyAll ((Item.sample id target off addr size signed d tag 0 b cmp land timed).run k s)
      t = { s with regions := t.regions } ∧ t.region (id / 2048) = { s.region (id / 2048) with
        agenda := agendaInsert { k with due := land, phase := 0 }
          (.land id [.reg d (if signed then (raw <<< (64 - 8 * size)).sshiftRight (64 - 8 * size) else raw) tag false])
          (s.region (id / 2048)).agenda }) ∧
    (∀ n, n < 10 → (s.core target).undo = [] → (s.core target).spErr off 8 = false → ((s.core id).csr 0x070).toNat % 256 ≠ 0x10 →
      let old := BitVec.ofNat 64 ((List.range 8).foldr (fun i n => (s.spadByte target (off + i)).toNat + 256 * n) 0)
      let t := s.applyAll ((Item.sample id target off addr 8 signed d tag (n + 1) b cmp land timed).run k s)
      t = { s with cores := t.cores, regions := t.regions } ∧
        storedAt s t target off ((List.range 8).map fun i => BitVec.ofNat 8 ((atomicNew n old b cmp).toNat / 256 ^ i)) ∧
        (∀ x, (t.core x).regs = (s.core x).regs) ∧ t.region (id / 2048) = { s.region (id / 2048) with
          agenda := agendaInsert { k with due := land, phase := 0 } (.land id [.reg d old tag false]) (s.region (id / 2048)).agenda }) ∧
    (∀ bytes : List Byte, (s.core target).undo = [] →
      let t := s.applyAll ((Item.perform id target off bytes false).run k s)
      t = { s with cores := t.cores } ∧ storedAt s t target off bytes ∧ (t.core target).regs = (s.core target).regs ∧
        ∀ x, x ≠ target → t.core x = s.core x)

/-! ## Traps (R302, R305) -/

/-- R302, R305: the first fault of a region opens its window: it names the fault, the cycle and the context at F, and the freeze
falls 48 cycles later; a later fault up to F + 47 is counted and joins OTHER; in the same cycle the lower core, and of one core the
control core before MX, VX and CP, is named; from the freeze on nothing is counted. -/
def Sys2Proof.Claim.FaultWindow : Prop :=
  ∀ (r : Region) (f : FaultInfo) (dt rd : Nat) (pseg : Bool),
    (r.fault = none → r.frozen = false → ∃ w, (r.raise f dt rd pseg false).fault = some w ∧ w.first = f ∧ w.cyc = r.cyc ∧ w.count = 1 ∧
      w.other = 0 ∧ w.ibase = r.ibase ∧ w.instant = r.instant ∧ w.dtime = dt ∧ w.rdepth = rd ∧ w.pseg = pseg ∧
      (r.raise f dt rd pseg false).frz = r.cyc + 48 ∧
      (r.raise f dt rd pseg false).agenda =
        agendaInsert { due := r.cyc + 48, phase := 3 } (.ev (r.ctx * 2048) .control .freeze) r.agenda) ∧
    (∀ w, r.fault = some w → w.cyc < r.cyc → r.cyc < w.cyc + 48 →
      r.raise f dt rd pseg false = { r with fault := some { w with count := min 255 (w.count + 1), other := w.other ||| 1#64 <<< f.code } }) ∧
    (∀ w, r.fault = some w → w.cyc = r.cyc → (f.core < w.first.core ∨ (f.core = w.first.core ∧ engRank f.eng < engRank w.first.eng)) →
      ∃ w', (r.raise f dt rd pseg false).fault = some w' ∧ w'.first = f ∧ w'.count = min 255 (w.count + 1) ∧
        w'.other = w.other ||| 1#64 <<< w.first.code) ∧
    (∀ w, r.fault = some w → w.cyc = r.cyc → (w.first.core < f.core ∨ (f.core = w.first.core ∧ engRank w.first.eng ≤ engRank f.eng)) →
      ∃ w', (r.raise f dt rd pseg false).fault = some w' ∧ w'.first = w.first ∧ w'.count = min 255 (w.count + 1) ∧
        w'.other = w.other ||| 1#64 <<< f.code) ∧
    (∀ w, r.fault = some w → w.cyc + 48 ≤ r.cyc → r.raise f dt rd pseg false = r)

/-- R214, R216, R311: the handler is entered on the faulting core: TRAPC takes code and INFO, TRAPST the mode, the open segment and
NEXT, TRAPPC the address of the bundle; the mode becomes system and the next bundle is at TVEC one cycle later; no scalar, tile or
byte changes. -/
def Sys2Proof.Claim.HandlerEntry : Prop :=
  ∀ (c : Core) (f : FaultInfo) (pseg : Bool) (cyc : Nat), f.code < 65536 →
    let d := (enterHandler f pseg c cyc).foldl CAct.apply c
    d = { c with csrs := d.csrs, mode := .system, inHandler := true, trapped := false, held := false, missed := [], segSaved := c.seg, seg := none
                 waitsSaved := c.waits, nextSaved := c.nextAt, pcSaved := c.pc % 8192, issSaved := c.issPc, waits := []
                 pc := (c.csr 0x054).toNat % 8192, nextAt := cyc + 1 } ∧
      d.csr 0x050 = BitVec.ofNat 64 (f.code + 65536 * f.info) ∧
      d.csr 0x051 = BitVec.ofNat 64 ((if c.mode = .system then 1 else 0) + (if pseg then 2 else 0) + if f.next then 4 else 0) ∧
      d.csr 0x052 = BitVec.ofNat 64 (c.pc % 8192) ∧ ∀ n, n ≠ 0x050 → n ≠ 0x051 → n ≠ 0x052 → d.csr n = c.csr n

/-- Faults open a window; the handler is entered, and the region resumes: FaultWindow, HandlerEntry, HandlersResumeTheRegion hold. -/
def Obligations.FaultsOpenTheirWindow : Prop :=
  Claim.FaultWindow ∧ Claim.HandlerEntry ∧ Claim.HandlersResumeTheRegion

/-! ## Events of a core and of translation (R47, R152, R161 to R165, R173 to R175, R235, R236, R239, R309) -/

namespace Sys2Proof.Claim

/-- The fault of a wait that expires names its object and its two values as R165 and R309 state; cores that have ended their group
count as arrived (R200, R206). -/
def expiryNames (s : State) (since : Nat) (k : WaitKind) (f : FaultInfo) : Prop :=
  match k with
  | .lwait d => let l := s.cc.untimed.filter fun u => d = 0 ∨ u.d = d
    f.wobj = (l.head?.map Untimed.d).getD 0 ∧ f.wval1 = l.length ∧ f.wval2 = d
  | .mwait _ addr target _ keys ord => f.wobj = addr ∧ f.wval1 = target.toNat ∧
    (∀ v, mwaitSample s since addr keys ord = some v → f.wval2 = v.1.toNat) ∧ (mwaitSample s since addr keys ord = none → f.wval2 = 0)
  | .qwait ch => f.wobj = ch ∧ f.wval1 = s.nextTime s.ctx ∧ f.wval2 = committedTime s ch
  | .waitt t => f.wobj = t ∧ f.wval1 = SMap.get 0 s.cc.tokens t ∧ f.wval2 = 0
  | .qdrn g => (g < 3 → drained s.cc g = false → f.wobj = g ∧ f.wval1 = (s.cc.eng g).queue.length) ∧ f.wval2 = 0
  | .sbwt b _ => f.wobj = b ∧ f.wval1 = (SMap.get {} s.cc.bars b).expected.toNat ∧ f.wval2 = (SMap.get {} s.cc.bars b).delivered.toNat
  | .barw b => f.wobj = b ∧ f.wval1 = (s.rr.ids.filter fun id => SMap.get false (s.core id).btArr b || (s.core id).ended).length ∧ f.wval2 = 0
  | .rbegin _ => f.wobj = s.cc.levels.length + 1 ∧ f.wval1 = waitingAt s (.rbegin true) ∧ f.wval2 = 0
  | .rend _ => f.wobj = s.cc.levels.length ∧ f.wval1 = waitingAt s (.rend true) ∧ f.wval2 = 0
  | .fence => True
  | .tlblk _ _ => True
/-- The core goes on after its one wait: the next bundle issues no earlier than the next cycle. -/
def goneOn (s : State) : Core := { s.cc with waits := [], nextAt := max s.cc.nextAt (s.cyc + 1) }
/-- The wait holds the stream no more, by the rule of its word, and does nothing else as it ends (R155, R162, R184, R197, R200). -/
def plainEnd (s : State) : WaitKind → Prop
  | .lwait d => ∀ u ∈ s.cc.untimed, d ≠ 0 ∧ u.d ≠ d
  | .qdrn g => ∀ e ∈ (if g = 3 then [0, 1, 2] else [g]), drained s.cc e = true
  | .sbwt b ph => (SMap.get {} s.cc.bars b).phase = ph
  | .barw b => SMap.get false s.cc.btOwed b = false
  | .fence => s.cc.untimed = []
  | _ => False

end Sys2Proof.Claim

/-- R33, R47: HELD_BUNDLE_ISSUE tries the acting core's bundle again, as if it issued in this cycle: its plans' effects together, or the trap of
the first word that fails, or its hold; a single word runs. That a hold holds the whole bundle, and the turns, are the model's reading
(assumptions 28, 12). -/
def Sys2Proof.Claim.HeldBundlesIssue : Prop :=
  ∀ (s : State) (ws : List Nat) (n : Nat), s.actor = .control → let code := s.rr.codeAt s.cc
    fetchBundle code s.cc.pc = some (ws, n) →
    (∀ g, s.cc.seg = some g → s.cyc + 1 = g.start + g.len → ∃ lit m, soleInstr code s.cc.pc = some (.sege lit, m)) →
    ∃ m t, exec .heldBundleIssue s = .next t ∧ Begun s m s.cur n s.todo ∧
      endsTogether m t (planWords (ws.map (decodeAt code s.cc.pc)) m) ∧
      ∀ (i : Instr) (k : Nat), soleInstr code s.cc.pc = some (i, k) → i.isWord = true →
        s.enginesToCome = false ∨ (afterEngines i = false ∧ ∃ l, planWord i m = .acts l) → exec i m = .next t

/-- R24, R155, R161 to R164, R182, R184, R197, R200, R219, R246: WAIT_END ends a wait whose condition holds: WAITT takes its token,
QWAIT frees its channel, MWAIT's value lands in the next cycle in the place of MWAIT's issue, or its error falls due there, and on a
page MWAIT orders accesses as a FENCE.ACQ does, TLBLK's entries are locked, and the next bundle issues no earlier than the next cycle;
nothing else changes. When QWAIT's channel frees, and that a poisoned sample raises UECC as it would land and an MWAIT on a page orders
accesses without holding the stream for the earlier ones, is the model's choice or reading (assumptions 30, 48, 56). -/
def Sys2Proof.Claim.WaitsEnd : Prop :=
  ∀ (s : State) (w : Wait), s.cc.waits = [w] →
    (plainEnd s w.kind → ∃ t, exec .waitEnd s = .next t ∧ OnlyCore s t s.cur (goneOn s)) ∧
    (∀ x, w.kind = .waitt x → SMap.get 0 s.cc.tokens x ≠ 0 → ∃ t, exec .waitEnd s = .next t ∧
      OnlyCore s t s.cur { goneOn s with tokens := SMap.set 0 s.cc.tokens x (SMap.get 0 s.cc.tokens x - 1) }) ∧
    (∀ ch, w.kind = .qwait ch → s.qwaitMet s.ctx ch = true → ∃ t, exec .waitEnd s = .next t ∧ t.cc = goneOn s ∧ t.mem = s.mem ∧
      t.rr = { s.rr with qwaited := ch :: s.rr.qwaited } ∧ ∀ id, id ≠ s.cur → t.core id = s.core id) ∧
    (∀ d addr target tg keys ord v bad, w.kind = .mwait d addr target tg keys ord → mwaitSample s w.since addr keys ord = some (v, bad) →
      (v - target).toNat < 2 ^ 63 → ∃ t, exec .waitEnd s = .next t ∧ t.mem = s.mem ∧
        t.cc = { goneOn s with fencedAt := if keys = [] then s.cc.fencedAt else s.cc.serial } ∧
        t.rr = { s.rr with
          agenda := agendaInsert { s.key (s.cyc + 1) 1 with issue := w.since }
            (if bad then .uecc s.cur addr d v tg false else .land s.cur [.reg d v tg false]) s.rr.agenda } ∧
        ∀ id, id ≠ s.cur → t.core id = s.core id) ∧
    (∀ lo len l, w.kind = .tlblk lo len → tryLock s.cc s.ctx lo len = .done l → ∃ t, exec .waitEnd s = .next t ∧
      OnlyCore s t s.cur { goneOn s with tlb := l })

/-- R161, R164, R165, R302, R309: WAITEXP raises its trap for a wait at its bound, with the object and values of its word; the
stream stops at the waiting word's bundle; where the wait is a QWAIT its channel is freed for the start all the same, and no other
wait frees one; nothing else of the core changes. What the records of RBEGIN and of an MWAIT without a sample name, QWAIT's times,
a channel freed as its wait expires, and the time sought of a region that a channel clocks are the model's reading (assumptions 13, 30,
45, 47, 54, 65). -/
def Sys2Proof.Claim.WaitsExpire : Prop :=
  ∀ (s : State) (w : Wait) (n : Nat), s.cc.waits = [w] → w.due = some n → n ≤ s.cyc →
    ∃ t f, exec .waitexp s = .next t ∧ f.code = WAITEXP ∧ f.core = s.cur ∧ f.faddr = 0 ∧ expiryNames s w.since w.kind f ∧
      t.cc = { s.cc with waits := [], trapped := true, pc := s.cc.issPc } ∧ t.mem = s.mem ∧
      t.rr = RAct.apply s (match w.kind with | .qwait ch => { s.rr with qwaited := ch :: s.rr.qwaited } | _ => s.rr) (.raise f) ∧
      ∀ id, id ≠ s.cur → t.core id = s.core id

/-- Held bundles issue; waits end or expire: HeldBundlesIssue, WaitsEnd, WaitsExpire hold. -/
def Obligations.WaitsEndAndExpire : Prop :=
  Claim.HeldBundlesIssue ∧ Claim.WaitsEnd ∧ Claim.WaitsExpire

namespace Sys2Proof.Claim

/-- Engine e of the acting core has its head running: h is this cycle, its first step due now (R173). -/
def started (s : State) (e : Nat) (q : QEntry) (c : Core) : Core :=
  c.setEng e { c.eng e with running := true, step := q.base, rep := q.reps, due := s.cyc, headSeq := (c.eng e).seq, lastH := some s.cyc
                            doneAt := 0, copies := 0, blocked := false }
/-- The cycle at which engine e can next dequeue: after its last step's occupancy and the pacing gap, on its divisor's grid from
IBASE (R173, R181, R294). -/
def nextFree (s : State) (e n : Nat) : Prop :=
  let g := s.cc.eng e
  let low := max g.freeAt (match g.lastH with | some h => h + g.pace | none => 0)
  let d := s.cc.divisor (e + 1)
  s.rr.ibase ≤ n ∧ low ≤ n ∧ (n - s.rr.ibase) % d = 0 ∧ ∀ m, s.rr.ibase ≤ m → low ≤ m → (m - s.rr.ibase) % d = 0 → n ≤ m

end Sys2Proof.Claim

/-- R173, R174, R180, R182, R309: QUEUE_ENTRY_START starts the entry at an idle engine's head at or after its stamp: an elastic entry
once the engine can dequeue, its token is there and its guard is written, and the token is consumed; a guard of value 0 skips it;
a timed entry starts at its stamp, and raises SCHED for a late stamp (5), an empty token (10) or an unwritten guard (3), and stays
at the head; an entry that has raised it is not tried again. Cause 5 for one that comes to the head after its stamp is the model's
reading (assumptions 46). -/
def Sys2Proof.Claim.EntriesStart : Prop :=
  ∀ (s : State) (e h : Nat) (q : QEntry) (more : List QEntry), s.actor = .engine e → e < 3 → (s.cc.eng e).queue = q :: more →
    (s.cc.eng e).running = false → s.cc.divisor (e + 1) ≠ 0 → nextFree s e h → s.rr.ibase + q.stamp ≤ s.cyc →
    (q.faulted = true → exec .queueEntryStart s = .next s) ∧
    (q.faulted = false → q.stok = none → (q.timed = false → h ≤ s.cyc ∧ (s.cyc - s.rr.ibase) % s.cc.divisor (e + 1) = 0) →
      (q.timed = true → s.rr.ibase + q.stamp = s.cyc ∧ h ≤ s.cyc ∧ q.stamp % s.cc.divisor (e + 1) = 0) →
      (∀ x, q.wtok = some x → SMap.get 0 s.cc.tokens x ≠ 0) → (∀ p, q.guard = some p → (SMap.get ({} : Pred) s.cc.preds p).written = true) →
      let c := match q.wtok with
        | some x => { s.cc with tokens := SMap.set 0 s.cc.tokens x (SMap.get 0 s.cc.tokens x - 1) }
        | none => s.cc
      ((∀ p, q.guard = some p → (SMap.get ({} : Pred) s.cc.preds p).value = true) →
        ∃ t, exec .queueEntryStart s = .next t ∧ OnlyCore s t s.cur (started s e q c)) ∧
      (∀ p, q.guard = some p → (SMap.get ({} : Pred) s.cc.preds p).value = false →
        ∃ t, exec .queueEntryStart s = .next t ∧ OnlyCore s t s.cur (c.setEng e { c.eng e with
          queue := more, headSeq := (c.eng e).seq, seq := (c.eng e).seq + 1, lastH := some s.cyc, freeAt := s.cyc + 1 }))) ∧
    (∀ cause obj, q.faulted = false → q.timed = true → q.stamp % s.cc.divisor (e + 1) = 0 →
      ((cause = 5 ∧ obj = e ∧ (s.rr.ibase + q.stamp < s.cyc ∨ s.cyc < h)) ∨
        (s.rr.ibase + q.stamp = s.cyc ∧ h ≤ s.cyc ∧ cause = 10 ∧ q.wtok = some obj ∧ SMap.get 0 s.cc.tokens obj = 0) ∨
        (s.rr.ibase + q.stamp = s.cyc ∧ h ≤ s.cyc ∧ cause = 3 ∧ q.wtok = none ∧ q.guard = some obj ∧
          (SMap.get ({} : Pred) s.cc.preds obj).written = false)) →
      ∃ t f, exec .queueEntryStart s = .next t ∧ f.code = SCHED ∧ f.wobj = cause ∧ f.wval1 = s.rr.ibase + q.stamp ∧ f.wval2 = obj ∧
        f.core = s.cur ∧ f.eng = e ∧ f.timed = true ∧ t.cc = s.cc.setEng e { s.cc.eng e with queue := { q with faulted := true } :: more } ∧
        t.rr = RAct.apply s s.rr (.raise f) ∧ t.mem = s.mem)

/-- R175, R182: ENTRY_COMPLETION takes the acting engine's entry that is due out of its list and adds 1 to the token that it signals;
at 255 the token stays and SCHED is raised with cause 7, in the entry's name. -/
def Sys2Proof.Claim.EntriesComplete : Prop :=
  ∀ (s : State) (e : Nat) (f : Finishing), s.actor = .engine e → e < 3 →
    ((s.cc.eng e).finishing.find? fun f => f.copies = 0 && decide (f.doneAt ≤ s.cyc)) = some f →
    let c := s.cc.setEng e { s.cc.eng e with finishing := (s.cc.eng e).finishing.filter fun x => x.serial ≠ f.serial }
    (f.stok = none → ∃ t, exec .entryCompletion s = .next t ∧ OnlyCore s t s.cur c) ∧
    (∀ x, f.stok = some x → SMap.get 0 s.cc.tokens x < 255 → ∃ t, exec .entryCompletion s = .next t ∧
      OnlyCore s t s.cur { c with tokens := SMap.set 0 s.cc.tokens x (SMap.get 0 s.cc.tokens x + 1) }) ∧
    (∀ x, f.stok = some x → 255 ≤ SMap.get 0 s.cc.tokens x → ∃ (t : State) (g : FaultInfo),
      exec .entryCompletion s = .next t ∧ t.cc = c ∧ t.mem = s.mem ∧ t.rr = RAct.apply s s.rr (.raise g) ∧ g.code = SCHED ∧ g.wobj = 7 ∧ g.wval2 = x ∧ g.core = s.cur ∧ g.eng = e ∧ g.fseq = f.seq.toNat)

/-- Queue entries start and complete: EntriesStart, EntriesComplete hold. -/
def Obligations.EntriesStartAndComplete : Prop :=
  Claim.EntriesStart ∧ Claim.EntriesComplete

/-- R152, R305, R321: UNTIMED_RESULT_LAND lands the oldest result that memory has served, value and tag together, and its access is
outstanding no more; a poisoned one raises UECC at its address and leaves the register, but where the window of the region's fault has
closed it lands with its error; one not served yet falls due again. -/
def Sys2Proof.Claim.UntimedResultsLand : Prop :=
  ∀ (s : State) (u : Untimed) (more : List Untimed), s.cc.untimed = u :: more →
    (∀ v, u.served = some (v, false, 0) → ∃ t, exec .untimedResultLand s = .next t ∧ OnlyCore s t s.cur { s.cc with
      untimed := more, regs := if u.d = 0 then s.cc.regs else SMap.set {} s.cc.regs u.d ⟨v, u.tag, false⟩ }) ∧
    (∀ v fl, u.served = some (v, true, fl) → ∃ t f, exec .untimedResultLand s = .next t ∧
      t.cc = { s.cc with untimed := more, regs := if s.rr.closed = false ∨ u.d = 0 then s.cc.regs else SMap.set {} s.cc.regs u.d ⟨v, u.tag, true⟩ } ∧
      f.code = UECC ∧ f.core = s.cur ∧ f.faddr = u.va ∧ t.rr = RAct.apply s s.rr (.raise f)) ∧
    (u.served = none → ∃ t, exec .untimedResultLand s = .next t ∧ t.cores = s.cores ∧ t.regions = s.regions ∧ t.mem = s.mem ∧
      t.agenda = laterInsert (s.now + 1) (.result s.cur) s.agenda)

/-- An entry of the context covers the address, or overlaps the page that the tables now give there (R239). -/
def Sys2Proof.Claim.leaves (s : State) (ctx va : Nat) (e : TlbEnt) : Bool :=
  e.covers ctx va || (e.ctx = ctx && (s.walk ctx va).any fun p => decide (e.base < p.base + p.size) && decide (p.base < e.base + e.size))

/-- R33, R147, R235, R236, R239: TLB_WALK_COMPLETE gives the translation of the die TLB, or else of the tables, to the die TLB and to the walk's
requester, whose held bundle or CP step goes on in the next cycle. Where there is none, a held bundle and a copy step know it as they are tried
again, in their place among their checks, and raise XLATE at that address; a TLBLK raises it now. The walks under way go on; TLB_INVALIDATE takes the entries of the page out of every die TLB and out of the region's core TLBs and CP steps, but for locked
ones, and falls due again while a locked one stands that the tables no longer give. That a die TLB keeps the 8,192 entries that were filled or
hit last is the model's choice (assumptions 69). -/
def Sys2Proof.Claim.TranslationEvents : Prop :=
  (∀ (s : State) (die ctx va id addr : Nat) (w : Walk), w.waiters = [(id, 3, addr)] →
    (s.walks.find? fun w => w.die = die ∧ w.ctx = ctx ∧ w.va = va ∧ w.started) = some w →
    (s.core id).tlbHit ctx addr = none →
    let found := ((SMap.get [] s.dieTlb die).find? fun e => e.covers ctx va).or (s.walk ctx va)
    (∀ e, found = some e → ∃ t, exec (.tlbWalkComplete die ctx va) s = .next t ∧ t.mem = s.mem ∧ t.regions = s.regions ∧
      SMap.get [] t.dieTlb die = (e :: (SMap.get [] s.dieTlb die).filter fun x => !x.covers ctx va).take 8192 ∧
      t.core id = { s.core id with tlb := fillTlb e (s.core id).tlb, nextAt := max (s.core id).nextAt ((s.region (id / 2048)).cyc + 1) } ∧
      (∀ x, x ≠ id → t.core x = s.core x) ∧
      (∀ x ∈ s.walks, x ≠ w → x.started = true → x ∈ t.walks) ∧
      ((∀ x ∈ s.walks, x.started = true) → t.walks = s.walks.filter (· ≠ w))) ∧
    (found = none → (s.core id).waits = [] → (s.core id).held = true → ∃ t, exec (.tlbWalkComplete die ctx va) s = .next t ∧ t.mem = s.mem ∧
      t.regions = s.regions ∧ t.core id = { s.core id with missed := addr :: (s.core id).missed } ∧
      (∀ (u : State) n acc, u.cc = t.core id → u.cc.tlbHit u.ctx addr = none → u.translate addr n acc = .fault XLATE addr)) ∧
    (found = none → (∃ k ∈ (s.core id).waits, ∃ lo len, k.kind = .tlblk lo len) →
      ∃ t f, exec (.tlbWalkComplete die ctx va) s = .next t ∧ t.mem = s.mem ∧ f.code = XLATE ∧ f.core = id ∧
      f.faddr = addr ∧ t.region (id / 2048) = RAct.apply s (s.region (id / 2048)) (.raise f) ∧
      t.core id = { s.core id with waits := [], held := false, missed := [], trapped := true, pc := (s.core id).issPc })) ∧
  (∀ (s : State) (die ctx va id addr : Nat) (w : Walk), w.waiters = [(id, 2, addr)] → (s.region (id / 2048)).closed = false →
    (s.walks.find? fun w => w.die = die ∧ w.ctx = ctx ∧ w.va = va ∧ w.started) = some w →
    ((SMap.get [] s.dieTlb die).find? fun e => e.covers ctx va).or (s.walk ctx va) = none →
    ∃ t, exec (.tlbWalkComplete die ctx va) s = .next t ∧ t.mem = s.mem ∧ t.regions = s.regions ∧
      t.core id = { s.core id with cp := { (s.core id).cp with xm := addr :: (s.core id).cp.xm } }) ∧
  (∀ (s : State) (die ctx va id addr : Nat) (w : Walk) (e : TlbEnt), w.waiters = [(id, 2, addr)] →
    (s.walks.find? fun w => w.die = die ∧ w.ctx = ctx ∧ w.va = va ∧ w.started) = some w → (s.core id).tlbHit ctx addr = none →
    ((SMap.get [] s.dieTlb die).find? fun e => e.covers ctx va).or (s.walk ctx va) = some e →
    ∃ t, exec (.tlbWalkComplete die ctx va) s = .next t ∧ t.mem = s.mem ∧ t.regions = s.regions ∧
      let g := (s.core id).cp
      t.core id = { s.core id with
        tlb := fillTlb e (s.core id).tlb, cp := { g with due := max g.due ((s.region (id / 2048)).cyc + 1), xl := e :: g.xl } }) ∧
  (∀ (s : State) (ctx va : Nat), s.Inv → ∃ t, exec (.tlbInvalidate ctx va) s = .next t ∧ t.mem = s.mem ∧ t.regions = s.regions ∧
    let kept := fun (g : Engine) => { g with xl := g.xl.filter fun e => !Claim.leaves s ctx va e }
    (∀ die, SMap.get [] t.dieTlb die = (SMap.get [] s.dieTlb die).filter fun e => !Claim.leaves s ctx va e) ∧
    (∀ id ∈ (s.region ctx).ids, t.core id = { s.core id with
      tlb := (s.core id).tlb.filter fun e => !(Claim.leaves s ctx va e && !e.locked)
      mx := kept (s.core id).mx, vx := kept (s.core id).vx, cp := kept (s.core id).cp }) ∧
    (∀ id, id ∉ (s.region ctx).ids → t.core id = s.core id) ∧
    t.agenda = if ((s.region ctx).ids.any fun id => (s.core id).tlb.any fun e =>
        Claim.leaves s ctx va e && e.locked && (s.walk ctx e.base).map TlbEnt.pte ≠ some e.pte)
      then laterInsert (s.now + 1) (.ev s.cur (.tlbInvalidate ctx va)) s.agenda else s.agenda)

/-- Untimed results and translations arrive: UntimedResultsLand, TranslationEvents hold. -/
def Obligations.ResultsAndTranslationsArrive : Prop :=
  Claim.UntimedResultsLand ∧ Claim.TranslationEvents

/-! ## Instants, commits, barriers, freezes, stops, swaps (R26, R27, R200, R279 to R282, R286, R302 to R325) -/

namespace Sys2Proof.Claim

/-- From s to t graph g became g', and no other graph changed. -/
def OnlyGraph (s t : State) (g' : Graph) : Prop := t.graphs = s.graphs.map fun x => if x.gid = g'.gid then g' else x
/-- The context c is gone: its cores are free and as at launch, and its number is released (R277, R282). -/
def contextFreed (s t : State) (c : Nat) : Prop :=
  t.region c = {} ∧ c ∉ t.ctxBusy ∧ (∀ v, v < (s.region c).w * (s.region c).h → t.core (c * 2048 + v) = {}) ∧
    ∀ p ∈ s.owner, p.2 = c → SMap.get 0 t.owner p.1 = 0
/-- From s to t the cores of a list became what f makes of them; every other core is as before. -/
def EachCore (s t : State) (ids : List Nat) (f : Core → Core) : Prop :=
  (∀ id ∈ ids, t.core id = f (s.core id)) ∧ ∀ id, id ∉ ids → t.core id = s.core id
/-- A core as an instant starts in region r: clocks k2 to k15 undefined, delays kept for a retry, pending attributes gone, divisors
taken, and its next bundle issues now (R26, R180, R218, R317). -/
def instantBegun (r : Region) (c d : Core) : Prop :=
  d.clocks = [] ∧ d.delaySnap = c.delays ∧ d.arrived = false ∧ d.safept = none ∧ d.instPc = c.pc ∧ d.nextAt = r.cyc ∧
    (∀ e, e < 3 → (d.eng e).aGuard = none ∧ (d.eng e).aWait = none ∧ (d.eng e).aSig = none ∧ (d.eng e).queue = (c.eng e).queue) ∧
    (∀ u, u < 4 → d.divisor u = if SMap.get 0 c.divNext u = 0 then c.divisor u else SMap.get 0 c.divNext u) ∧
    d.regs = c.regs ∧ d.rows = c.rows ∧ d.spad = c.spad ∧ d.delays = c.delays ∧ d.csrs = c.csrs ∧ d.tokens = c.tokens ∧ d.pc = c.pc
/-- A core after its region's commit: delays take their staged values, staged stores of this instant leave, channel writes and pops
are made, and one that has performed KEND ends its group and its locks (R16, R27, R77, R201, R202). -/
def committed (r : Region) (c : Core) : Core :=
  let taken := c.delays.map fun p => (p.1, if p.2.has then { p.2 with committed := p.2.staged, has := false } else p.2)
  let d := { c with delays := taken, staging := c.staging.filter (fun e => 0 < e.level), chStaged := [], chPops := [] }
  if c.kend = true ∧ c.ended = false then
    { d with ended := true, kend := false, arrived := true, arrCyc := r.cyc + 1, tlb := c.tlb.map fun e => { e with locked := false } }
  else d
/-- The stores that a commit of region r releases, by virtual index and staging order (R27, R223). -/
def outgoing (s : State) (r : Region) : List StEntry :=
  r.ids.flatMap fun id => (s.core id).staging.filter fun e => e.level = 0 ∧ e.kind ≠ .mark
/-- The last value that a list of byte writes gives a key, or what it held. -/
def lastOf (l : List StByte) (key : Nat) (old : Byte) : Byte := ((l.filter fun b => b.key = key).getLast?.map StByte.val).getD old

end Sys2Proof.Claim

/-- R25, R26, R286, R287: INSTANT_START: IBASE becomes CYC, INSTANT rises by 1, the logical time of a free base clock is DTIME and of
a timer its latest due time, every live core begins the instant, and the snapshot holds of each channel that the region reads the
committed values no later than this logical time. -/
def Obligations.InstantsStart : Prop :=
  ∀ s : State, ∃ t, exec .instantStart s = .next t ∧ t.mem = s.mem ∧
    t.rr = { s.rr with ibase := s.cyc, instant := s.rr.instant + 1, between := false, qwaited := [], retried := false, commitDue := none
                       ltime := t.rr.ltime, nextDue := t.rr.nextDue, seen := t.rr.seen, chSnap := t.rr.chSnap } ∧
    (s.rr.clkSrc ≠ 2 → s.rr.clkSrc ≠ 3 → t.rr.ltime = s.dtime) ∧
    (s.rr.clkSrc = 3 → 0 < s.rr.period → s.rr.d0 + s.rr.period * s.rr.nextDue ≤ s.dtime →
      ∃ i, t.rr.nextDue = i + 1 ∧ t.rr.ltime = s.rr.d0 + s.rr.period * i ∧ t.rr.ltime ≤ s.dtime ∧ s.dtime < t.rr.ltime + s.rr.period) ∧
    t.rr.chSnap = ((s.channels s.ctx).filter fun p => p.2.rnode = s.rr.node).map (fun p =>
      (p.1, p.2.vals.filter fun v => decide (v.t < t.rr.ltime) || (decide (v.t = t.rr.ltime) && decide (v.c ≤ s.ctx)))) ∧
    (∀ id ∈ s.live s.rr, instantBegun s.rr (s.core id) (t.core id)) ∧ (∀ id, id ∉ s.live s.rr → t.core id = s.core id)

/-- R16, R27, R77, R153, R201, R202, R287: INSTANT_COMMIT with room in every QUEUE: every core's staged delay values become committed, its
stores of this instant join the released writes in the order of virtual index and staging, its channel writes join their
channels with the instant's logical time, in the order of those, and a core that has performed KEND has ended; one that would overfill a QUEUE does
nothing. When the released writes become visible is a free value of the model (assumptions 3), and the order of several cores' values on
one channel, by issue cycle and then by core, is its reading (assumptions 32). -/
def Sys2Proof.Claim.InstantsCommit : Prop :=
  ∀ s : State,
    (s.commitFull s.ctx = [] → s.rr.swapPend = false → s.booted = true → ∃ t, exec .instantCommit s = .next t ∧ t.mem = s.mem ∧
      EachCore s t s.rr.ids (committed s.rr) ∧
      t.rr = { s.rr with between := true, commitDue := none, ltimeDone := s.rr.ltime, readyAt := s.cyc + 1
                         released := s.rr.released ++ outgoing s s.rr, visibleAt := t.rr.visibleAt } ∧
      (outgoing s s.rr = [] → t.rr.visibleAt = s.rr.visibleAt) ∧ (outgoing s s.rr ≠ [] → ∃ n, s.now < n ∧ n ≤ s.now + 20000 ∧ t.rr.visibleAt = max s.rr.visibleAt n) ∧
      ∀ g, (s.graphs.find? fun g => g.gid = s.rr.gid) = some g → ∀ (ch : Nat) (k : Chan), g.chans[ch]? = some k → k.wnode = s.rr.node →
        k.wnode ≠ k.rnode → ∃ g' k', (t.graphs.find? fun g => g.gid = s.rr.gid) = some g' ∧ g'.chans[ch]? = some k' ∧
          let before := fun (v : ChVal) => decide (v.t < s.rr.ltime) || (decide (v.t = s.rr.ltime) && decide (v.c ≤ s.ctx))
          k' = { k with vals := k.vals.filter before ++ ((if k.kind = 0 then (s.stagedFor s.ctx ch).getLast?.toList else s.stagedFor s.ctx ch).map
            fun v => ⟨s.rr.ltime, s.ctx, v⟩) ++ k.vals.filter fun v => !before v }) ∧
    (s.commitFull s.ctx ≠ [] → ∃ t, exec .instantCommit s = .next t ∧ t = s)

/-- R27, R160, R240: STAGED_WRITE_APPLY: every released store and ACELL performs: each byte of memory holds the last value written to
it in the order of release, and every other byte is as before; nothing stays released. That all of them perform in one step is the
model's choice among the orders that the spec allows (assumptions 9). -/
def Sys2Proof.Claim.StagedWritesApply : Prop :=
  ∀ s : State, (∀ e ∈ s.rr.released, (e.kind = .store ∧ ∀ b ∈ e.bytes, s.peerDown b.key = false) ∨ e.kind = .acell ∨ e.kind = .mark) →
    ∃ t, exec .stagedWriteApply s = .next t ∧ t.cores = s.cores ∧ t.rr = { s.rr with released := [] } ∧
      ∀ key, t.byte key = lastOf ((s.rr.released.filter fun e => e.kind ≠ .mark).flatMap StEntry.bytes) key (s.byte key)

namespace Sys2Proof.Claim

/-- The bytes of memory that f gives, as one little-endian number of 16 bytes from a key: a wide cell (R158). -/
def cellOf (f : Nat → Byte) (k : Nat) : Nat := (List.range 16).foldr (fun i n => (f (k + i)).toNat + 256 * n) 0
/-- The cell new is the cell old with the FP32 number x added, by R159: its contribution t is x / 2^(E − 127) rounded down; LOST joins where it is
not exact, RANGE where x is no number or t does not fit, and then the integer stays; else it takes t modulo 2^118. -/
def addsTo (old new : Nat) (x : Word) : Prop :=
  let n := x.toNat
  let ex := n / 2 ^ 23 % 256
  let v : Int := (if n / 2 ^ 31 = 1 then -1 else 1) * ((n % 2 ^ 23 + if ex = 0 then 0 else 2 ^ 23 : Nat) : Int)
  let sh : Int := (max ex 1 : Nat) - 150 - ((old / 2 ^ 120 : Nat) - 127)
  let t : Int := if 0 ≤ sh then v * 2 ^ sh.toNat else v / 2 ^ (-sh).toNat
  let range := ex = 255 ∨ t < -(2 ^ 117) ∨ 2 ^ 117 - 1 < t
  new / 2 ^ 120 = old / 2 ^ 120 ∧ (new / 2 ^ 119 % 2 = 1 ↔ old / 2 ^ 119 % 2 = 1 ∨ range) ∧
    (new / 2 ^ 118 % 2 = 1 ↔ old / 2 ^ 118 % 2 = 1 ∨ (ex ≠ 255 ∧ sh < 0 ∧ v % 2 ^ (-sh).toNat ≠ 0)) ∧
    ((new % 2 ^ 118 : Nat) : Int) = if range then ((old % 2 ^ 118 : Nat) : Int) else ((old : Int) + t) % 2 ^ 118
/-- A released store, ACELL or AFADD takes memory from f to g (R153, R159, R160, R240). -/
def performs (e : StEntry) (f g : Nat → Byte) : Prop := match e.kind with
  | .afadd x => ∃ k, e.bytes.map StByte.key = (List.range 16).map (k + ·) ∧ addsTo (cellOf f k) (cellOf g k) x ∧
      ∀ key, key < k ∨ k + 16 ≤ key → g key = f key
  | .mark => g = f
  | _ => ∀ key, g key = lastOf e.bytes key (f key)

/-- How many of the first n bits are set. -/
def setBits (f : Nat → Bool) (n : Nat) : Nat := ((List.range n).filter f).length
/-- The bytes of a core's save image by a descriptor (R322). -/
def imageBytes (d : Live) (c : Core) : Nat :=
  73728 + 16 * setBits d.s.getLsbD 64 + 4368 * setBits d.t.getLsbD 96 + 2048 * setBits d.c.getLsbD 8 + (d.m.map Prod.snd).sum +
    if c.levels = [] then 0 else c.arena.2 + 16 * (c.staging.filter fun e => 0 < e.level).length + 1024 * c.levels.length
/-- The save image of a core c by descriptor d (R322): what d names and what is always saved; what is not reads as at launch. -/
structure savedBy (d : Live) (c img : Core) : Prop where
  scalars : ∀ r, r ≠ 0 → img.reg r = if d.s.getLsbD r then c.reg r else {}
  tiles : ∀ t, (∀ i, i < 16 → img.row t i = if d.t.getLsbD t then c.row t i else 0) ∧ img.side t = (if d.t.getLsbD t then c.side t else 0) ∧
    img.ttag t = (if d.t.getLsbD t then c.ttag t else 0) ∧ img.tfull t = (d.t.getLsbD t && c.tfull t)
  accs : ∀ a, (∀ p, p < 256 → SMap.get {} img.accs (a * 256 + p) = if d.c.getLsbD a then SMap.get {} c.accs (a * 256 + p) else {}) ∧
    img.atag a = if d.c.getLsbD a then c.atag a else 0
  spad : ∀ off, SMap.get 0 img.spad off =
    if (∃ p ∈ d.m, p.1 ≤ off ∧ off < p.1 + p.2) ∨ (c.levels ≠ [] ∧ c.arena.1 ≤ off ∧ off < c.arena.1 + c.arena.2) then SMap.get 0 c.spad off else 0
  csrs : ∀ n, n ≠ 0x050 → n ≠ 0x010 → img.csr n = c.csr n
  loops : img.clocks = c.clocks ∧ img.preds = c.preds ∧ img.delays = c.delays ∧ img.loops = c.loops ∧ img.pc = c.pc ∧ img.ended = c.ended
  signals : img.tokens = c.tokens ∧ img.bars = c.bars ∧ img.btPhase = c.btPhase ∧ img.btArr = c.btArr ∧ img.inboxN = c.inboxN ∧
    img.inboxE = c.inboxE ∧ img.inboxS = c.inboxS ∧ img.inboxW = c.inboxW
  tables : img.fmt = c.fmt ∧ img.hist = c.hist ∧ img.slotCols = c.slotCols ∧ img.slotSides = c.slotSides ∧ img.slotTag = c.slotTag ∧
    img.tagTab = c.tagTab ∧ img.tlb = c.tlb.filter TlbEnt.locked
  counts : img.mx.seq = c.mx.seq ∧ img.vx.seq = c.vx.seq ∧ img.cp.seq = c.cp.seq ∧ img.copyCount = c.copyCount
  levels : img.levels = c.levels ∧ img.undo = c.undo ∧ img.staging = c.staging.filter fun e => 0 < e.level

end Sys2Proof.Claim

/-- R153, R159, R160, R240: STAGED_WRITE_APPLY, cells among its entries: the released stores, ACELLs and AFADDs perform one after another, an
AFADD on the bytes that its cell then holds. That all of them perform in one step is the model's choice among the orders that the spec
allows (assumptions 9). -/
def Sys2Proof.Claim.StagedAddsApply : Prop :=
  ∀ s : State,
    (∀ e ∈ s.rr.released, (e.kind = .store ∧ ∀ b ∈ e.bytes, s.peerDown b.key = false) ∨ e.kind = .acell ∨ e.kind = .mark ∨
      ∃ x k, e.kind = .afadd x ∧ e.bytes.map StByte.key = (List.range 16).map (k + ·)) →
    ∃ (t : State) (mem : Nat → Nat → Byte), exec .stagedWriteApply s = .next t ∧ t.cores = s.cores ∧ t.rr = { s.rr with released := [] } ∧
      (∀ key, mem 0 key = s.byte key) ∧ (∀ key, t.byte key = mem s.rr.released.length key) ∧
      ∀ i e, s.rr.released[i]? = some e → performs e (mem i) (mem (i + 1))

/-- R211, R280, R322, R324: at a commit with a swap pending, a region of which every core that has not ended its group has issued SAFEPT is
saved: each core's image holds what its own descriptor names and what is always saved, the flags that are still on their way joined to
its FLAGS; the swap completes once the last core's bytes are written and visible; with a core that offers none, or with no core left, it
is not. When the bytes are visible is a free value, and what an image's layout is, the flags' way and the last of two SAFEPTs are the model's
reading (assumptions 3, 25, 44, 68, 70). -/
def Sys2Proof.Claim.SavesAtACommit : Prop :=
  ∀ s : State, s.booted = true → s.rr.ctx = s.ctx → s.rr.swapPend = true → s.commitFull s.ctx = [] →
    let after := fun id => committed s.rr (s.core id)
    let live := s.rr.ids.filter fun id => !(after id).ended
    let byDescriptor := fun (id : Nat) => match (s.core id).safept with
      | some n => s.rr.live.getD n ⟨0, 0, 0, []⟩
      | none => ⟨0, 0, 0, []⟩
    (live ≠ [] → (∀ id ∈ live, ∃ n, n < 256 ∧ (s.core id).safept = some n) → (∀ id ∈ s.rr.ids, (s.core id).safept ≠ some 256) →
      ∃ t n, exec .instantCommit s = .next t ∧ t.mem = s.mem ∧ EachCore s t s.rr.ids (committed s.rr) ∧ t.rr.phase = .saving ∧
        t.rr.cyc = s.rr.cyc ∧ t.rr.images.length = s.rr.ids.length ∧
        (∀ (v id : Nat) (img : Core), s.rr.ids[v]? = some id → t.rr.images[v]? = some img →
          savedBy (byDescriptor id) (after id) img ∧ (∀ b : Nat, 4 ≤ b → (img.csr 0x010).getLsbD b = ((after id).csr 0x010).getLsbD b) ∧
          (∀ b : Nat, b < 4 → ((after id).csr 0x010).getLsbD b = true → (img.csr 0x010).getLsbD b = true) ∧
          ∀ k l fl b, (k, Item.land id l) ∈ s.rr.agenda → CAct.orFlags fl ∈ l → b < 4 → fl.testBit b = true → (img.csr 0x010).getLsbD b = true) ∧
        (∀ k id l fl, (k, Item.land id l) ∈ t.rr.agenda → CAct.orFlags fl ∉ l) ∧
        t.agenda = laterInsert n (.ev (s.ctx * 2048) .swapComplete) s.agenda ∧
        (∀ id ∈ s.rr.ids, s.now + (imageBytes (byDescriptor id) (after id) + 255) / 256 < n) ∧
        (∃ id ∈ s.rr.ids, n ≤ s.now + (imageBytes (byDescriptor id) (after id) + 255) / 256 + 20000)) ∧
    ((live = [] ∨ ∃ id ∈ live, (s.core id).safept = none) → ∃ t, exec .instantCommit s = .next t ∧ t.rr.phase = s.rr.phase ∧
      EachCore s t s.rr.ids (committed s.rr))

/-- Instants commit, save at a safe point, and released writes apply: InstantsCommit, SavesAtACommit, StagedWritesApply, StagedAddsApply hold. -/
def Obligations.InstantsCommit : Prop :=
  Claim.InstantsCommit ∧ Claim.SavesAtACommit ∧ Claim.StagedWritesApply ∧ Claim.StagedAddsApply

/-- R200, R301, R279: BARRIER_RELEASE flips the tag's phase at every core of the region and clears its arrivals, other tags as before;
QUANTUM_EXPIRY marks the quantum as used up; neither changes anything else. -/
def Sys2Proof.Claim.TagsReleaseAndQuantaExpire : Prop :=
  ∀ s : State,
    (∀ tag, ∃ t, exec (.barrierRelease tag) s = .next t ∧ t = { s with cores := t.cores, regions := t.regions } ∧
      EachCore s t s.rr.ids (fun c => { c with
        btPhase := SMap.set false c.btPhase tag (!SMap.get false c.btPhase tag)
        btArr := SMap.set false c.btArr tag false
        btOwed := SMap.set false c.btOwed tag false }) ∧
      t.rr = { s.rr with btDue := SMap.set 0 s.rr.btDue tag 0 } ∧ ∀ x, x ≠ s.ctx → t.region x = s.region x) ∧
    (∃ t, exec .quantumExpiry s = .next t ∧ OnlyRegion s t s.ctx { s.rr with quantExp := true })

/-- R235, R302, R304: FREEZE stops a running region: releases that are due are cancelled and every tag's arrivals cleared, held bundles
ask for no walk, the commit's arrivals, the phases, every register and every byte are kept; a region that does not run is left as it
is. That held bundles leave the walks that they waited for is the model's reading (assumptions 38). -/
def Sys2Proof.Claim.RegionsFreeze : Prop :=
  ∀ s : State,
    (s.rr.phase = .run → ∃ t, exec .freeze s = .next t ∧ t = { s with
        cores := t.cores, regions := t.regions
        walks := s.walks.map fun w => { w with waiters := w.waiters.filter fun x => !(s.rr.ids.contains x.1 && decide (x.2.1 = 3)) } } ∧
      t.rr = { s.rr with phase := .stopping, frozen := true, btDue := [], rdvDue := none, commitDue := none } ∧
      EachCore s t s.rr.ids (fun c => { c with btArr := (List.range 8).foldl (fun m b => SMap.set false m b false) c.btArr }) ∧
      ∀ x, x ≠ s.ctx → t.region x = s.region x) ∧
    (s.rr.phase ≠ .run → ∃ t, exec .freeze s = .next t ∧ t = s)

/-- Tags release, quanta expire, regions freeze: TagsReleaseAndQuantaExpire, RegionsFreeze hold. -/
def Obligations.RegionsFreeze : Prop :=
  Claim.TagsReleaseAndQuantaExpire ∧ Claim.RegionsFreeze

namespace Sys2Proof.Claim

/-- The rollback class of R311: SEGSIG, FIDERR, UECC and RABORT's event. -/
def rollsBack (f : FaultInfo) : Prop :=
  f.code = 0x06 ∨ f.code = 0x0F ∨ f.code = 0x10 ∨ (f.code = 0x15 ∧ f.info = 0xFFFF ∧ f.next = false)
/-- A core restarts at a base cycle at an address with its stream, queues and waits empty (R314, R317). -/
def restarts (c d : Core) (at_ base : Nat) : Prop :=
  d.pc = at_ ∧ d.nextAt = base ∧ d.waits = [] ∧ d.held = false ∧ d.trapped = false ∧ d.arrived = false ∧ d.seg = none ∧
    (∀ e, e < 3 → (d.eng e).queue = [] ∧ (d.eng e).running = false ∧ (d.eng e).finishing = [] ∧ (d.eng e).seq = (c.eng e).seq ∧
      (d.eng e).freeAt = base) ∧
    d.csrs = c.csrs ∧ d.hist = c.hist ∧ d.slotCols = c.slotCols ∧ d.tagTab = c.tagTab
/-- The region's stop is to be handled in the handler: a fault of another class than rollback and kill, first in its window (R311). -/
def toHandler (s : State) (w : FaultWin) : Prop :=
  s.rr.fault = some w ∧ s.rr.action ≠ 4 ∧ w.inh = false ∧ w.first.code ≠ KILLED ∧ w.first.code ≠ BADSTAT ∧ ¬ rollsBack w.first

end Sys2Proof.Claim

/-- R304, R307, R310, R311, R314 to R318, R325: REGION_STOP writes the record and takes the action of the first fault's code: the
handler on the faulting core one cycle later; at RDEPTH 0 a first instant retry, at a base F + 48 + (S − (F + 48)) + 16 + 64; at
RDEPTH 1 with retries left a rollback to the level's restart address and open snapshot; and a kill's drain, which discards every
staged write. Before the handler no scratchpad byte below the save area changes. The restart of a retry at the first bundle is
the model's reading (assumptions 42). -/
def Sys2Proof.Claim.RegionsStop : Prop :=
  ∀ (s : State) (w : FaultWin), s.rr.ctx = s.ctx →
    (toHandler s w → ∃ t, exec .regionStop s = .next t ∧ t.mem = s.mem ∧ t.rr.phase = .handler w.first.core ∧ t.rr.fault = none ∧
      t.rr.frz = w.cyc + 48 ∧ (∀ c d, c = s.core w.first.core → d = t.core w.first.core →
        d.mode = .system ∧ d.inHandler = true ∧ d.pc = (c.csr 0x054).toNat % 8192 ∧ d.nextAt = s.cyc + 1 ∧ d.regs = c.regs ∧
          d.csr 0x050 = BitVec.ofNat 64 (w.first.info * 65536 + w.first.code) ∧ d.csr 0x052 = BitVec.ofNat 64 (c.pc % 8192)) ∧
      (∀ id, id ≠ w.first.core → (t.core id).regs = (s.core id).regs ∧ (t.core id).pc = (s.core id).pc) ∧
      ∀ id off, off < 0x4FE00 → t.spadByte id off = s.spadByte id off) ∧
    (s.rr.fault = some w → s.rr.action ≠ 4 → w.inh = false → rollsBack w.first → s.rr.retried = false →
      (∀ id ∈ s.live s.rr, (s.core id).levels = []) → ∃ t base, exec .regionStop s = .next t ∧ t.mem = s.mem ∧
        base = w.cyc + 48 + (s.cyc - (w.cyc + 48) + 16) + 64 ∧ t.rr.phase = .restoring base ∧ t.rr.retried = true ∧
        ∀ id ∈ s.live s.rr, restarts (s.core id) (t.core id) (s.core id).instPc base ∧ (t.core id).clocks = [] ∧
          (t.core id).regs = (s.core id).regs ∧ (t.core id).chStaged = [] ∧ ∀ e ∈ (t.core id).staging, e.level ≠ 0) ∧
    (s.rr.fault = some w → s.rr.action ≠ 4 → w.inh = false → rollsBack w.first → s.live s.rr ≠ [] →
      (∀ id ∈ s.live s.rr, ∃ l, (s.core id).levels = [l] ∧ l.retries < l.limit ∧ (s.core id).recordErr 1 = false) →
      ∃ t base, exec .regionStop s = .next t ∧ t.mem = s.mem ∧ t.rr.phase = .restoring base ∧ w.cyc + 128 ≤ base ∧
        ∀ id ∈ s.live s.rr, ∀ l, (s.core id).levels = [l] → restarts (s.core id) (t.core id) l.restart base ∧
          (t.core id).levels = [{ l with retries := l.retries + 1 }] ∧ (t.core id).undoTop = l.top ∧ (t.core id).loops = l.snap.loops ∧
          (∀ n, n < 16 → SMap.get ({} : Pred) (t.core id).preds n = SMap.get {} l.snap.preds n) ∧
          (∀ n, n < 32 → SMap.get 0 (t.core id).tokens n = SMap.get 0 l.snap.tokens n) ∧
          (∀ e ∈ (t.core id).staging, e.level < 1) ∧ (∀ r ∈ (t.core id).undo, r.level < 1)) ∧
    (s.rr.fault = none → s.rr.action = 4 → ∃ t, exec .regionStop s = .next t ∧ t.mem = s.mem ∧ t.rr.phase = .killed ∧
      ∀ id ∈ s.rr.ids, (t.core id).staging = [] ∧ (t.core id).chStaged = [] ∧ (t.core id).untimed = [] ∧ (t.core id).levels = [] ∧
        (t.core id).mx.queue = [] ∧ (t.core id).vx.queue = [] ∧ (t.core id).cp.queue = [] ∧ (t.core id).regs = (s.core id).regs)

/-- R315, R317: ROLLBACK_RESTART lets a restoring region run again, with IBASE its CYC less the offset at which the level that is
open now was opened, 0 with none open; nothing else changes. -/
def Sys2Proof.Claim.RestartsSetTheBase : Prop :=
  ∀ (s : State) (b off : Nat), s.rr.phase = .restoring b →
    ((∃ id more l ls, s.live s.rr = id :: more ∧ (s.core id).levels = l :: ls ∧ off = l.snap.sOpen) ∨
      ((∀ id ∈ s.live s.rr, (s.core id).levels = []) ∧ off = 0)) →
    ∃ t, exec .rollbackRestart s = .next t ∧ OnlyRegion s t s.ctx { s.rr with phase := .run, frozen := false, ibase := s.cyc - off }

/-- A stopped region takes its action: RegionsStop, RestartsSetTheBase hold. -/
def Obligations.RegionsStop : Prop :=
  Claim.RegionsStop ∧ Claim.RestartsSetTheBase

namespace Sys2Proof.Claim

/-- Node i of graph g has failed with a status: the graph takes the status of the first node to fail (R283). -/
def nodeFailed (g : Graph) (i : Nat) (x : Node) (status : Nat) : Graph :=
  { g with nodes := g.nodes.set i { x with st := .failed, swapped := 0 }, status := if g.status = 0 then status else g.status }
/-- Nodes of graph g other than node i run or wait swapped out (R283). -/
def othersLeft (g : Graph) (i : Nat) : Prop := ∃ j y, j ≠ i ∧ g.nodes[j]? = some y ∧ (y.busy = true ∨ y.swapped ≠ 0)
/-- What a killed region's node does to its graph, in t after s: it fails; the graph goes on while another of its nodes runs or waits
swapped out, and else completes with its status: its word stands at WAKE, and the firmware holds the graph no more (R283, R284). -/
def killedNode (s t : State) : Prop :=
  ((s.graphs.find? fun g => g.gid = s.rr.gid) = none → t.graphs = s.graphs ∧ t.mem = s.mem) ∧
  ∀ (g g' : Graph) (x : Node), (s.graphs.find? fun g => g.gid = s.rr.gid) = some g → g.nodes[s.rr.node]? = some x → s.rr.status ≠ 0 →
    g' = nodeFailed g s.rr.node x s.rr.status →
    (g.checked = false ∨ othersLeft g s.rr.node → OnlyGraph s t g' ∧ t.mem = s.mem) ∧
    (g.checked = true → ¬ othersLeft g s.rr.node → t.graphs = s.graphs.filter (fun y => y.gid ≠ g.gid) ∧
      ∀ m, m = s.applyAll (s.hwrite g.handle g.wake 8 (s.dtime / 1024 % 2 ^ 40 + g'.status * 2 ^ 40 + g.no * 2 ^ 48)) → t.mem = m.mem)

end Sys2Proof.Claim

/-- R277, R283, R284, R318, R325, R358: as its drain completes, a killed region's node completes with the status of the kill, its graph with
it where no other node of it runs, and its context is gone: its cores are free and as at launch, its number is
released; one that is to be re-queued waits for that, and in Dusk the completion is held. KILL_DRAIN_TIMEOUT and HEARTBEAT_MISSED start a
warm reset: the firmware stops, and Dawn follows within 50 ms; one that is under way is not started again. The times are free values of
the model, and what Dusk holds of a drain is its reading (assumptions 3, 43). -/
def Sys2Proof.Claim.DrainsAndResets : Prop :=
  ∀ s : State,
    (s.rr.phase = .killed ∨ s.rr.phase = .drained → s.rr.action = 4 → s.dusk = false → s.rr.ctx = s.ctx →
      ∃ t, exec .killDrainComplete s = .next t ∧ killedNode s t ∧ contextFreed s t s.ctx ∧
        (∀ id, id ∉ s.rr.ids → t.core id = s.core id) ∧
        ∀ x, x ≠ s.ctx → (x ∈ s.ctxBusy ↔ x ∈ t.ctxBusy) ∧ t.region x = s.region x) ∧
    (s.rr.phase = .killed → s.rr.action = 4 → s.dusk = true → ∃ t, exec .killDrainComplete s = .next t ∧
      t = { s with regions := t.regions, heldWork := s.heldWork ++ [(s.cur, .killDrainComplete)] } ∧
      t.rr = { s.rr with phase := .drained } ∧ ∀ x, x ≠ s.ctx → t.region x = s.region x) ∧
    (s.rr.phase = .drained → s.rr.action = 4 → s.dusk = true → ∃ t, exec .killDrainComplete s = .next t ∧
      t = { s with heldWork := s.heldWork ++ [(s.cur, .killDrainComplete)] }) ∧
    (s.rr.phase = .killed → s.rr.action = 3 → ∃ t, exec .killDrainComplete s = .next t ∧
      OnlyRegion s t s.ctx { s.rr with phase := .drained }) ∧
    ((s.rr.phase ≠ .killed ∨ s.rr.action = 5) → (s.rr.phase ≠ .drained ∨ s.rr.action ≠ 4) → exec .killDrainComplete s = .next s) ∧
    (s.rr.phase ≠ .killed → exec .killDrainTimeout s = .next s) ∧
    (∀ i, (i = .killDrainTimeout ∧ s.rr.phase = .killed ∨ i = .heartbeatMissed) →
      (s.booted = true → ∃ t n, exec i s = .next t ∧ t.booted = false ∧
        t.mem = s.mem ∧ t.cores = s.cores ∧ t.regions = s.regions ∧ s.now < n ∧ n < s.now + 50000000 ∧
        t.agenda = laterInsert n (.ev 0 .dawn) s.agenda ∧ t.keptUntil = s.dtime + 5000000 ∧
        (i = .killDrainTimeout → s.ctx ∉ t.kept)) ∧
      (s.booted = false → ∃ t, exec i s = .next t ∧ t = { s with kept := t.kept } ∧ ∀ x ∈ t.kept, x ∈ s.kept))

/-- R273, R278, R281, R322, R323: SWAP_COMPLETE frees the cores of a saved region, its images kept, and its node returns to the ready list;
PREEMPT_RESUME puts the context on the first free usable placement outside what the head of the ready list has reserved: each core holds
what its image names and the rest as at launch, its node runs, and CYC goes on at the saved
commit + 1 at a base cycle 48 cycles or more later. That the swap's DTIME is that of its completion is the model's choice (assumptions 44). -/
def Sys2Proof.Claim.SwapsAndResumes : Prop :=
  ∀ s : State,
    (s.rr.phase = .saving → s.rr.ctx = s.ctx → ∃ t, exec .swapComplete s = .next t ∧ t.mem = s.mem ∧
      t.rr = { s.rr with phase := .out, swapPend := false, ps := false, deadline := none, skip := 0 } ∧
      (∀ id ∈ s.rr.ids, t.core id = {}) ∧ (∀ id, id ∉ s.rr.ids → t.core id = s.core id) ∧
      (∀ p ∈ s.owner, p.2 = s.ctx → SMap.get 0 t.owner p.1 = 0) ∧
      ((s.graphs.find? fun g => g.gid = s.rr.gid) = none → t.graphs = s.graphs) ∧
      ∀ g x, (s.graphs.find? fun g => g.gid = s.rr.gid) = some g → g.nodes[s.rr.node]? = some x →
        OnlyGraph s t { g with nodes := g.nodes.set s.rr.node { x with st := .ready s.dtime, swapped := s.ctx } }) ∧
    (∀ (g : Graph) (x : Node) (x0 y0 : Nat) (v : Vof), (s.graphs.find? fun g => g.gid = s.rr.gid) = some g → g.nodes[s.rr.node]? = some x →
      s.rr.phase = .out → s.vofAt g.handle x.kptr = some v →
      s.placeFor s.rr.gid s.rr.node s.rr.w s.rr.h s.rr.dies = some (x0, y0) →
      (∀ c ∈ s.rr.images, SMap.wf {} c.regs = true) → ∃ t, exec .preemptResume s = .next t ∧ t.mem = s.mem ∧
        t.rr = { s.rr with phase := .loading, x0 := x0, y0 := y0, cyc := s.cyc + 1, between := true, readyAt := s.cyc + 1, images := []
                           baseAt := t.rr.baseAt } ∧
        OnlyGraph s t { g with nodes := g.nodes.set s.rr.node { x with st := .running s.ctx, swapped := 0 } } ∧
        s.now + 48 < t.rr.baseAt ∧ (∀ q ∈ placed s.rr.w s.rr.h (x0, y0), SMap.get 0 t.owner q = s.ctx) ∧
        ∀ (n : Nat) (img : Core), s.rr.images[n]? = some img → (t.core (coreId s.ctx n)).pc = img.pc ∧
          (t.core (coreId s.ctx n)).csrs = img.csrs ∧ (t.core (coreId s.ctx n)).levels = img.levels ∧
          ∀ r, r ≠ 0 → (t.core (coreId s.ctx n)).reg r = SMap.get {} img.regs r)

/-- Killed and swapped contexts: DrainsAndResets, SwapsAndResumes hold. -/
def Obligations.ContextsLeaveAndResume : Prop :=
  Claim.DrainsAndResets ∧ Claim.SwapsAndResumes

/-! ## Power, Twilight windows, energy (R331, R334 to R340) -/

namespace Sys2Proof.Claim

/-- A window trips for fidelity f, with o operations, d detections and a cluster's factor in units of 2^(-24) (R329, R331). -/
def trip (factor f o d : Nat) : Prop := 2 ≤ d ∧ factor * o < d * 2 ^ 24 * 2 ^ (60 - 10 * f)
def trippedWindow (k : Cluster) : Prop := trip k.factor 1 k.ops1 k.det1 ∨ trip k.factor 2 k.ops2 k.det2 ∨ trip k.factor 3 k.ops3 k.det3
/-- A cluster with reasons set in this cycle (R337). -/
def reasoned (s : State) (k : Cluster) (v : BitVec 5) : Cluster :=
  { k with thrrsn := k.thrrsn ||| v, setBits := (if k.setAt = s.now then k.setBits else 0) ||| v, setAt := s.now }
/-- A cluster as a window starts (R331). -/
def freshWindow (k : Cluster) : Cluster := { k with ops1 := 0, ops2 := 0, ops3 := 0, det1 := 0, det2 := 0, det3 := 0 }
/-- A region that is charged n energy units: the accumulator saturates for good, and the exhausted flag is set where a quota is in
force and met, with the overshoot (R338 to R340). -/
def chargedBy (r : Region) (n : Nat) : Region :=
  let e := if r.esat then r.energy else min (2 ^ 64 - 1) (r.energy + n)
  let x := r.exh || (decide (r.quota ≠ 0) && decide (r.quota ≤ e))
  { r with energy := e, esat := r.esat || decide (2 ^ 64 - 1 ≤ r.energy + n), exh := x, overE := if x then e - r.quota else 0 }

end Sys2Proof.Claim

/-- R331, R334 to R340: POWER_STATE_CHANGE sets PS on the region with a deadline 10,000 ns ahead where it was 0, and a reason of the
acting core in its cluster, CAP in each of the region's; PS 0 ends skipping, in a cycle that would be skipped too, which the region
then runs; an expired deadline skips, one cycle in 2 to 8; a
window's end starts its counts at 0, and a trip raises a code below 16 by 1 and sets REL; an energy update charges every context
that runs some amount, one that waits exhausted or is swapped out nothing, and the exhausted flag and OVER of each follow. How much,
and k, are free values. The free values and the clusters that take a reason are
the model's choice (assumptions 3, 19). -/
def Obligations.PowerEvents : Prop :=
  (∀ (s : State) (v : Nat), s.rr.ps = false → v < 8 → v ≠ 0 → ∃ t, exec (.powerStateChange true v) s = .next t ∧
    t = { s with regions := t.regions, clusters := t.clusters } ∧
    t.rr = { s.rr with ps := true, deadline := some (s.dtime + 10000) } ∧ (∀ x, x ≠ s.ctx → t.region x = s.region x) ∧
    (∀ q, q = s.rr.cluster (s.cur % 2048) → SMap.get {} t.clusters q = reasoned s (SMap.get {} s.clusters q) (BitVec.ofNat 5 v) ∧
      ∀ n, n ≠ q → SMap.get {} t.clusters n = SMap.get {} s.clusters n)) ∧
  (∀ s : State, s.rr.ps = false → ∃ t, exec (.powerStateChange true 8) s = .next t ∧
    t.rr = { s.rr with ps := true, deadline := some (s.dtime + 10000) } ∧
    (∀ v, v < s.rr.w * s.rr.h → (SMap.get {} t.clusters (s.rr.cluster v)).thrrsn = (SMap.get {} s.clusters (s.rr.cluster v)).thrrsn ||| 8) ∧
    ∀ n, (∀ v, v < s.rr.w * s.rr.h → s.rr.cluster v ≠ n) → SMap.get {} t.clusters n = SMap.get {} s.clusters n) ∧
  (∀ s : State, s.rr.ps = true → ∃ t, exec (.powerStateChange true 0) s = .next t ∧ t = s) ∧
  (∀ s : State, let r' := { s.rr with ps := false, deadline := none, skip := 0, skipCnt := 0 }
    (s.rr.phase.counts = false ∨ s.rr.skip = 0 ∨ s.rr.skipCnt = 0 → ∃ t, exec (.powerStateChange false 0) s = .next t ∧ OnlyRegion s t s.ctx r') ∧
    (s.rr.phase.counts = true → s.rr.skip ≠ 0 → s.rr.skipCnt ≠ 0 → ∃ t, exec (.powerStateChange false 0) s = .next t ∧
      t = { s with regions := t.regions, todo := t.todo } ∧ t.rr = { r' with cyc := s.rr.cyc + 1 } ∧
      (∀ id ∈ s.rr.ids, ∀ e < 3, Turn.engine id e ∈ t.todo ∧ Turn.control id false ∈ t.todo) ∧ ∀ x, x ≠ s.ctx → t.region x = s.region x)) ∧
  (∀ s : State, ∃ t k, exec .powerDeadlineExpiry s = .next t ∧ 2 ≤ k ∧ k ≤ 8 ∧ t = { s with regions := t.regions, freeCtr := s.freeCtr + 1 } ∧
    t.rr = { s.rr with skip := k, deadline := none, skipCnt := 0 } ∧ ∀ x, x ≠ s.ctx → t.region x = s.region x) ∧
  (∀ s : State, s.Inv → ∃ t, exec .twilightWindowEnd s = .next t ∧ t.cores = s.cores ∧ t.regions = s.regions ∧ t.mem = s.mem ∧
    ∀ n, let k := SMap.get {} s.clusters n
      (trippedWindow k → SMap.get {} t.clusters n =
        reasoned s { freshWindow k with code := if k.code < 16 then k.code + 1 else k.code } 16) ∧
      (¬ trippedWindow k → SMap.get {} t.clusters n = freshWindow k)) ∧
  (∀ s : State, s.Inv → ∃ t, exec .energyUpdate s = .next t ∧ t.cores = s.cores ∧ t.mem = s.mem ∧
    ∀ ctx, let r := s.region ctx
      (r.phase = .none → t.region ctx = r) ∧
      (r.phase ≠ .none → r.phase = .out ∨ (r.exh = true ∧ r.between = true) → t.region ctx = chargedBy r 0) ∧
      (r.phase ≠ .none → r.phase ≠ .out → ¬ (r.exh = true ∧ r.between = true) → ∃ n, t.region ctx = chargedBy r n))

/-! ## Graphs and nodes (R264 to R285, R358) -/

namespace Sys2Proof.Claim

/-- A node whose count falls by 1 (R268, R269). -/
def oneLess (s : State) (x : Node) : Node := { x with count := x.count - 1, zeroAt := if x.count = 1 then s.dtime else x.zeroAt }
/-- A graph as a push names a record of its handle: the node's count falls where it waits on more (R203, R268). -/
def pushed (s : State) (h p : Nat) (g : Graph) : Graph :=
  match (if g.handle = h then g.nodes.findIdx? fun x => x.recp = p else none) with
  | none => g
  | some i => { g with nodes := g.nodes.modify i fun x => if x.st = .waiting ∧ 0 < x.count then oneLess s x else x }

end Sys2Proof.Claim

/-- R265, R268, R269, R282, R283, R285, R318, R340, R349, R358: the firmware's events: a graph that passes its check, its images
read, has its nodes eligible, and a bad one leaves; a waiting node with count 0 whose RELEASE has passed its slot boundary is ready now; a node that completes takes 1
off the count of each successor that waits, its context is freed, and with the last one of a handle that closes the handle's page; one that is re-queued is ready again with count 0, and one that is exhausted fails
instead, or one whose handle closes; a record named by a visible stamp falls by 1, in each graph of the handle (assumptions 73); due coalescing windows close with one message. In Dusk checks, readiness, completions
and stamps are held, in order. What an image holds, and that it is read at the check and kept, is the model's choice (assumptions 7). -/
def Sys2Proof.Claim.NodesMove : Prop :=
  ∀ s : State,
    (∀ g, s.dusk = false → (s.graphs.find? fun g => !g.checked) = some g → let m := s.applyAll (loadImages s g)
      (m.graphOk g = true → ∃ t, exec .graphCheck s = .next t ∧ OnlyGraph s t { g with checked := true } ∧ t.mem = s.mem ∧ t.regions = s.regions) ∧
      (m.graphOk g = false → ∃ t, exec .graphCheck s = .next t ∧ t.graphs = s.graphs.filter (fun x => x.gid ≠ g.gid) ∧
        t.regions = s.regions ∧ t.cores = s.cores) ∧
      m = { s with vofs := m.vofs, freeCtr := m.freeCtr } ∧
      ((∀ x ∈ g.nodes, x.kptr < 2 ^ 52 → (s.vofAt g.handle x.kptr).isSome = true) → m = s)) ∧
    (∀ (g : Graph) (i : Nat) (x : Node), s.dusk = false → (s.graphs.find? fun y => y.gid = g.gid) = some g → g.nodes[i]? = some x →
      g.checked = true → g.status = 0 → x.st = .waiting → x.count = 0 → x.release ≤ s.dtime / 1024 * 1024 →
      ∃ t, exec (.nodeReady g.gid i) s = .next t ∧ OnlyGraph s t { g with nodes := g.nodes.set i { x with st := .ready s.dtime } } ∧
        t.mem = s.mem ∧ t.regions = s.regions ∧ t.cores = s.cores) ∧
    (∀ (g : Graph) (i : Nat) (x : Node), s.dusk = false → (s.graphs.find? fun y => y.gid = g.gid) = some g → g.gid = s.rr.gid →
      i = s.rr.node → g.nodes[i]? = some x → x.succs.Nodup → i ∉ x.succs → g.status = 0 →
      (∃ j y, j ≠ i ∧ g.nodes[j]? = some y ∧ y.ahead = true) → ∃ t g', exec .nodeCompletion s = .next t ∧ t.mem = s.mem ∧ OnlyGraph s t g' ∧
        g'.gid = g.gid ∧ contextFreed s t s.ctx ∧ (g'.nodes[i]?.map Node.st) = some .done ∧ ∀ j y, j ≠ i → g.nodes[j]? = some y →
          (j ∈ x.succs → y.st = .waiting → g'.nodes[j]? = some (oneLess s y)) ∧
          ((j ∉ x.succs ∨ y.st ≠ .waiting) → g'.nodes[j]? = some y)) ∧
    (s.dusk = false → (SMap.get {} s.handles s.rr.handle).closing = true → (∀ q ∈ s.heldWork, ∀ v, q.2 ≠ .hopen s.rr.handle v) →
      (∀ q ∈ s.regions, q.1 ≠ s.ctx → q.2.handle = s.rr.handle → q.2.phase = .none) →
      ∃ t, exec .nodeCompletion s = .next t ∧ SMap.get {} t.handles s.rr.handle = {} ∧ ∀ q ∈ t.memOwner, q.1 ≠ s.rr.handle) ∧
    (∀ (g : Graph) (x : Node), (s.graphs.find? fun y => y.gid = s.rr.gid) = some g → g.nodes[s.rr.node]? = some x → s.rr.exh = false →
      (SMap.get {} s.handles s.rr.handle).closing = false → ∃ t, exec .nodeRequeue s = .next t ∧ t.mem = s.mem ∧ contextFreed s t s.ctx ∧
        OnlyGraph s t { g with nodes := g.nodes.set s.rr.node { x with
          st := .ready s.dtime, count := 0, requeued := true, energy := s.rr.energy, esat := s.rr.esat, exh := false, swapped := 0 } }) ∧
    (∀ (g : Graph) (x : Node) (status : Nat), (s.graphs.find? fun y => y.gid = s.rr.gid) = some g → g.nodes[s.rr.node]? = some x →
      (s.rr.exh = true ∧ status = 1) ∨ (s.rr.exh = false ∧ (SMap.get {} s.handles s.rr.handle).closing = true ∧ status = 2) →
      g.status = 0 → (∃ j y, j ≠ s.rr.node ∧ g.nodes[j]? = some y ∧ y.busy = true) → ∃ t, exec .nodeRequeue s = .next t ∧ t.mem = s.mem ∧
        contextFreed s t s.ctx ∧
        OnlyGraph s t { g with status := status, nodes := g.nodes.set s.rr.node { x with st := .failed, swapped := 0 } }) ∧
    (∀ h p : Nat, s.dusk = false → (s.graphs.map Graph.gid).Nodup → ∃ t, exec (.stampGloballyVisible (h, p)) s = .next t ∧
      t.graphs = s.graphs.map (pushed s h p) ∧ t.mem = s.mem ∧ t.regions = s.regions ∧ t.cores = s.cores) ∧
    (s.dusk = true → ∀ i gid n h p, (i = .graphCheck ∨ i = .nodeReady gid n ∨ i = .nodeCompletion ∨ i = .stampGloballyVisible (h, p)) →
      ∃ t, exec i s = .next t ∧ t = { s with heldWork := s.heldWork ++ [(s.cur, i)] }) ∧
    (s.Inv → ∃ t, exec .coalescingWindowClose s = .next t ∧ t = { s with msi := t.msi } ∧ ∀ v, let m := SMap.get {} s.msi v
      (m.open_ = true → m.closeAt ≤ s.dtime → SMap.get {} t.msi v = { m with open_ := false, pending := 0, sent := m.sent + 1 }) ∧
      ((m.open_ = false ∨ s.dtime < m.closeAt) → SMap.get {} t.msi v = m))

/-- R271 to R278, R374: with no context number free GANG_LAUNCH does nothing; else it puts a node on the first usable placement whose cores are all free and outside what the head of the
ready list has reserved: they are the new context's, each is cleared (no scalar, tile, clock, level or queue of an earlier context
remains, each CSR is at its launch value) and holds the image's tables and the launch block: its loop counts, its context number and the
bytes at ARGP; its control stream starts at word 0; TVEC names the firmware's handler; the region waits for
its base cycle; the node runs. The context number, the base cycle, the handler's place behind the control words, QUANT's value and what a byte at
ARGP that is not mapped reads as are the model's choice (assumptions 6, 3, 62, 5, 7). -/
def Sys2Proof.Claim.GangLaunches : Prop :=
  ∀ (s : State) (g : Graph) (i : Nat) (x : Node) (v : Vof) (x0 y0 : Nat), (s.graphs.find? fun y => y.gid = g.gid) = some g →
    g.nodes[i]? = some x → s.vofAt g.handle x.kptr = some v →
    s.placeFor g.gid i x.w x.h x.dies = some (x0, y0) →
    (65535 ≤ s.ctxBusy.length → exec (.gangLaunch g.gid i) s = .next s) ∧ (s.ctxBusy.length < 65535 → ∃ t r, exec (.gangLaunch g.gid i) s = .next t ∧ t.region s.freshCtx = r ∧ r.phase = .loading ∧ r.ctx = s.freshCtx ∧
      (r.w, r.h, r.dies, r.x0, r.y0) = (x.w, x.h, x.dies, x0, y0) ∧ r.cyc = 0 ∧ r.instant = 0 ∧ r.code = codeMap v.code ∧ (∀ (n : Nat) (w : Word), n < 8192 → v.code[n]? = some w → SMap.get 0 r.code n = w) ∧
      r.fwAt = min v.code.length (8192 - Config.handlerLen) ∧
      (∀ (n : Nat) (w : Word), (firmwareHandler r.fwAt)[n]? = some w → SMap.get 0 r.fw (r.fwAt + n) = w) ∧
      r.fidmax = min v.fidmax x.fidmax ∧ s.now < r.baseAt ∧ s.freshCtx ∈ t.ctxBusy ∧
      (∀ q ∈ placed x.w x.h (x0, y0), SMap.get 0 t.owner q = s.freshCtx) ∧
      OnlyGraph s t { g with nodes := g.nodes.set i { x with st := .running s.freshCtx } } ∧
      (∀ n, n < x.w * x.h → let c := t.core (s.freshCtx * 2048 + n)
        c.regs = [] ∧ c.rows = [] ∧ c.accs = [] ∧ c.clocks = [] ∧ c.preds = [] ∧ c.delays = [] ∧
          c.csr 0x054 = BitVec.ofNat 64 r.fwAt ∧ (∀ a, a ≠ 0x054 → c.csr a = csrReset a) ∧ c.tokens = [] ∧ c.bars = [] ∧
          c.levels = [] ∧ c.staging = [] ∧ c.tagTab = [] ∧ c.inboxN = [] ∧ c.mode = .user ∧ c.pc = 0 ∧ c.mx.queue = [] ∧
          c.tables = ((tableActs 0 v.tabMx ++ tableActs 1 v.tabVx ++ tableActs 2 v.tabCp).foldl CAct.apply ({} : Core)).tables) ∧
      (∀ n, n < x.w * x.h → let at_ := fun i => t.spadByte (s.freshCtx * 2048 + n) (Config.launchBlock + i)
        (∀ i, i < 8 → at_ (0x58 + i) = BitVec.ofNat 8 (s.freshCtx / 256 ^ i)) ∧
        (∀ l q, l < 6 → v.loops[l]? = some q → ∀ i, i < 4 → at_ (0x40 + 4 * l + i) = BitVec.ofNat 8 ((if q.1 = 0 then 0 else q.2) / 256 ^ i)) ∧
        ∀ i, i < 160 → (x.argp = 0 → at_ (0x60 + i) = 0) ∧
          ∀ k, x.argp ≠ 0 → t.hkey g.handle (x.argp + i) = some k → at_ (0x60 + i) = t.byte k) ∧
      ∀ id, id / 2048 ≠ s.freshCtx → x.w * x.h ≤ 2048 → t.core id = s.core id)

/-- Nodes become ready, launch and complete: NodesMove, GangLaunches hold. -/
def Obligations.NodesLaunchAndComplete : Prop :=
  Claim.NodesMove ∧ Claim.GangLaunches

/-! ## Host, firmware, links, time (R343 to R360) -/

/-- R228, R342 to R345: writes of the control block take effect at once and alone: POWERCAP is kept between 600 and 2,400 W,
RESETREQ asks for a warm reset and no second one, the others hold their fields or are events; the memory
window, which Resizable BAR sizes, reads and writes bytes at its base in its tier, past whose end it reads ones, and reports a poisoned block. The reset's time, Resizable BAR's place and a save image's bytes are the model's choice
(assumptions 3, 5, 25). -/
def Sys2Proof.Claim.HostRegistersAndWindow : Prop :=
  ∀ (s : State) (v : DWord),
    (∃ t, exec (.powercap v) s = .next t ∧
      t = { s with powercap := if v.toNat < 600 then 600 else if 2400 < v.toNat then 2400 else v.toNat }) ∧
    (v ≠ 0x5741524D → ∃ t, exec (.resetreq v) s = .next t ∧ t = s) ∧
    (s.booted = false → ∃ t, exec (.resetreq 0x5741524D) s = .next t ∧ t = { s with kept := t.kept }) ∧
    (s.booted = true → ∃ t n, exec (.resetreq 0x5741524D) s = .next t ∧ t.booted = false ∧ t.mem = s.mem ∧ t.cores = s.cores ∧ t.regions = s.regions ∧
      s.now < n ∧ n < s.now + 50000000 ∧ t.agenda = laterInsert n (.ev 0 .dawn) s.agenda) ∧
    exec (.registerWrite 0x10000 v) s = exec (.powercap v) s ∧ exec (.registerWrite 0x10008 v) s = exec (.resetreq v) s ∧
    exec (.registerWrite 0x10028 v) s = exec (.fwctl v) s ∧
    (∀ h, h < 64 → exec (.registerWrite (0x100000 + 0x1000 * h) v) s = exec (.hopen h v) s ∧
      exec (.registerWrite (0x100008 + 0x1000 * h) v) s = exec (.hflags h v) s ∧
      exec (.registerWrite (0x100010 + 0x1000 * h) v) s = exec (.submit h v) s ∧
      exec (.registerWrite (0x100018 + 0x1000 * h) v) s = exec (.kill h v) s) ∧
    (∀ off, off < 0x10000 ∨ (0x11000 ≤ off ∧ off < 0x100000) ∨ (0x140000 ≤ off ∧ off < 0x200000) ∨ (0x400000 ≤ off ∧ off ≠ barSizeReg) → exec (.registerWrite off v) s = .next s) ∧
    (∀ n, n = v.toNat / 2 ^ 8 % 64 → (8 ≤ n → n ≤ 16 → ∃ t, exec (.registerWrite barSizeReg v) s = .next t ∧ t = { s with mwSize := 2 ^ (20 + n) }) ∧
      (n < 8 ∨ 16 < n → exec (.registerWrite barSizeReg v) s = .next s)) ∧
    (∃ t, exec (.registerWrite 0x10010 v) s = .next t ∧ t = { s with mwTier := v.toNat % 2 }) ∧
    (∃ t, exec (.registerWrite 0x10018 v) s = .next t ∧ t = { s with mwBase := v.toNat / 2 ^ 30 % 1024 }) ∧
    (∃ t, exec (.registerWrite 0x10020 v) s = .next t ∧ t = { s with timeOfs := v }) ∧
    (∃ t, exec (.registerWrite 0x10030 v) s = .next t ∧ t = { s with fwStage := v &&& ~~~0xFFF }) ∧
    (∀ ctx, ctx < 65536 → (s.region ctx).phase ≠ .none → ∃ t, exec (.registerWrite (0x200000 + 32 * ctx + 16) v) s = .next t ∧
      t = { s with regions := t.regions, journal := t.journal, jhead := t.jhead, jlost := t.jlost } ∧
      (∀ x, x ≠ ctx → t.region x = s.region x) ∧
      let r := s.region ctx
      let clears := decide (r.energy < v.toNat)
      t.region ctx = { r with
        quota := v.toNat, exh := r.exh && !clears, overE := if clears then 0 else r.overE
        readyAt := if clears && r.exh then max r.readyAt (r.cyc + 1) else r.readyAt
        nextDue := if clears && r.exh then r.dueAfter s.dtime else r.nextDue }) ∧
    (∀ off len data, let pa := s.mwBase * 2 ^ 30 + off
      let top := if s.mwTier = 0 then 2 ^ 39 else if s.mwTier = 1 then 2 ^ 40 else 2 ^ 51
      let inside := fun (i : Nat) => off + i < s.mwSize ∧ pa + i < top
      let key := fun (i : Nat) => s.mwTier * 2 ^ 51 + pa + i
      (∃ t, exec (.hostMemoryAccess off len false data) s = .next t ∧
        t = { s with hostRead := t.hostRead, hostBad := t.hostBad, freeCtr := t.freeCtr } ∧
        (t.hostBad = true ↔ ∃ i, i < len ∧ inside i ∧ s.memErr (key i) = true) ∧ ∀ i, i < len → let b := t.hostRead / 256 ^ i % 256
          (inside i → s.imageByte (key i) = false → b = (s.byte (key i)).toNat) ∧ (¬ inside i → b = 255)) ∧
      ∃ t, exec (.hostMemoryAccess off len true data) s = .next t ∧ t = { s with mem := t.mem, memBad := t.memBad } ∧
        (∀ i, i < len → inside i → t.byte (key i) = BitVec.ofNat 8 (data / 256 ^ i)) ∧
        ∀ k, (∀ i, i < len → inside i → k ≠ key i) → t.byte k = s.byte k)

namespace Sys2Proof.Claim

/-- The bodies of capabilities 1 to 8, from the table of R347: timing models, formats, fidelity, Wyrex Link, host ABI, firmware, energy
accounting, recovery. -/
def bodies (s : State) : List (List Nat) :=
  let slot := fun (n : Nat) => let x := SMap.get {} s.slots n; [x.version, x.build]
  [[1, 0x0100], [8191], [3, 50, 40, 30], [0x0100, 0x0102, 18], [0x0100, 0x0102], s.fwActive :: (slot 0 ++ slot 1), [1, 1024], [4, 65536]]
/-- The capability list that a state's register window shows: nine entries from offset 0, identifiers 1 to 9 in order, each the next one's
offset and its length in bytes, header included, and the last one's NEXT 0 (R346, R347). -/
def listsCapabilities (s : State) : Prop :=
  ∃ offs : List Nat, offs.length = 9 ∧ offs[0]? = some 0 ∧ ∀ i, i < 9 → let w := s.regRead (offs.getD i 0)
    w % 2 ^ 16 = i + 1 ∧ w / 2 ^ 40 = offs.getD (i + 1) 0 ∧ w / 2 ^ 24 % 2 ^ 16 % 8 = 0 ∧ 8 < w / 2 ^ 24 % 2 ^ 16 ∧
      (i < 8 → offs.getD i 0 + w / 2 ^ 24 % 2 ^ 16 ≤ offs.getD (i + 1) 0) ∧
      (∀ body, (bodies s)[i]? = some body → w / 2 ^ 24 % 2 ^ 16 = 8 * (body.length + 1) ∧
        ∀ n x, body[n]? = some x → s.regRead (offs.getD i 0 + 8 + 8 * n) = x) ∧
      (i = 8 → s.regRead (offs.getD i 0 + 8) = (List.range 1536).countP s.enabled) ∧
      (i = 8 → ∀ y, y < 32 → s.regRead (offs.getD i 0 + 16 + 8 * y) < 2 ^ 48) ∧
      (i = 8 → ∀ y x, y < 32 → x < 48 → (s.regRead (offs.getD i 0 + 16 + 8 * y) / 2 ^ x % 2 = 1 ↔ s.enabled (48 * y + x) = true))

end Sys2Proof.Claim

/-- R341 to R348, R353, R360: the register window shows the capability list with its bodies, the registers of the device control block and of the handle
pages, and each context's energy record; every other offset reads 0, but for Resizable BAR's, which names the window's size. What it
reads in recovery (assumptions 57) and before Dawn, and that register's place, are the model's choice (assumptions 5, 61). -/
def Sys2Proof.Claim.RegisterWindowReads : Prop :=
  ∀ s : State,
    (s.recovery = true → ∀ off, off ≠ barSizeReg → s.regRead off = 0) ∧
    (∀ n, 8 ≤ n → n ≤ 16 → s.mwSize = 2 ^ (20 + n) → s.regRead barSizeReg = n * 2 ^ 8) ∧
    (s.recovery = false →
      (s.booted = true → listsCapabilities s) ∧
      (s.regRead 0x10000 = s.powercap ∧ s.regRead 0x10008 = 0 ∧ s.regRead 0x10010 = s.mwTier ∧ s.regRead 0x10018 = s.mwBase * 2 ^ 30 ∧
        s.regRead 0x10020 = s.timeOfs.toNat ∧ s.regRead 0x10030 = s.fwStage.toNat) ∧
      (s.fwActive < 2 → s.fwStatus < 4 → let w := s.regRead 0x10028
        (w % 2 = 1 ↔ s.fwGo = true) ∧ w / 2 % 2 = s.fwActive ∧ w / 2 ^ 2 % 2 ^ 6 = 0 ∧ w / 2 ^ 8 = s.fwStatus) ∧
      (∀ d, d < 4 → s.regRead (0x10040 + 8 * d) = SMap.get 0 s.jhead d ∧ s.regRead (0x10060 + 8 * d) = SMap.get 0 s.jlost d) ∧
      (∀ h, h < 64 → let k := SMap.get {} s.handles h
        let a := 0x100000 + 0x1000 * h
        s.regRead a = k.ver + k.st * 2 ^ 30 ∧ s.regRead (a + 8) = (if k.signReq then 1 else 0) ∧ s.regRead (a + 0x10) = 0 ∧
          s.regRead (a + 0x18) = 0 ∧ s.regRead (a + 0x20) = 0 ∧ s.regRead (a + 0x28) = (if k.busy then 2 ^ 63 else 0) + k.status) ∧
      (∀ ctx, ctx < 65536 → (s.region ctx).phase ≠ .none → let r := s.region ctx
        let a := 0x200000 + 32 * ctx
        s.regRead a = ctx + (if r.esat then 2 ^ 16 else 0) + (if r.exh then 2 ^ 17 else 0) ∧ s.regRead (a + 8) = r.energy ∧
          s.regRead (a + 16) = r.quota ∧ s.regRead (a + 24) = r.overE) ∧
      ∀ off, (0x11000 ≤ off ∧ off < 0x100000) ∨ (0x140000 ≤ off ∧ off < 0x200000) ∨ (0x400000 ≤ off ∧ off ≠ barSizeReg) → s.regRead off = 0)

/-- R264, R325, R348 to R350, R357, R358: a handle opens for major version 1 at the lesser version, is refused for another, and a write to an
open one is ignored but for 0, which kills its contexts; HFLAGS changes only while it holds no graph; SUBMIT and KILL
act only on an open handle, and a KILL of another's context is only journaled; a command that its block names starts, one at a time; the
table of a space that opens is empty, and the graphs of a handle that closes, none running, complete; in Dusk the close is held. The root's place, the delays and what closing completes are the model's choice (assumptions 11, 3, 43). -/
def Sys2Proof.Claim.HandlesServeTheHost : Prop :=
  ∀ (s : State) (h : Nat) (v : DWord), h < 64 →
    let k := SMap.get {} s.handles h
    (k.closing = false → k.st ≠ 1 → v.toNat / 256 % 256 = 1 → ∃ t k', exec (.hopen h v) s = .next t ∧
      SMap.get {} t.handles h = k' ∧ k'.st = 1 ∧ k'.ver = min (v.toNat % 65536) 0x0102 ∧ k'.root = s.hbmNext ∧ k'.keys = [] ∧
      k'.signReq = k.signReq ∧ t.cores = s.cores ∧ t.regions = s.regions ∧
      (∀ a, t.byte a = if s.hbmNext ≤ a ∧ a < s.hbmNext + 65536 then 0 else s.byte a) ∧ ∀ x, x ≠ h → SMap.get {} t.handles x = SMap.get {} s.handles x) ∧
    (k.closing = false → k.st ≠ 1 → v.toNat / 256 % 256 ≠ 1 → v.toNat % 65536 ≠ 0 → ∃ t, exec (.hopen h v) s = .next t ∧
      t = { s with handles := SMap.set {} s.handles h { st := 2, signReq := k.signReq } }) ∧
    (k.closing = false → k.st ≠ 1 → v.toNat % 65536 = 0 → ∃ t, exec (.hopen h v) s = .next t ∧
      t = { s with handles := SMap.set {} s.handles h { signReq := k.signReq } }) ∧
    (k.st = 1 → v.toNat % 65536 ≠ 0 → ∃ t, exec (.hopen h v) s = .next t ∧ t = s) ∧
    (k.closing = true → v.toNat % 65536 ≠ 0 → exec (.hopen h v) s = .next s) ∧
    (s.Inv → k.closing = false → k.st = 1 → v.toNat % 65536 = 0 → s.dusk = true → ∃ t, exec (.hopen h v) s = .next t ∧
      t = { s with handles := SMap.set {} s.handles h { k with closing := true }, heldWork := s.heldWork ++ [(0, .hopen h v)]
                   regions := t.regions, journal := t.journal, jhead := t.jhead, jlost := t.jlost } ∧ ∀ ctx,
        ((s.region ctx).handle = h ∧ (s.region ctx).phase ≠ .none →
          t.region ctx = (s.region ctx).kill 2 s.dtime (s.core ((s.region ctx).ctx * 2048)).levels.length) ∧
        ((s.region ctx).handle ≠ h ∨ (s.region ctx).phase = .none → t.region ctx = s.region ctx)) ∧
    (k.closing = false → k.st = 1 → v.toNat % 65536 = 0 → s.dusk = false → (∀ p ∈ s.regions, p.2.handle = h → p.2.phase = .none) →
      ∃ t, exec (.hopen h v) s = .next t ∧ SMap.get {} t.handles h = {} ∧ t.regions = s.regions ∧ (∀ p ∈ t.memOwner, p.1 ≠ h) ∧
        (s.handleBusy h = false → t.mem = s.mem) ∧
        ∀ g ∈ s.graphs, g.handle = h → (∀ x ∈ g.nodes, x.busy = false ∧ x.swapped = 0) → ∀ y ∈ t.graphs, y.gid ≠ g.gid) ∧
    (s.Inv → k.closing = false → k.st = 1 → v.toNat % 65536 = 0 → s.dusk = false → (∃ p ∈ s.regions, p.2.handle = h ∧ p.2.phase ≠ .none) →
      ∃ t, exec (.hopen h v) s = .next t ∧
        SMap.get {} t.handles h = { k with closing := true, buffers := (SMap.get {} t.handles h).buffers } ∧
        (s.handleBusy h = false → t.mem = s.mem) ∧ ∀ ctx,
        ((s.region ctx).handle = h ∧ (s.region ctx).phase ≠ .none →
          t.region ctx = (s.region ctx).kill 2 s.dtime (s.core ((s.region ctx).ctx * 2048)).levels.length) ∧
        ((s.region ctx).handle ≠ h ∨ (s.region ctx).phase = .none → t.region ctx = s.region ctx)) ∧
    (s.handleBusy h = false → ∃ t, exec (.hflags h v) s = .next t ∧
      t = { s with handles := SMap.set {} s.handles h { k with signReq := v.getLsbD 0 } }) ∧
    (s.handleBusy h = true → ∃ t, exec (.hflags h v) s = .next t ∧ t = s) ∧
    (k.st = 1 → k.closing = false → s.dusk = false → s.graphs.length < 256 → ∀ g, s.readGraph h (v.toNat % 2 ^ 52) s.nextGid = some g →
      ∃ t n, exec (.submit h v) s = .next t ∧
        t.graphs = s.graphs ++ [if v.toNat < 2 ^ 52 ∧ v.toNat % 64 = 0 then g else { g with nodes := [] }] ∧ t.nextGid = s.nextGid + 1 ∧ s.now < n ∧
        t.agenda = laterInsert n (.ev 0 .graphCheck) s.agenda ∧ t.mem = s.mem ∧ t.cores = s.cores ∧ t.regions = s.regions) ∧
    (k.st = 1 → k.closing = false → ∀ ctx, ctx = v.toNat % 65536 → (s.region ctx).phase ≠ .none → (s.region ctx).handle = h →
      ∃ t, exec (.kill h v) s = .next t ∧ t = { s with regions := t.regions, journal := t.journal, jhead := t.jhead, jlost := t.jlost } ∧
        t.region ctx = (s.region ctx).kill 2 s.dtime (s.core ((s.region ctx).ctx * 2048)).levels.length ∧ ∀ x, x ≠ ctx → t.region x = s.region x) ∧
    (k.st = 1 → k.closing = false → ∀ ctx, ctx = v.toNat % 65536 → (s.region ctx).phase = .none ∨ (s.region ctx).handle ≠ h →
      ∃ t e, exec (.kill h v) s = .next t ∧ t = s.journaled 0 e ∧ (e.dtime, e.ctx, e.data) = (s.dtime, ctx, h)) ∧
    (∀ (i : Instr) (op blk : Nat), ((i, op) = (.hcmdMap h blk, 1) ∨ (i, op) = (.hcmdUnmap h blk, 2) ∨ (i, op) = (.hcmdAllocateMap h blk, 3) ∨
      (i, op) = (.hcmdRegisterKey h blk, 4)) →
      (k.st = 1 → k.closing = false → k.busy = false → s.blockOp blk = op → ∃ t n, exec i s = .next t ∧ s.now < n ∧ t = { s with
        handles := SMap.set {} s.handles h { k with busy := true }, agenda := laterInsert n (.hcmd h op blk) s.agenda, freeCtr := s.freeCtr + 1 }) ∧
      ((k.st ≠ 1 ∨ k.closing = true ∨ k.busy = true ∨ s.blockOp blk ≠ op) → ∃ t, exec i s = .next t ∧ t = s)) ∧
    ((k.st ≠ 1 ∨ k.closing = true) → (∃ t, exec (.submit h v) s = .next t ∧ t = s) ∧ ∃ t, exec (.kill h v) s = .next t ∧ t = s)

/-- R318, R319, R351 to R354, R356, R358 to R360: FWCTL's GO starts an update and Dusk, and is ignored during one; a bad signature ends it with
status 2 under the old image, a good one goes into the other slot, measurement 2 being of it, and is late at once where it cannot read the handover structure; the
new image's first heartbeat within its 100 ms makes its slot active, status 1; a missed one leaves the old one active, measurement 2 restored, status 3.
Training agrees on the highest common version or leaves the port down; a flit is taken in order, or replayed, and acts where this module
is its destination, as a store, a load or an atomic; routes follow what the host writes; DTIME is slewed by at most 100 ppm toward the host, or toward a peer over a link
of version 1.2. Dawn boots the active slot, or the other, or stays in recovery; a warm one leaves the contexts that are out, and those that a
commit ended during the reset. The staged image and the handover structure, what a measurement is of what it measures, the slew,
the kinds of flits, the delays, and that a warm Dawn leaves those contexts are the model's choice (assumptions 3, 5, 19, 44). -/
def Sys2Proof.Claim.FirmwareLinksAndDawn : Prop :=
  ∀ s : State,
    (∀ v : DWord, v.getLsbD 0 = true → s.fwGo = false → ∃ t n, exec (.fwctl v) s = .next t ∧ s.now < n ∧ t = { s with
      fwStatus := 0, fwGo := true, dusk := true, update := { phase := 1 }, freeCtr := s.freeCtr + 2, slots := t.slots,
      agenda := laterInsert n (.ev 0 .updateSignatureCheck) s.agenda } ∧ ∀ n, n ≠ 2 → SMap.get {} t.slots n = SMap.get {} s.slots n) ∧
    (∀ v : DWord, (v.getLsbD 0 = false ∨ s.fwGo = true) → ∃ t, exec (.fwctl v) s = .next t ∧ t = s) ∧
    (s.update.phase = 1 → (SMap.get {} s.slots 2).good = false → ∃ t, exec .updateSignatureCheck s = .next t ∧ t.fwStatus = 2 ∧
      t.fwGo = false ∧ t.dusk = false ∧ t.fwActive = s.fwActive ∧ t.slots = s.slots ∧ t.mem = s.mem ∧ t.cores = s.cores) ∧
    (s.update.phase = 1 → (SMap.get {} s.slots 2).good = true → ∃ t x, exec .updateSignatureCheck s = .next t ∧
      SMap.get {} t.slots (1 - s.fwActive) = SMap.get {} s.slots 2 ∧ t.update.phase = 2 ∧ t.update.hand = some x ∧
      x.version = (SMap.get {} s.slots s.fwActive).writes ∧
      t.update.deadline = (if (SMap.get {} s.slots 2).reads.contains (x.version / 256) && x.crc = crc32c x.body then s.dtime + 100000000 else s.dtime) ∧
      SMap.get 0 t.meas 2 = (SMap.get {} s.slots 2).measure ∧ (∀ n, n ≠ 2 → SMap.get 0 t.meas n = SMap.get 0 s.meas n) ∧
      t.update.oldMeas = SMap.get 0 s.meas 2 ∧ t.dusk = s.dusk ∧ t.fwActive = s.fwActive ∧ t.mem = s.mem ∧ t.cores = s.cores) ∧
    (s.update.phase = 2 → (∃ x, s.update.hand = some x ∧ x.readable (SMap.get {} s.slots (1 - s.fwActive)) = false) →
      ∃ t, exec .firmwareHeartbeat s = .next t ∧ t = s) ∧
    (s.update.deadline < s.dtime → exec .firmwareHeartbeat s = .next s) ∧
    (s.update.phase = 2 → (s.dtime ≤ s.update.deadline → (∀ x, s.update.hand = some x → x.readable (SMap.get {} s.slots (1 - s.fwActive)) = true) →
        ∃ t, exec .firmwareHeartbeat s = .next t ∧ t.fwStatus = 1 ∧ t.fwGo = false ∧ t.dusk = false ∧
        t.fwActive = 1 - s.fwActive ∧ t.update = {} ∧ t.mem = s.mem ∧ t.cores = s.cores) ∧
      ∃ t, exec .updateHeartbeatTimeout s = .next t ∧ t.fwStatus = 3 ∧ t.fwGo = false ∧ t.dusk = false ∧ t.fwActive = s.fwActive ∧
        SMap.get 0 t.meas 2 = s.update.oldMeas ∧ t.update = {} ∧ t.mem = s.mem ∧ t.cores = s.cores) ∧
    (∃ t x, exec .getMeasurements s = .next t ∧ t = { s with
      report := [Config.measure 1 0, SMap.get 0 s.meas 2, Config.measure 3 (fuseWord s), Config.measure 4 (keyWord s), x], freeCtr := s.freeCtr + 1 }) ∧
    (∀ (port lo hi : Nat) (q : Port), port < 18 →
      q = (if max lo 0x0100 ≤ min hi 0x0102 then { up := true, version := min hi 0x0102 } else {}) →
      ∃ t, exec (.linkTraining port lo hi) s = .next t ∧ t.ports = SMap.set {} s.ports port q ∧ t.routes = s.routes ∧ t.mem = s.mem ∧
        ((∀ p ∈ s.routes, p.2 = port + 1 → (SMap.get {} s.ports port).up = true → q.up = true) → t = { s with ports := SMap.set {} s.ports port q })) ∧
    (∀ port dst src seq addr len data, let p := SMap.get {} s.ports port
      port < 18 → p.up = true → src < 256 →
      (seq % 4096 = p.expect → dst ≠ s.modNo → ∀ kind, ∃ t, exec (.flitReceive port (dst, src) kind seq addr len data true) s = .next t ∧
        t = { s with ports := SMap.set {} s.ports port { p with expect := (p.expect + 1) % 4096 } }) ∧
      (seq % 4096 = p.expect → dst = s.modNo → len ≤ 224 → addr + len ≤ 2 ^ 39 →
        ∃ t x e, exec (.flitReceive port (dst, src) 2 seq addr len data true) s = .next t ∧
        t = { s with ports := SMap.set {} s.ports port { p with expect := (p.expect + 1) % 4096, answers := p.answers ++ [(src, x, e)] } } ∧
        ∀ i, i < len → x / 256 ^ i % 256 = (s.byte (addr + i)).toNat) ∧
      (seq % 4096 = p.expect → dst = s.modNo → len ≤ 224 → addr + len ≤ 2 ^ 39 → ∀ kind, kind = 1 ∨ kind = 3 →
        ∃ t, exec (.flitReceive port (dst, src) kind seq addr len data true) s = .next t ∧
        (SMap.get {} t.ports port).expect = (p.expect + 1) % 4096 ∧ t.cores = s.cores ∧ t.regions = s.regions ∧
        (∀ i, i < len → t.byte (addr + i) = BitVec.ofNat 8 (data / 256 ^ i)) ∧
        ∀ key, (key < addr ∨ addr + len ≤ key) → t.byte key = s.byte key) ∧
      (∀ (n : Nat) (old b cmp : DWord), n < 10 → seq % 4096 = p.expect → dst = s.modNo → 0x0101 ≤ p.version → addr % 8 = 0 → addr + 8 ≤ 2 ^ 39 →
        (∀ i, i < 8 → s.byte (addr + i) = BitVec.ofNat 8 (old.toNat / 256 ^ i)) → data = b.toNat + 2 ^ 64 * cmp.toNat →
        ∃ t e, exec (.flitReceive port (dst, src) (16 + n) seq addr len data true) s = .next t ∧ t.cores = s.cores ∧ t.regions = s.regions ∧
        SMap.get {} t.ports port = { p with expect := (p.expect + 1) % 4096, answers := p.answers ++ [(src, old.toNat, e)] } ∧
        (∀ i, i < 8 → t.byte (addr + i) = BitVec.ofNat 8 ((atomicNew n old b cmp).toNat / 256 ^ i)) ∧
        ∀ key, (key < addr ∨ addr + 8 ≤ key) → t.byte key = s.byte key) ∧
      (∀ ok kind, (ok = false ∨ seq % 4096 ≠ p.expect) → ∃ t, exec (.flitReceive port (dst, src) kind seq addr len data ok) s = .next t ∧
        t = { s with ports := SMap.set {} s.ports port { p with replays := p.replays + 1 } })) ∧
    (∀ peer port, peer < 256 →
      (port ≠ 256 → ∀ entry, entry = (if port < 18 then port + 1 else 0) → ∃ t, exec (.routingTableWrite peer port) s = .next t ∧
        t.routes = SMap.set 0 s.routes peer entry ∧ t.ports = s.ports ∧ t.mem = s.mem ∧
        ((∀ p ∈ s.routes, p.1 = peer → s.routeUp peer = true → entry ≠ 0 ∧ (SMap.get {} s.ports port).up = true) →
          t = { s with routes := SMap.set 0 s.routes peer entry })) ∧
      ∃ t, exec (.routingTableWrite peer 256) s = .next t ∧ t = { s with timePeer := peer + 1 }) ∧
    (∀ host link q, link = SMap.get 0 s.routes (s.timePeer - 1) → q = SMap.get {} s.ports (link - 1) →
      let timed := s.timePeer = 0 ∨ (link ≠ 0 ∧ q.up = true ∧ 0x0102 ≤ q.version)
      (timed → ∃ t, exec (.ptmExchange host) s = .next t ∧ t = { s with slew := t.slew } ∧ -100 ≤ t.slew ∧ t.slew ≤ 100 ∧
        (s.dtime + s.timeOfs.toNat ≤ host → 0 ≤ t.slew) ∧ (host ≤ s.dtime + s.timeOfs.toNat → t.slew ≤ 0)) ∧
      (¬ timed → ∃ t, exec (.ptmExchange host) s = .next t ∧ t = s)) ∧
    (s.Inv → s.dawnCold = false → ∃ t, exec .dawn s = .next t ∧ t.dawnAt = s.dtime ∧ t.reserved = none ∧
      ∀ ctx, (s.region ctx).phase = .out ∨ (ctx ∈ s.kept ∧ (s.region ctx).phase = .run ∧ s.live (s.region ctx) = []) → t.region ctx = s.region ctx) ∧
    (∀ a b, a = (SMap.get {} s.slots s.fwActive).good → b = (SMap.get {} s.slots (1 - s.fwActive)).good → ∃ t, exec .dawn s = .next t ∧
      t.dusk = false ∧ t.update = {} ∧ (a = true → t.booted = true ∧ t.fwActive = s.fwActive) ∧
      (a = false → b = true → t.booted = true ∧ t.fwActive = 1 - s.fwActive) ∧ (a = false → b = false → t.booted = false ∧ t.recovery = true) ∧
      (s.dawnCold = true → t.dtime = 0 ∧ t.powercap = 2400 ∧ t.graphs = [] ∧ t.mwTier = 0 ∧ t.mwBase = 0 ∧ t.timeOfs = 0 ∧ t.fwStage = 0) ∧
      ((a = true ∨ b = true) → ∀ n, n < 96 → 2 ≤ (SMap.get {} t.clusters n).code ∧ (SMap.get {} t.clusters n).code ≤ 16))

/-- R357: a journal entry of a die stands in the ring of its journal in HBM from the next cycle on: 32 bytes, over the oldest entry where the
ring is full; every other byte is as before. The ring's place and the entries of one cycle are the model's choice (assumptions 10). -/
def Sys2Proof.Claim.JournalsStandInTheirRings : Prop :=
  ∀ (s : State) (rest : List Turn) (d : Nat) (e : JEnt), s.todo = .tick :: rest → d < 4 → SMap.get 0 s.jhead d = SMap.get 0 s.jdone d + 1 →
    (s.journal.filter fun p => p.1 = d).getLast? = some (d, e) → (s.journal.filter fun p => p.1 = d).length ≤ SMap.get 0 s.jhead d →
    (∀ x, x < 4 → x ≠ d → SMap.get 0 s.jhead x = SMap.get 0 s.jdone x) → ∃ t a, step s = .next t ∧
      a = (journalReport d).1 + 32 * (SMap.get 0 s.jdone d % 1024) ∧
      (∀ i, i < 8 → t.byte (a + i) = BitVec.ofNat 8 (e.dtime / 256 ^ i) ∧ t.byte (a + 8 + i) = BitVec.ofNat 8 (e.instant / 256 ^ i) ∧
        t.byte (a + 24 + i) = BitVec.ofNat 8 (e.data / 256 ^ i)) ∧
      (∀ i, i < 2 → t.byte (a + 16 + i) = BitVec.ofNat 8 (e.ctx / 256 ^ i) ∧ t.byte (a + 18 + i) = BitVec.ofNat 8 (e.kind / 256 ^ i)) ∧
      (∀ i, i < 4 → t.byte (a + 20 + i) = BitVec.ofNat 8 (e.core / 256 ^ i)) ∧
      (∀ key, key < a ∨ a + 32 ≤ key → t.byte key = s.byte key) ∧ SMap.get 0 t.jdone d = SMap.get 0 s.jhead d

namespace Sys2Proof.Claim

/-- Word i of the 32-byte command block at a place in HBM (R350). -/
def blockWord (s : State) (blk i : Nat) : Nat := (List.range 8).foldr (fun j n => (s.byte (blk + 8 * i + j)).toNat + 256 * n) 0
/-- The 64-bit entry that stands at a place of a table in HBM (R229). -/
def entryAt (s : State) (a : Nat) : Nat := (List.range 8).foldr (fun j n => (s.byte (a + j)).toNat + 256 * n) 0
/-- The entry of an address in the table of a level (R229). -/
def slot (va level : Nat) : Nat :=
  8 * (if level = 3 then va / 2 ^ 39 % 2 ^ 13 else if level = 2 then va / 2 ^ 30 % 2 ^ 9 else if level = 1 then va / 2 ^ 21 % 2 ^ 9 else va / 2 ^ 16 % 2 ^ 5)
/-- The table n levels below the root that the way to an address goes through: pointers lead to it (R229, R230). -/
def onWay (s : State) (root va : Nat) : Nat → Nat → Prop
  | 0, tab => tab = root
  | n + 1, tab => ∃ up, onWay s root va n up ∧ s.memErr (up + slot va (3 - n)) = false ∧ let e := entryAt s (up + slot va (3 - n))
    pteV e = true ∧ pteLeaf e = 0 ∧ pteFrame e = tab
/-- A leaf entry for a page of a level at an address that R231 does not reject (R229 to R231). -/
def mappable (pte va level : Nat) : Prop :=
  pteV pte = true ∧ pteLeaf pte = level + 1 ∧ level ≤ 2 ∧ pteScope pte ≤ 5 ∧ pteOrd pte ≤ 2 ∧ pteFrame pte % pageSize level = 0 ∧
    pteFrame pte + pageSize level ≤ tierSize (pteTier pte) ∧ ¬ (pteTE pte = true ∧ pteTier pte ≠ 0) ∧ ¬ (pteCA pte = true ∧ 2 ≤ pteTier pte) ∧
    va % pageSize level = 0 ∧ va + pageSize level ≤ 2 ^ 52
/-- The entries that put an entry of a level for an address into the tables, where the way to it ends at a place of a table of level L:
that place takes the entry, or a pointer to the first of the new tables that stand from a place on, each of which points to the next, the
last one holding the entry (R229; the new tables' place, assumptions 11). -/
def entriesMade (next va L level pte at_ : Nat) : List (Nat × Nat) :=
  let value := fun (j : Nat) => if j = L - level then pte else 2 ^ 63 + (next + 65536 * j) / 4096
  (at_, value 0) :: (List.range (L - level)).map fun j => (next + 65536 * j + slot va (L - 1 - j), value (j + 1))
/-- From s to t the page of a level at an address takes an entry: it stands at its place, with new tables, empty but for the way, from a place
on; every other byte is as before, the page leaves the TLBs of the handle's contexts from the next cycle on, with all the pages of the
range, and the command ends with status 0 once it has (R239, R350). -/
structure pageChanged (s t : State) (h va level pte : Nat) (made : List (Nat × Nat)) (next tabs : Nat) : Prop where
  entry : ∀ p ∈ made, ∀ i, i < 8 → t.byte (p.1 + i) = BitVec.ofNat 8 (p.2 / 256 ^ i)
  bytes : ∀ key, (∀ p ∈ made, key < p.1 ∨ p.1 + 8 ≤ key) → t.byte key = if next ≤ key ∧ key < next + 65536 * tabs then 0 else s.byte key
  leaves : ∀ p ∈ s.regions, p.2.handle = h → p.2.phase ≠ .none → (s.now + 1, GItem.ev (p.1 * 2048) (.tlbInvalidate p.1 va)) ∈ t.agenda ∧
    ∀ id ∈ p.2.ids, ∀ e ∈ (s.core id).tlb, e.ctx = p.1 → s.meets h va (pageSize level) e = true →
      (s.now + 1, GItem.ev (p.1 * 2048) (.tlbInvalidate p.1 e.base)) ∈ t.agenda
  ends : (s.now + 1, GItem.hcmdEnd h 0 va (pageSize level)) ∈ t.agenda
  page : SMap.get {} t.handles h = { SMap.get {} s.handles h with owned := (SMap.get {} t.handles h).owned } ∧
    ∀ a, a ∈ (SMap.get {} t.handles h).owned ↔
      (a ∈ (SMap.get {} s.handles h).owned ∧ (a < va ∨ va + pageSize level ≤ a)) ∨ (a = va ∧ pteV pte = true ∧ pteNO pte = true)
  others : t.cores = s.cores ∧ t.regions = s.regions ∧ t.graphs = s.graphs ∧ t.freeCtr = s.freeCtr
  owner : tabs ≠ 0 → t.memOwner.head? = some (h, next, 65536 * tabs)
/-- The way to the entry of a level for an address ends at a place of a table of level L: the table of the level itself, or one above it whose
entry is absent or poisoned (R229; assumptions 48). -/
def wayEnds (s : State) (root va level L at_ : Nat) : Prop :=
  ∃ tab, onWay s root va (3 - L) tab ∧ at_ = tab + slot va L ∧ level ≤ L ∧ L ≤ 3 ∧
    (L = level ∨ (tab + 65536 ≤ s.hbmNext ∧ (s.memErr at_ = true ∨ pteV (entryAt s at_) = false)))

end Sys2Proof.Claim

/-- R229 to R231, R239, R350, R355: a host command that runs ends with status 1 where its entry, memory,
operation, block or key is bad; a key is registered; a map puts its entry, an unmap an empty one and an allocation that of the next free memory
(status 2 with none) into the table that the way leads to, missing ones made, once no context has the page
locked, and it leaves the TLBs. It ends once no TLB holds an old translation. The allocator, larger leaves, poisoned blocks, keys of 132 bytes,
and status 1 for a fifth or an unknown OP are the model's choice (assumptions 11, 43, 48, 63, 76). -/
def Sys2Proof.Claim.HostCommandsRun : Prop :=
  ∀ (s : State) (rest : List Turn) (n h op blk : Nat) (more : List (Nat × GItem)), s.todo = .due :: rest → n ≤ s.now →
    s.hbmNext ≤ 2 ^ 39 →
    let k := SMap.get {} s.handles h
    let closed := k.st ≠ 1 ∨ k.closing = true
    let va := blockWord s blk 1
    let pa := blockWord s blk 2
    let attr := blockWord s blk 3 / 2 ^ 39 * 2 ^ 39
    let level := pteLeaf attr - 1
    let size := pageSize level
    let ends := fun (status : Nat) => step s = .next { s with agenda := laterInsert (s.now + 1) (.hcmdEnd h status 0 0) more }
    let again := step s = .next { s with agenda := laterInsert (s.now + 1) (.hcmd h op blk) more }
    let clean := ∀ i, i < 32 → s.memErr (blk + i) = false
    let covered := ∃ p, s.walkFrom va 3 k.root = some p ∧ level < p.2
    (s.agenda = (n, .hcmd h op blk) :: more → blk + 32 ≤ 2 ^ 39 →
      (closed → step s = .next { s with agenda := more }) ∧
      (¬ closed → (¬ clean ∨ op = 0 ∨ 4 < op → ends 1)) ∧
      (¬ closed → clean → op = 4 →
        (4 ≤ k.keys.length ∨ (∃ i, i < 132 ∧ s.memErr (pa + i) = true) → ends 1) ∧
        (k.keys.length < 4 → (∀ i, i < 132 → s.memErr (pa + i) = false) → ∃ key t, step s = .next t ∧
          t = { s with handles := SMap.set {} s.handles h { k with keys := k.keys ++ [key] }
                       agenda := laterInsert (s.now + 1) (.hcmdEnd h 0 0 0) more } ∧
          key < 256 ^ 132 ∧ ∀ i, i < 132 → key / 256 ^ i % 256 = (s.byte (pa + i)).toNat)) ∧
      (¬ closed → clean → op = 1 → let pte := attr + pa / 4096
        let key := pteTier pte * 2 ^ 51 + pa
        let bad := pa % 4096 ≠ 0 ∨ 2 ^ 51 ≤ pa ∨ ¬ mappable pte va level ∨ covered ∨
          (pteScope pte < 4 ∧ ∃ p ∈ s.memOwner, p.1 ≠ h ∧ p.2.1 < key + size ∧ key < p.2.1 + p.2.2)
        (bad → ends 1) ∧
        (¬ bad → s.nodeHeld key size = true ∨ s.rangeLocked h va size = true → again) ∧
        (¬ bad → s.nodeHeld key size = false → s.rangeLocked h va size = false → ∀ L at_, wayEnds s k.root va level L at_ →
          (2 ^ 39 < s.hbmNext + 65536 * (L - level) → ends 2) ∧
          (s.hbmNext + 65536 * (L - level) ≤ 2 ^ 39 → ∃ t, step s = .next t ∧ t.hbmNext = s.hbmNext + 65536 * (L - level) ∧
            pageChanged s t h va level pte (entriesMade s.hbmNext va L level pte at_) s.hbmNext (L - level) ∧
            t.memOwner.drop (min 1 (L - level)) = s.memOwner))) ∧
      (¬ closed → clean → op = 2 → let bad := pteLeaf attr = 0 ∨ va % size ≠ 0 ∨ 2 ^ 52 < va + size ∨ pteV (s.entryFrom va level 3 k.root) = false
        (bad → ends 1) ∧
        (¬ bad → s.rangeLocked h va size = true → again) ∧
        (¬ bad → s.rangeLocked h va size = false → ∀ at_, wayEnds s k.root va level level at_ →
          ∃ t, step s = .next t ∧ pageChanged s t h va level 0 [(at_, 0)] s.hbmNext 0 ∧ t.memOwner = s.memOwner) ∧
        (¬ bad → s.rangeLocked h va size = false → ∀ e tab, s.walkFrom va 3 k.root = some (e, level + 1) → onWay s k.root va (2 - level) tab →
          tab + 65536 ≤ s.hbmNext → s.hbmNext + 65536 ≤ 2 ^ 39 → ∃ t, step s = .next t ∧ t.hbmNext = s.hbmNext + 65536 ∧
            entryAt t (tab + slot va (level + 1)) = 2 ^ 63 + s.hbmNext / 4096 ∧
            ∀ i, i < (if level = 0 then 32 else 512) → let x := entryAt t (s.hbmNext + 8 * i)
              (8 * i = slot va level → x = 0) ∧ (8 * i ≠ slot va level → pteV x = true ∧ pteLeaf x = level + 1 ∧
                pteFrame x = pteFrame e + i * size ∧ x / 2 ^ 52 = e / 2 ^ 52 ∧ x / 2 ^ 39 % 2 ^ 11 = e / 2 ^ 39 % 2 ^ 11))) ∧
      (¬ closed → clean → op = 3 → let base := ((if pteTier attr = 0 then s.hbmNext else s.lpdNext) + size - 1) / size * size
        (2 ≤ pteTier attr ∨ ¬ mappable attr va level ∨ covered → ends 1) ∧
        (pteTier attr < 2 → mappable attr va level → ¬ covered → tierSize (pteTier attr) < base + size → ends 2) ∧
        (pteTier attr < 2 → mappable attr va level → ¬ covered → base + size ≤ tierSize (pteTier attr) → s.rangeLocked h va size = false →
          ∀ L at_ next, wayEnds s k.root va level L at_ → next = (if pteTier attr = 0 then base + size else s.hbmNext) →
          (2 ^ 39 < next + 65536 * (L - level) → ends 2) ∧
          (next + 65536 * (L - level) ≤ 2 ^ 39 → ∃ t, step s = .next t ∧ t.hbmNext = next + 65536 * (L - level) ∧
            pageChanged s t h va level (attr + base / 4096) (entriesMade next va L level (attr + base / 4096) at_) next (L - level) ∧
            t.memOwner.drop (min 1 (L - level)) = (h, pteTier attr * 2 ^ 51 + base, size) :: s.memOwner ∧
            (pteTier attr = 1 → t.lpdNext = base + size))))) ∧
    (∀ status lo len, s.agenda = (n, .hcmdEnd h status lo len) :: more →
      (closed → step s = .next { s with agenda := more }) ∧
      (¬ closed → len ≠ 0 → s.rangeStale h lo len = true →
        step s = .next { s with agenda := laterInsert (s.now + 1) (.hcmdEnd h status lo len) more }) ∧
      (¬ closed → len = 0 ∨ s.rangeStale h lo len = false →
        step s = .next { s with handles := SMap.set {} s.handles h { k with busy := false, status := status }, agenda := more }))

/-- Host registers, window, handles and commands: HostRegistersAndWindow, RegisterWindowReads, HandlesServeTheHost, HostCommandsRun hold. -/
def Obligations.HostRegistersAndHandles : Prop :=
  Claim.HostRegistersAndWindow ∧ Claim.RegisterWindowReads ∧ Claim.HandlesServeTheHost ∧ Claim.HostCommandsRun

namespace Sys2Proof.Claim

/-- A place in the memory of a peer module (R226). -/
def overRoute (peer key : Nat) : Prop := 3 * 2 ^ 51 ≤ key ∧ (key - 3 * 2 ^ 51) / 2 ^ 43 % 2 ^ 8 = peer
/-- A part of an access is in flight over a peer's route: memory has not served it. -/
def flying (peer : Nat) (p : UPart) : Prop := p.got = none ∧ ∃ k ∈ p.keys, overRoute peer k
/-- A load or atomic as the route is lost: what flies over it returns data with an error, and nothing else of it changes (R321, R351). -/
def loses (peer : Nat) (u v : Untimed) : Prop :=
  v = { u with parts := v.parts, served := v.served } ∧ ((∀ p ∈ u.parts, ¬ flying peer p) → v = u) ∧
    (∀ (i : Nat) (p : UPart), u.parts[i]? = some p → (flying peer p → v.parts[i]? = some { p with got := some (0, true) }) ∧ (¬ flying peer p → v.parts[i]? = some p)) ∧
    ((∃ p ∈ u.parts, flying peer p) → (∀ p ∈ u.parts, p.got ≠ none ∨ flying peer p) → ∃ x fl, v.served = some (x, true, fl))
/-- A copy as the route is lost: what it would write over it and has yet to read over it is lost, and a stamp that goes there (R351). -/
def copyLoses (peer : Nat) (c d : Copy) : Prop :=
  let away := fun (l : List Loc) => ∃ k ∈ gmKeys l, overRoute peer k
  d = { c with moves := d.moves, rest := d.rest, vals := d.vals, lost := d.lost } ∧ (d.lost = true ↔ c.lost = true ∨ away c.stampTo) ∧
    (∀ v, v ∈ d.vals ↔ v ∈ c.vals ∧ ¬ away v.dst) ∧
    (∀ m, m ∈ d.moves ↔ ∃ m' ∈ c.moves, ¬ away m'.dst ∧
      ((c.vals = [] ∧ away m'.srcs ∧ m = { m' with src := .lost }) ∨ (¬ (c.vals = [] ∧ away m'.srcs) ∧ m = m'))) ∧
    ∀ m, m ∈ d.rest ↔ ∃ m' ∈ c.rest, ¬ away m'.dst ∧ ((away m'.srcs ∧ m = { m' with src := .lost }) ∨ (¬ away m'.srcs ∧ m = m'))
/-- An event takes a peer's route down, and no other peer's (R351). -/
def goesDown (s : State) (peer : Nat) (i : Instr) : Prop :=
  i = .routeDown peer ∨ (∃ port, i = .routingTableWrite peer port ∧ 18 ≤ port ∧ port ≠ 256 ∧ s.routeUp peer = true ∧
      (s.routes.map Prod.fst).Nodup) ∨
    ∃ port lo hi, i = .linkTraining port lo hi ∧ port < 18 ∧ min hi 0x0102 < max lo 0x0100 ∧ s.routeUp peer = true ∧
      (s.routes.map Prod.fst).Nodup ∧ ∀ q, SMap.get 0 s.routes q = port + 1 ↔ q = peer

end Sys2Proof.Claim

/-- R226, R321, R351, R357: ROUTE_DOWN, an update of the routing table and a port that trains to no version take a peer's route down, and what
is in flight over it is lost though the route come back: reads return data with an error, and writes are discarded; the journal of die 0
has an entry for the route and one for each access; nothing else of a core or a region changes, nor any byte of memory. Their kinds are the model's
choice (assumptions 10). -/
def Sys2Proof.Claim.RoutesLoseTheirAccesses : Prop :=
  ∀ (s : State) (peer : Nat) (i : Instr), s.Inv → peer < 256 → goesDown s peer i → ∃ t, exec i s = .next t ∧ t.mem = s.mem ∧
    t.routeUp peer = false ∧
    (∀ ctx, t.region ctx = { s.region ctx with copies := (t.region ctx).copies, released := (t.region ctx).released } ∧
      List.Forall₂ (copyLoses peer) (s.region ctx).copies (t.region ctx).copies ∧
      List.Forall₂ (fun e f => f = { e with bytes := f.bytes } ∧ ∀ b, b ∈ f.bytes ↔ b ∈ e.bytes ∧ ¬ overRoute peer b.key)
        (s.region ctx).released (t.region ctx).released) ∧
    (∀ p ∈ s.regions, ∀ id ∈ p.2.ids, t.core id = { s.core id with untimed := (t.core id).untimed } ∧
      List.Forall₂ (loses peer) (s.core id).untimed (t.core id).untimed) ∧
    (∀ id, (∀ p ∈ s.regions, id ∉ p.2.ids) → t.core id = s.core id) ∧
    ∃ (e : JEnt) (l : List JEnt), t.journal = ((e :: l).foldl (fun m x => m.journaled 0 x) s).journal ∧ (e.kind, e.data) = (14, peer) ∧
      (∀ x ∈ l, x.data = peer ∧ (x.kind = 18 ∨ x.kind = 19)) ∧
      ∀ p ∈ s.regions, (∀ id ∈ p.2.ids, ∀ u ∈ (s.core id).untimed, (∃ q ∈ u.parts, flying peer q) →
          ∃ x ∈ l, (x.ctx, x.kind, x.core) = (p.1, 18, id % 2048)) ∧
        ∀ w ∈ p.2.released, (∃ b ∈ w.bytes, overRoute peer b.key) → ∃ x ∈ l, (x.ctx, x.kind) = (p.1, 19)

/-- Live update, links, time, Dawn, journals: FirmwareLinksAndDawn, JournalsStandInTheirRings, RoutesLoseTheirAccesses hold. -/
def Obligations.FirmwareLinksAndDawn : Prop :=
  Claim.FirmwareLinksAndDawn ∧ Claim.JournalsStandInTheirRings ∧ Claim.RoutesLoseTheirAccesses
end

