-- ==== Sys2Proof/Laws/SMap.lean ====
section
/-! SUPPORT. The laws of the sparse maps: read after write, writes elsewhere, and the canonical form kept by every operation. -/

namespace Sys2Proof.Machine

variable {α : Type}

theorem SMap.get_cons (d : α) (a k : Nat) (v : α) (m : SMap α) :
    SMap.get d ((a, v) :: m) k = if a = k then v else SMap.get d m k := rfl

theorem SMap.get_insert_same (d v : α) (k : Nat) (m : SMap α) : SMap.get d (SMap.insert k v m) k = v := by
  induction m with
  | nil => simp [SMap.insert, SMap.get]
  | cons p m ih =>
    obtain ⟨a, b⟩ := p
    unfold SMap.insert
    split
    · simp [SMap.get]
    · split
      · simp [SMap.get]
      · rename_i h; simp [SMap.get, ih, Ne.symm h]

theorem SMap.get_insert_other (d v : α) {k j : Nat} (h : j ≠ k) (m : SMap α) :
    SMap.get d (SMap.insert k v m) j = SMap.get d m j := by
  induction m with
  | nil => simp [SMap.insert, SMap.get, h.symm]
  | cons p m ih =>
    obtain ⟨a, b⟩ := p
    unfold SMap.insert
    split
    · simp [SMap.get, h.symm]
    · split
      · rename_i h2; subst h2; simp [SMap.get, h.symm]
      · simp [SMap.get, ih]

theorem SMap.get_erase_same (d : α) (k : Nat) (m : SMap α) : SMap.get d (SMap.erase k m) k = d := by
  induction m with
  | nil => rfl
  | cons p m ih =>
    obtain ⟨a, b⟩ := p
    unfold SMap.erase
    split
    · exact ih
    · rename_i h; simp [SMap.get, h, ih]

theorem SMap.get_erase_other (d : α) {k j : Nat} (h : j ≠ k) (m : SMap α) :
    SMap.get d (SMap.erase k m) j = SMap.get d m j := by
  induction m with
  | nil => rfl
  | cons p m ih =>
    obtain ⟨a, b⟩ := p
    unfold SMap.erase
    split
    · rename_i h2; subst h2; simp [SMap.get, ih, h.symm]
    · simp [SMap.get, ih]

variable [DecidableEq α]

/-- A read after a write of the same key gives the value written. -/
@[simp] theorem SMap.get_set_same (d v : α) (k : Nat) (m : SMap α) : SMap.get d (SMap.set d m k v) k = v := by
  unfold SMap.set
  split
  · rename_i h; rw [SMap.get_erase_same, h]
  · exact SMap.get_insert_same d v k m

/-- A write leaves every other key alone. -/
theorem SMap.get_set_other (d v : α) {k j : Nat} (h : j ≠ k) (m : SMap α) :
    SMap.get d (SMap.set d m k v) j = SMap.get d m j := by
  unfold SMap.set
  split
  · exact SMap.get_erase_other d h m
  · exact SMap.get_insert_other d v h m

theorem SMap.get_set (d v : α) (k j : Nat) (m : SMap α) :
    SMap.get d (SMap.set d m k v) j = if j = k then v else SMap.get d m j := by
  split
  · rename_i h; subst h; simp
  · rename_i h; exact SMap.get_set_other d v h m

omit [DecidableEq α] in
theorem SMap.sortedAbove_mono {b c : Nat} (h : b ≤ c) {m : SMap α} (hm : SMap.sortedAbove c m = true) :
    SMap.sortedAbove b m = true := by
  cases m with
  | nil => rfl
  | cons p m =>
    obtain ⟨a, v⟩ := p
    simp only [SMap.sortedAbove, Bool.and_eq_true, decide_eq_true_eq] at *
    exact ⟨by omega, hm.2⟩

omit [DecidableEq α] in
theorem SMap.sortedAbove_insert {b k : Nat} {v : α} {m : SMap α} (hk : b < k) (hm : SMap.sortedAbove b m = true) :
    SMap.sortedAbove b (SMap.insert k v m) = true := by
  induction m generalizing b with
  | nil => simp [SMap.insert, SMap.sortedAbove, hk]
  | cons p m ih =>
    obtain ⟨a, w⟩ := p
    simp only [SMap.sortedAbove, Bool.and_eq_true, decide_eq_true_eq] at hm
    unfold SMap.insert
    split
    · rename_i h; simp [SMap.sortedAbove, hk, h, hm.2]
    · split
      · rename_i h; subst h; simp [SMap.sortedAbove, hk, hm.2]
      · rename_i h1 h2
        simp only [SMap.sortedAbove, Bool.and_eq_true, decide_eq_true_eq]
        exact ⟨hm.1, ih (by omega) hm.2⟩

omit [DecidableEq α] in
theorem SMap.sorted_insert (k : Nat) (v : α) {m : SMap α} (hm : SMap.sorted m = true) :
    SMap.sorted (SMap.insert k v m) = true := by
  cases m with
  | nil => rfl
  | cons p m =>
    obtain ⟨a, w⟩ := p
    simp only [SMap.sorted] at hm
    unfold SMap.insert
    split
    · rename_i h; simp [SMap.sorted, SMap.sortedAbove, h, hm]
    · split
      · rename_i h; subst h; exact hm
      · rename_i h1 h2; exact SMap.sortedAbove_insert (by omega) hm

omit [DecidableEq α] in
theorem SMap.sortedAbove_erase {b : Nat} (k : Nat) {m : SMap α} (hm : SMap.sortedAbove b m = true) :
    SMap.sortedAbove b (SMap.erase k m) = true := by
  induction m generalizing b with
  | nil => rfl
  | cons p m ih =>
    obtain ⟨a, w⟩ := p
    simp only [SMap.sortedAbove, Bool.and_eq_true, decide_eq_true_eq] at hm
    unfold SMap.erase
    split
    · exact ih (SMap.sortedAbove_mono (Nat.le_of_lt hm.1) hm.2)
    · simp only [SMap.sortedAbove, Bool.and_eq_true, decide_eq_true_eq]
      exact ⟨hm.1, ih hm.2⟩

omit [DecidableEq α] in
theorem SMap.sorted_of_above {b : Nat} {m : SMap α} (hm : SMap.sortedAbove b m = true) : SMap.sorted m = true := by
  cases m with
  | nil => rfl
  | cons p m => obtain ⟨a, v⟩ := p; simp only [SMap.sortedAbove, Bool.and_eq_true] at hm; exact hm.2

omit [DecidableEq α] in
theorem SMap.sorted_erase (k : Nat) {m : SMap α} (hm : SMap.sorted m = true) : SMap.sorted (SMap.erase k m) = true := by
  cases m with
  | nil => rfl
  | cons p m =>
    obtain ⟨a, w⟩ := p
    simp only [SMap.sorted] at hm
    unfold SMap.erase
    split
    · exact SMap.sorted_of_above (SMap.sortedAbove_erase k hm)
    · exact SMap.sortedAbove_erase k hm

omit [DecidableEq α] in
theorem SMap.mem_insert {k : Nat} {v : α} {m : SMap α} {p : Nat × α} (h : p ∈ SMap.insert k v m) : p = (k, v) ∨ p ∈ m := by
  induction m with
  | nil => simpa [SMap.insert] using h
  | cons q m ih =>
    obtain ⟨a, w⟩ := q
    unfold SMap.insert at h
    split at h
    · simpa using h
    · split at h
      · rcases List.mem_cons.mp h with h | h
        · exact .inl h
        · exact .inr (List.mem_cons_of_mem _ h)
      · rcases List.mem_cons.mp h with h | h
        · exact .inr (h ▸ List.mem_cons_self)
        · rcases ih h with h | h
          · exact .inl h
          · exact .inr (List.mem_cons_of_mem _ h)

omit [DecidableEq α] in
theorem SMap.mem_erase {k : Nat} {m : SMap α} {p : Nat × α} (h : p ∈ SMap.erase k m) : p ∈ m := by
  induction m with
  | nil => exact h
  | cons q m ih =>
    obtain ⟨a, w⟩ := q
    unfold SMap.erase at h
    split at h
    · exact List.mem_cons_of_mem _ (ih h)
    · rcases List.mem_cons.mp h with h | h
      · exact h ▸ List.mem_cons_self
      · exact List.mem_cons_of_mem _ (ih h)

omit [DecidableEq α] in
theorem SMap.mem_erase_key {k : Nat} {m : SMap α} {p : Nat × α} (h : p ∈ SMap.erase k m) : p.1 ≠ k := by
  induction m with
  | nil => simp [SMap.erase] at h
  | cons q m ih =>
    obtain ⟨a, w⟩ := q
    unfold SMap.erase at h
    split at h
    · exact ih h
    · rename_i hne
      rcases List.mem_cons.mp h with h | h
      · subst h; exact hne
      · exact ih h

/-- What a write can put into a map: the pair written, or a pair that was there. -/
theorem SMap.mem_set {d v : α} {k : Nat} {m : SMap α} {p : Nat × α} (h : p ∈ SMap.set d m k v) : p = (k, v) ∨ p ∈ m := by
  unfold SMap.set at h
  split at h
  · exact .inr (SMap.mem_erase h)
  · exact SMap.mem_insert h

theorem SMap.noDefault_iff (d : α) (m : SMap α) : SMap.noDefault d m = true ↔ ∀ p ∈ m, p.2 ≠ d := by
  induction m with
  | nil => simp [SMap.noDefault]
  | cons p m ih => obtain ⟨a, v⟩ := p; simp [SMap.noDefault, ih]

/-- A write keeps the canonical form. -/
theorem SMap.wf_set {d : α} {m : SMap α} (k : Nat) (v : α) (h : SMap.wf d m = true) : SMap.wf d (SMap.set d m k v) = true := by
  simp only [SMap.wf, Bool.and_eq_true, SMap.noDefault_iff] at *
  unfold SMap.set
  split
  · exact ⟨SMap.sorted_erase k h.1, fun p hp => h.2 p (SMap.mem_erase hp)⟩
  · rename_i hv
    refine ⟨SMap.sorted_insert k v h.1, fun p hp => ?_⟩
    rcases SMap.mem_insert hp with hp | hp
    · subst hp; exact hv
    · exact h.2 p hp

theorem SMap.wf_erase {d : α} {m : SMap α} (k : Nat) (h : SMap.wf d m = true) : SMap.wf d (SMap.erase k m) = true := by
  simp only [SMap.wf, Bool.and_eq_true, SMap.noDefault_iff] at *
  exact ⟨SMap.sorted_erase k h.1, fun p hp => h.2 p (SMap.mem_erase hp)⟩

theorem SMap.wf_setAll {d : α} (l : List (Nat × α)) : ∀ {m : SMap α}, SMap.wf d m = true → SMap.wf d (SMap.setAll d m l) = true := by
  induction l with
  | nil => intro m h; exact h
  | cons p l ih => intro m h; obtain ⟨k, v⟩ := p; exact ih (SMap.wf_set k v h)

theorem SMap.wf_nil (d : α) : SMap.wf d ([] : SMap α) = true := rfl

/-- A list of pairs written into the empty map is canonical. -/
theorem SMap.wf_ofList (d : α) (l : List (Nat × α)) : SMap.wf d (SMap.ofList d l) = true := SMap.wf_setAll l (SMap.wf_nil d)

/-- A key no pair names keeps its value through a run of writes. -/
theorem SMap.get_setAll_other (d : α) (l : List (Nat × α)) : ∀ (m : SMap α) (j : Nat), (∀ p ∈ l, p.1 ≠ j) →
    SMap.get d (SMap.setAll d m l) j = SMap.get d m j := by
  induction l with
  | nil => intro m j _; rfl
  | cons p l ih =>
    intro m j h
    obtain ⟨k, v⟩ := p
    rw [SMap.setAll, ih _ _ fun q hq => h q (List.mem_cons_of_mem _ hq)]
    exact SMap.get_set_other d v (Ne.symm (h (k, v) List.mem_cons_self)) m

omit [DecidableEq α] in
/-- A value a map reads is the default or stands in the map. -/
theorem SMap.get_mem_or (d : α) (m : SMap α) (k : Nat) : SMap.get d m k = d ∨ (k, SMap.get d m k) ∈ m := by
  induction m with
  | nil => exact .inl rfl
  | cons p m ih =>
    obtain ⟨a, v⟩ := p
    simp only [SMap.get]
    split
    · rename_i h; subst h; exact .inr List.mem_cons_self
    · rcases ih with h | h
      · exact .inl h
      · exact .inr (List.mem_cons_of_mem _ h)

omit [DecidableEq α] in
theorem SMap.get_above (d : α) {b : Nat} {m : SMap α} (h : SMap.sortedAbove b m = true) {k : Nat} (hk : k ≤ b) : SMap.get d m k = d := by
  induction m generalizing b with
  | nil => rfl
  | cons p m ih =>
    obtain ⟨a, v⟩ := p
    simp only [SMap.sortedAbove, Bool.and_eq_true, decide_eq_true_eq] at h
    simp only [SMap.get, show a ≠ k by omega, if_false]
    exact ih h.2 (by omega)

/-- Two canonical maps that read alike at every key are one list: equal memories are equal data. -/
theorem SMap.ext_of_wf {d : α} {m n : SMap α} (hm : SMap.wf d m = true) (hn : SMap.wf d n = true)
    (h : ∀ k, SMap.get d m k = SMap.get d n k) : m = n := by
  have key : ∀ (m n : SMap α), SMap.sorted m = true → SMap.sorted n = true → (∀ p ∈ m, p.2 ≠ d) → (∀ p ∈ n, p.2 ≠ d) →
      (∀ k, SMap.get d m k = SMap.get d n k) → m = n := by
    intro m
    induction m with
    | nil =>
      intro n _ _ _ hd h
      cases n with
      | nil => rfl
      | cons q n => obtain ⟨a, v⟩ := q; have := h a; simp [SMap.get] at this; exact absurd this.symm (hd (a, v) List.mem_cons_self)
    | cons p m ih =>
      intro n sm sn dm dn h
      obtain ⟨a, v⟩ := p
      cases n with
      | nil => have := h a; simp [SMap.get] at this; exact absurd this (dm (a, v) List.mem_cons_self)
      | cons q n =>
        obtain ⟨b, w⟩ := q
        simp only [SMap.sorted] at sm sn
        have hv := dm (a, v) List.mem_cons_self
        have hw := dn (b, w) List.mem_cons_self
        have hab : a = b := by
          rcases Nat.lt_trichotomy a b with hl | hl | hl
          · have := h a; simp only [SMap.get, if_true, show b ≠ a by omega, if_false] at this
            rw [SMap.get_above d sn (by omega)] at this; exact absurd this hv
          · exact hl
          · have := h b; simp only [SMap.get, if_true, show a ≠ b by omega, if_false] at this
            rw [SMap.get_above d sm (by omega)] at this; exact absurd this.symm hw
        subst hab
        have hvw : v = w := by have := h a; simpa [SMap.get] using this
        subst hvw
        have := ih n (SMap.sorted_of_above sm) (SMap.sorted_of_above sn) (fun p hp => dm p (List.mem_cons_of_mem _ hp))
          (fun p hp => dn p (List.mem_cons_of_mem _ hp)) (fun k => by
            by_cases hk : a = k
            · subst hk; rw [SMap.get_above d sm (Nat.le_refl a), SMap.get_above d sn (Nat.le_refl a)]
            · have := h k; simpa [SMap.get, hk] using this)
        rw [this]
  simp only [SMap.wf, Bool.and_eq_true, SMap.noDefault_iff] at hm hn
  exact key m n hm.1 hn.1 hm.2 hn.2 h

end Sys2Proof.Machine
end

