-- ==== Sys2Proof/Laws/State.lean ====
section
/-! SUPPORT. What each primitive update does to each part of the state: the update of a core, a region and the package written out,
the parts of the state an update of a core or a region leaves alone, and reads of cores and regions after updates. -/

namespace Sys2Proof.Machine

/-! ## Updates of a core -/

@[simp] theorem CAct.apply_reg (c : Core) r v t b : CAct.apply c (.reg r v t b) = (if r = 0 then c else { c with regs := SMap.set {} c.regs r ⟨v, t, b⟩ }) := rfl
@[simp] theorem CAct.apply_row (c : Core) t i v b : CAct.apply c (.row t i v b) = { c with rows := SMap.set 0 c.rows (t * 16 + i) v, rowBad := SMap.set 0 c.rowBad (t * 16 + i) b } := rfl
@[simp] theorem CAct.apply_side (c : Core) t v b : CAct.apply c (.side t v b) = { c with sides := SMap.set 0 c.sides t v, sideBad := SMap.set 0 c.sideBad t b } := rfl
@[simp] theorem CAct.apply_rowPart (c : Core) t i lo n v : CAct.apply c (.rowPart t i lo n v) = (
    { c with
      rows := SMap.set 0 c.rows (t * 16 + i) (putBits (SMap.get 0 c.rows (t * 16 + i)) lo n v)
      rowBad := SMap.set 0 c.rowBad (t * 16 + i) (clearMarks (SMap.get 0 c.rowBad (t * 16 + i)) lo n) }) := rfl
@[simp] theorem CAct.apply_sidePart (c : Core) t lo n v : CAct.apply c (.sidePart t lo n v) = (
    { c with
      sides := SMap.set 0 c.sides t (putBits (SMap.get 0 c.sides t) lo n v)
      sideBad := SMap.set 0 c.sideBad t (clearMarks (SMap.get 0 c.sideBad t) lo n) }) := rfl
@[simp] theorem CAct.apply_rowMark (c : Core) t i b : CAct.apply c (.rowMark t i b) = { c with rowBad := SMap.set 0 c.rowBad (t * 16 + i) (SMap.get 0 c.rowBad (t * 16 + i) ||| b) } := rfl
@[simp] theorem CAct.apply_sideMark (c : Core) t b : CAct.apply c (.sideMark t b) = { c with sideBad := SMap.set 0 c.sideBad t (SMap.get 0 c.sideBad t ||| b) } := rfl
@[simp] theorem CAct.apply_tileTag (c : Core) t v : CAct.apply c (.tileTag t v) = { c with tileTag := SMap.set 0 c.tileTag t v } := rfl
@[simp] theorem CAct.apply_tileFull (c : Core) t v : CAct.apply c (.tileFull t v) = { c with tileFull := SMap.set false c.tileFull t v } := rfl
@[simp] theorem CAct.apply_acc (c : Core) a i j e : CAct.apply c (.acc a i j e) = { c with accs := SMap.set {} c.accs (a * 256 + i * 16 + j) e } := rfl
@[simp] theorem CAct.apply_accTag (c : Core) a t : CAct.apply c (.accTag a t) = { c with accTag := SMap.set 0 c.accTag a t } := rfl
@[simp] theorem CAct.apply_slotCol (c : Core) b j v : CAct.apply c (.slotCol b j v) = { c with slotCols := SMap.set 0 c.slotCols (b * 16 + j) v } := rfl
@[simp] theorem CAct.apply_slotRow (c : Core) b i w v e : CAct.apply c (.slotRow b i w v e) = (
    { c with
      slotCols := putColumns b i w v (List.range 16) c.slotCols
      slotBad := (if w = 0 then [i] else List.range 16).foldl (fun m n => SMap.set false m (b * 17 + n) (e || (w ≠ 0 && decide (0 < i) && SMap.get false m (b * 17 + n)))) c.slotBad }) := rfl
@[simp] theorem CAct.apply_slotSide (c : Core) b v e : CAct.apply c (.slotSide b v e) = { c with slotSides := SMap.set 0 c.slotSides b v, slotBad := SMap.set false c.slotBad (b * 17 + 16) e } := rfl
@[simp] theorem CAct.apply_slotTag (c : Core) b t : CAct.apply c (.slotTag b t) = { c with slotTag := SMap.set 0 c.slotTag b t } := rfl
@[simp] theorem CAct.apply_clock (c : Core) k v : CAct.apply c (.clock k v) = (if k < 2 then c else { c with clocks := SMap.set {} c.clocks k v }) := rfl
@[simp] theorem CAct.apply_clocksClear (c : Core) : CAct.apply c (.clocksClear) = { c with clocks := [] } := rfl
@[simp] theorem CAct.apply_pred (c : Core) p v : CAct.apply c (.pred p v) = { c with preds := SMap.set {} c.preds p v } := rfl
@[simp] theorem CAct.apply_predUnwrite (c : Core) p : CAct.apply c (.predUnwrite p) = { c with preds := SMap.set {} c.preds p { SMap.get {} c.preds p with written := false } } := rfl
@[simp] theorem CAct.apply_delayInit (c : Core) x v k : CAct.apply c (.delayInit x v k) = { c with delays := SMap.set {} c.delays x ⟨v, (SMap.get {} c.delays x).staged, false, k⟩ } := rfl
@[simp] theorem CAct.apply_delayStage (c : Core) x v : CAct.apply c (.delayStage x v) = { c with delays := SMap.set {} c.delays x { SMap.get {} c.delays x with staged := v, has := true } } := rfl
@[simp] theorem CAct.apply_delayCommit (c : Core) : CAct.apply c (.delayCommit) = { c with delays := c.delays.map fun p => (p.1, if p.2.has then { p.2 with committed := p.2.staged, has := false } else p.2) } := rfl
@[simp] theorem CAct.apply_delaySnap (c : Core) : CAct.apply c (.delaySnap) = { c with delaySnap := c.delays } := rfl
@[simp] theorem CAct.apply_delayRestore (c : Core) : CAct.apply c (.delayRestore) = { c with delays := c.delaySnap.map fun p => (p.1, { p.2 with has := false }) } := rfl
@[simp] theorem CAct.apply_loops (c : Core) l : CAct.apply c (.loops l) = { c with loops := l } := rfl
@[simp] theorem CAct.apply_loopsOld (c : Core) l : CAct.apply c (.loopsOld l) = { c with loopsOld := l } := rfl
@[simp] theorem CAct.apply_segBuf (c : Core) l : CAct.apply c (.segBuf l) = { c with segBuf := l } := rfl
@[simp] theorem CAct.apply_tokenSub (c : Core) t : CAct.apply c (.tokenSub t) = { c with tokens := SMap.set 0 c.tokens t (SMap.get 0 c.tokens t - 1) } := rfl
@[simp] theorem CAct.apply_token (c : Core) t n : CAct.apply c (.token t n) = { c with tokens := SMap.set 0 c.tokens t n } := rfl
@[simp] theorem CAct.apply_bar (c : Core) b v : CAct.apply c (.bar b v) = { c with bars := SMap.set {} c.bars b v } := rfl
@[simp] theorem CAct.apply_btPhase (c : Core) b v : CAct.apply c (.btPhase b v) = { c with btPhase := SMap.set false c.btPhase b v } := rfl
@[simp] theorem CAct.apply_btArr (c : Core) b v : CAct.apply c (.btArr b v) = { c with btArr := SMap.set false c.btArr b v } := rfl
@[simp] theorem CAct.apply_btOwed (c : Core) b v : CAct.apply c (.btOwed b v) = { c with btOwed := SMap.set false c.btOwed b v } := rfl
@[simp] theorem CAct.apply_fmt (c : Core) n v : CAct.apply c (.fmt n v) = { c with fmt := SMap.set 0 c.fmt n v } := rfl
@[simp] theorem CAct.apply_hist (c : Core) n v : CAct.apply c (.hist n v) = { c with hist := SMap.set 0 c.hist n v } := rfl
@[simp] theorem CAct.apply_csr (c : Core) n v : CAct.apply c (.csr n v) = { c with csrs := SMap.set (csrReset n) c.csrs n v } := rfl
@[simp] theorem CAct.apply_orFlags (c : Core) v : CAct.apply c (.orFlags v) = { c with csrs := SMap.set 0 c.csrs 0x010 ((SMap.get 0 c.csrs 0x010) ||| BitVec.ofNat 64 (v % 16)) } := rfl
@[simp] theorem CAct.apply_errRem (c : Core) n : CAct.apply c (.errRem n) = { c with errRem := n } := rfl
@[simp] theorem CAct.apply_enhi (c : Core) v : CAct.apply c (.enhi v) = { c with enhi := v } := rfl
@[simp] theorem CAct.apply_mode (c : Core) m : CAct.apply c (.mode m) = { c with mode := m } := rfl
@[simp] theorem CAct.apply_inHandler (c : Core) v : CAct.apply c (.inHandler v) = { c with inHandler := v } := rfl
@[simp] theorem CAct.apply_pc (c : Core) v : CAct.apply c (.pc v) = { c with pc := v } := rfl
@[simp] theorem CAct.apply_issPc (c : Core) v : CAct.apply c (.issPc v) = { c with issPc := v } := rfl
@[simp] theorem CAct.apply_npc (c : Core) v n : CAct.apply c (.npc v n) = { c with npc := v, ncost := n } := rfl
@[simp] theorem CAct.apply_xfer (c : Core) v : CAct.apply c (.xfer v) = { c with xfer := v } := rfl
@[simp] theorem CAct.apply_instPc (c : Core) v : CAct.apply c (.instPc v) = { c with instPc := v } := rfl
@[simp] theorem CAct.apply_nextAt (c : Core) v : CAct.apply c (.nextAt v) = { c with nextAt := v } := rfl
@[simp] theorem CAct.apply_held (c : Core) v : CAct.apply c (.held v) = { c with held := v, missed := if v then c.missed else [] } := rfl
@[simp] theorem CAct.apply_missed (c : Core) va : CAct.apply c (.missed va) = { c with missed := va :: c.missed } := rfl
@[simp] theorem CAct.apply_trapped (c : Core) v : CAct.apply c (.trapped v) = { c with trapped := v } := rfl
@[simp] theorem CAct.apply_stepDone (c : Core) e free done n : CAct.apply c (.stepDone e free done n) = (
    let g := c.eng e
    c.setEng e { g with freeAt := free, due := free, doneAt := max g.doneAt done, copies := g.copies + n }) := rfl
@[simp] theorem CAct.apply_wait (c : Core) w : CAct.apply c (.wait w) = { c with waits := c.waits ++ [w] } := rfl
@[simp] theorem CAct.apply_waits (c : Core) l : CAct.apply c (.waits l) = { c with waits := l } := rfl
@[simp] theorem CAct.apply_saved (c : Core) w n p i : CAct.apply c (.saved w n p i) = { c with waitsSaved := w, nextSaved := n, pcSaved := p, issSaved := i } := rfl
@[simp] theorem CAct.apply_seg (c : Core) v : CAct.apply c (.seg v) = { c with seg := v } := rfl
@[simp] theorem CAct.apply_segSaved (c : Core) v : CAct.apply c (.segSaved v) = { c with segSaved := v } := rfl
@[simp] theorem CAct.apply_crc (c : Core) l : CAct.apply c (.crc l) = { c with seg := c.seg.map fun g => { g with crc := BitVec.ofNat 32 (crcBytes g.crc.toNat l) } } := rfl
@[simp] theorem CAct.apply_divFree (c : Core) v : CAct.apply c (.divFree v) = { c with divFree := v } := rfl
@[simp] theorem CAct.apply_div (c : Core) u n : CAct.apply c (.div u n) = { c with div := SMap.set 1 c.div u n } := rfl
@[simp] theorem CAct.apply_divNext (c : Core) u n : CAct.apply c (.divNext u n) = { c with divNext := SMap.set 0 c.divNext u n } := rfl
@[simp] theorem CAct.apply_untimedPush (c : Core) u : CAct.apply c (.untimedPush u) = { c with untimed := c.untimed ++ [u] } := rfl
@[simp] theorem CAct.apply_untimedSet (c : Core) l : CAct.apply c (.untimedSet l) = { c with untimed := l } := rfl
@[simp] theorem CAct.apply_fencedAt (c : Core) n : CAct.apply c (.fencedAt n) = { c with fencedAt := n } := rfl
@[simp] theorem CAct.apply_arrived (c : Core) v n : CAct.apply c (.arrived v n) = { c with arrived := v, arrCyc := n } := rfl
@[simp] theorem CAct.apply_kend (c : Core) v : CAct.apply c (.kend v) = { c with kend := v } := rfl
@[simp] theorem CAct.apply_kendPend (c : Core) v : CAct.apply c (.kendPend v) = { c with kendPend := v } := rfl
@[simp] theorem CAct.apply_ended (c : Core) v : CAct.apply c (.ended v) = { c with ended := v } := rfl
@[simp] theorem CAct.apply_safept (c : Core) v : CAct.apply c (.safept v) = { c with safept := v } := rfl
@[simp] theorem CAct.apply_engPush (c : Core) e q : CAct.apply c (.engPush e q) = c.setEng e { c.eng e with queue := (c.eng e).queue ++ [q] } := rfl
@[simp] theorem CAct.apply_engAttr (c : Core) e g w t : CAct.apply c (.engAttr e g w t) = c.setEng e { c.eng e with aGuard := g, aWait := w, aSig := t } := rfl
@[simp] theorem CAct.apply_engPace (c : Core) e g : CAct.apply c (.engPace e g) = c.setEng e { c.eng e with pace := g } := rfl
@[simp] theorem CAct.apply_eng (c : Core) e v : CAct.apply c (.eng e v) = c.setEng e v := rfl
@[simp] theorem CAct.apply_table (c : Core) e i w : CAct.apply c (.table e i w) = { c with tables := SMap.set 0 c.tables (e * 1024 + i) w } := rfl
@[simp] theorem CAct.apply_pendAcc (c : Core) a n : CAct.apply c (.pendAcc a n) = { c with pendAcc := SMap.set 0 c.pendAcc a n } := rfl
@[simp] theorem CAct.apply_pendSlot (c : Core) b n : CAct.apply c (.pendSlot b n) = { c with pendSlot := SMap.set 0 c.pendSlot b n } := rfl
@[simp] theorem CAct.apply_copyCount (c : Core) v : CAct.apply c (.copyCount v) = { c with copyCount := v } := rfl
@[simp] theorem CAct.apply_spad (c : Core) off l : CAct.apply c (.spad off l) = { c with spad := SMap.setAll 0 c.spad (indexed off l) } := rfl
@[simp] theorem CAct.apply_spadBad (c : Core) off n v : CAct.apply c (.spadBad off n v) = { c with spadBad := SMap.setAll false c.spadBad ((dwordsOf off n).map fun w => (w, v)) } := rfl
@[simp] theorem CAct.apply_stagePush (c : Core) e : CAct.apply c (.stagePush e) = { c with staging := c.staging ++ [e] } := rfl
@[simp] theorem CAct.apply_staging (c : Core) l : CAct.apply c (.staging l) = { c with staging := l } := rfl
@[simp] theorem CAct.apply_aliased (c : Core) v : CAct.apply c (.aliased v) = { c with aliased := v } := rfl
@[simp] theorem CAct.apply_chStage (c : Core) ch n v : CAct.apply c (.chStage ch n v) = { c with chStaged := c.chStaged ++ [(ch, n, v)] } := rfl
@[simp] theorem CAct.apply_chStagedClear (c : Core) : CAct.apply c (.chStagedClear) = { c with chStaged := [] } := rfl
@[simp] theorem CAct.apply_chPop (c : Core) ch : CAct.apply c (.chPop ch) = { c with chPops := SMap.set 0 c.chPops ch (SMap.get 0 c.chPops ch + 1) } := rfl
@[simp] theorem CAct.apply_chPopsClear (c : Core) : CAct.apply c (.chPopsClear) = { c with chPops := [] } := rfl
@[simp] theorem CAct.apply_tagEnt (c : Core) i v : CAct.apply c (.tagEnt i v) = { c with tagTab := SMap.set {} c.tagTab i v } := rfl
@[simp] theorem CAct.apply_tlb (c : Core) l : CAct.apply c (.tlb l) = { c with tlb := l } := rfl
@[simp] theorem CAct.apply_inboxPush (c : Core) d v : CAct.apply c (.inboxPush d v) = c.setInbox d (c.inbox d ++ [v]) := rfl
@[simp] theorem CAct.apply_inboxPop (c : Core) d : CAct.apply c (.inboxPop d) = c.setInbox d ((c.inbox d).drop 1) := rfl
@[simp] theorem CAct.apply_inboxClear (c : Core) : CAct.apply c (.inboxClear) = { c with inboxN := [], inboxE := [], inboxS := [], inboxW := [] } := rfl
@[simp] theorem CAct.apply_undoPush (c : Core) r top : CAct.apply c (.undoPush r top) = { c with undo := c.undo ++ [r], undoTop := top } := rfl
@[simp] theorem CAct.apply_undo (c : Core) l top : CAct.apply c (.undo l top) = { c with undo := l, undoTop := top } := rfl
@[simp] theorem CAct.apply_levels (c : Core) l : CAct.apply c (.levels l) = { c with levels := l } := rfl
@[simp] theorem CAct.apply_pendLimit (c : Core) n : CAct.apply c (.pendLimit n) = { c with pendLimit := n } := rfl
@[simp] theorem CAct.apply_bumpSerial (c : Core) : CAct.apply c (.bumpSerial) = { c with serial := c.serial + 1 } := rfl
@[simp] theorem CAct.apply_clear (c : Core) : CAct.apply c (.clear) = {} := rfl

/-! ## Updates of a region -/

@[simp] theorem RAct.apply_sched (s : State) (r : Region) k it : RAct.apply s r (.sched k it) = { r with agenda := agendaInsert k it r.agenda } := rfl
@[simp] theorem RAct.apply_agenda (s : State) (r : Region) l : RAct.apply s r (.agenda l) = { r with agenda := l } := rfl
@[simp] theorem RAct.apply_raise (s : State) (r : Region) f : RAct.apply s r (.raise f) = (
    let c := s.core f.core
    r.raise f s.dtime c.levels.length c.seg.isSome (match r.phase with | .handler _ => true | _ => false)) := rfl
@[simp] theorem RAct.apply_put (s : State) (r : Region) r' : RAct.apply s r (.put r') = r' := rfl
@[simp] theorem RAct.apply_copyPush (s : State) (r : Region) c : RAct.apply s r (.copyPush c) = { r with copies := r.copies ++ [c] } := rfl
@[simp] theorem RAct.apply_copies (s : State) (r : Region) l : RAct.apply s r (.copies l) = { r with copies := l } := rfl
@[simp] theorem RAct.apply_released (s : State) (r : Region) l : RAct.apply s r (.released l) = { r with released := l } := rfl
@[simp] theorem RAct.apply_taken (s : State) (r : Region) n k : RAct.apply s r (.taken n k) = { r with copies := r.copies.map fun c => if c.core = n ∧ c.serial = k then { c with taken := true } else c } := rfl
@[simp] theorem RAct.apply_hold (s : State) (r : Region) l : RAct.apply s r (.hold l) = { r with links := l } := rfl
@[simp] theorem RAct.apply_visible (s : State) (r : Region) n : RAct.apply s r (.visible n) = { r with visibleAt := max r.visibleAt n } := rfl
@[simp] theorem RAct.apply_qwaited (s : State) (r : Region) ch : RAct.apply s r (.qwaited ch) = { r with qwaited := ch :: r.qwaited } := rfl
@[simp] theorem RAct.apply_reaction (s : State) (r : Region) : RAct.apply s r (.reaction) = ( { r with deadline := match r.deadline with
      | some d => if s.dtime ≤ d then none else some d
      | none => none }) := rfl
@[simp] theorem RAct.apply_kill (s : State) (r : Region) st : RAct.apply s r (.kill st) = r.kill st s.dtime (s.core (r.ctx * 2048)).levels.length := rfl
@[simp] theorem RAct.apply_launchAt (s : State) (r : Region) n : RAct.apply s r (.launchAt n) = { r with phase := .run, nextDue := if r.instant = 0 then r.firstDue s.dtime else r.nextDue, cyc := if r.instant = 0 then 0 else r.cyc, ranFrom := s.dtime, quantExp := false, d0 := if r.d0 = 0 then s.dtime else r.d0, baseAt := n } := rfl
@[simp] theorem RAct.apply_resume (s : State) (r : Region) d n : RAct.apply s r (.resume d n) = { r with ibase := r.ibase + d, phase := .resuming n } := rfl
@[simp] theorem RAct.apply_rdv (s : State) (r : Region) v : RAct.apply s r (.rdv v) = { r with rdvDue := v } := rfl
@[simp] theorem RAct.apply_btDue (s : State) (r : Region) t c : RAct.apply s r (.btDue t c) = { r with btDue := SMap.set 0 r.btDue t c } := rfl
@[simp] theorem RAct.apply_swapPend (s : State) (r : Region) v : RAct.apply s r (.swapPend v) = { r with swapPend := v } := rfl
@[simp] theorem RAct.apply_ps (s : State) (r : Region) v d : RAct.apply s r (.ps v d) = { r with ps := v, deadline := d, skip := if v then r.skip else 0, skipCnt := if v then r.skipCnt else 0 } := rfl
@[simp] theorem RAct.apply_skip (s : State) (r : Region) k : RAct.apply s r (.skip k) = { r with skip := k, deadline := none, skipCnt := 0 } := rfl
@[simp] theorem RAct.apply_skipCnt (s : State) (r : Region) n : RAct.apply s r (.skipCnt n) = { r with skipCnt := n } := rfl
@[simp] theorem RAct.apply_tickCyc (s : State) (r : Region) : RAct.apply s r (.tickCyc) = { r with cyc := r.cyc + 1 } := rfl
@[simp] theorem RAct.apply_quota (s : State) (r : Region) v cl : RAct.apply s r (.quota v cl) = (
    if cl then { r with quota := v, exh := false, overE := 0, readyAt := if r.exh ∧ r.between then max r.readyAt (r.cyc + 1) else r.readyAt
                        nextDue := if r.exh ∧ r.between then r.dueAfter s.dtime else r.nextDue }
    else { r with quota := v }) := rfl
@[simp] theorem RAct.apply_quant (s : State) (r : Region) v : RAct.apply s r (.quant v) = { r with quant := v } := rfl

/-! ## Updates of the package -/

@[simp] theorem GAct.apply_now (s : State) n : GAct.apply s (.now n) = { s with now := n } := rfl
@[simp] theorem GAct.apply_time (s : State) a : GAct.apply s (.time a) = { s with dtAcc := a } := rfl
@[simp] theorem GAct.apply_slew (s : State) v : GAct.apply s (.slew v) = { s with slew := v } := rfl
@[simp] theorem GAct.apply_todo (s : State) l : GAct.apply s (.todo l) = { s with todo := l } := rfl
@[simp] theorem GAct.apply_inputs (s : State) l : GAct.apply s (.inputs l) = { s with inputs := l } := rfl
@[simp] theorem GAct.apply_agenda (s : State) l : GAct.apply s (.agenda l) = { s with agenda := l } := rfl
@[simp] theorem GAct.apply_later (s : State) n g : GAct.apply s (.later n g) = { s with agenda := laterInsert n g s.agenda } := rfl
@[simp] theorem GAct.apply_takeFree (s : State) n : GAct.apply s (.takeFree n) = { s with freeCtr := s.freeCtr + n } := rfl
@[simp] theorem GAct.apply_cur (s : State) c a : GAct.apply s (.cur c a) = { s with cur := c, actor := a } := rfl
@[simp] theorem GAct.apply_word (s : State) w : GAct.apply s (.word w) = { s with word := w } := rfl
@[simp] theorem GAct.apply_booted (s : State) b r : GAct.apply s (.booted b r) = { s with booted := b, recovery := r } := rfl
@[simp] theorem GAct.apply_mem (s : State) k v : GAct.apply s (.mem k v) = { s with mem := SMap.set 0 s.mem k v } := rfl
@[simp] theorem GAct.apply_memClear (s : State) lo n : GAct.apply s (.memClear lo n) = { s with mem := outside lo (lo + n) s.mem, memBad := outside (lo / 64) ((lo + n) / 64) s.memBad } := rfl
@[simp] theorem GAct.apply_memBad (s : State) b v : GAct.apply s (.memBad b v) = { s with memBad := SMap.set false s.memBad b v } := rfl
@[simp] theorem GAct.apply_soft (s : State) l : GAct.apply s (.soft l) = { s with soft := l } := rfl
@[simp] theorem GAct.apply_fuse (s : State) p v : GAct.apply s (.fuse p v) = { s with fuse := SMap.set false s.fuse p v } := rfl
@[simp] theorem GAct.apply_owner (s : State) p c : GAct.apply s (.owner p c) = { s with owner := SMap.set 0 s.owner p c } := rfl
@[simp] theorem GAct.apply_handle (s : State) h v : GAct.apply s (.handle h v) = { s with handles := SMap.set {} s.handles h v } := rfl
@[simp] theorem GAct.apply_graphs (s : State) l : GAct.apply s (.graphs l) = { s with graphs := l } := rfl
@[simp] theorem GAct.apply_graph (s : State) g : GAct.apply s (.graph g) = { s with graphs := s.graphs.map fun x => if x.gid = g.gid then g else x } := rfl
@[simp] theorem GAct.apply_nextGid (s : State) n : GAct.apply s (.nextGid n) = { s with nextGid := n } := rfl
@[simp] theorem GAct.apply_nextCtx (s : State) n : GAct.apply s (.nextCtx n) = { s with nextCtx := n } := rfl
@[simp] theorem GAct.apply_ctxBusy (s : State) l : GAct.apply s (.ctxBusy l) = { s with ctxBusy := l } := rfl
@[simp] theorem GAct.apply_hbmNext (s : State) n : GAct.apply s (.hbmNext n) = { s with hbmNext := n } := rfl
@[simp] theorem GAct.apply_lpdNext (s : State) n : GAct.apply s (.lpdNext n) = { s with lpdNext := n } := rfl
@[simp] theorem GAct.apply_memOwner (s : State) l : GAct.apply s (.memOwner l) = { s with memOwner := l } := rfl
@[simp] theorem GAct.apply_nodePages (s : State) l : GAct.apply s (.nodePages l) = { s with nodePages := l } := rfl
@[simp] theorem GAct.apply_dieTlb (s : State) d l : GAct.apply s (.dieTlb d l) = { s with dieTlb := SMap.set [] s.dieTlb d l } := rfl
@[simp] theorem GAct.apply_walks (s : State) l : GAct.apply s (.walks l) = { s with walks := l } := rfl
@[simp] theorem GAct.apply_hbmUse (s : State) l : GAct.apply s (.hbmUse l) = { s with hbmUse := l } := rfl
@[simp] theorem GAct.apply_cluster (s : State) c v : GAct.apply s (.cluster c v) = { s with clusters := SMap.set {} s.clusters c v } := rfl
@[simp] theorem GAct.apply_thrClear (s : State) c v : GAct.apply s (.thrClear c v) = (
    let k := SMap.get {} s.clusters c
    let keep : BitVec 5 := if k.setAt = s.now then k.setBits else 0
    { s with clusters := SMap.set {} s.clusters c { k with thrrsn := k.thrrsn &&& (~~~v ||| keep) } }) := rfl
@[simp] theorem GAct.apply_thrSet (s : State) c v : GAct.apply s (.thrSet c v) = (
    let k := SMap.get {} s.clusters c
    let old : BitVec 5 := if k.setAt = s.now then k.setBits else 0
    { s with clusters := SMap.set {} s.clusters c { k with thrrsn := k.thrrsn ||| v, setBits := old ||| v, setAt := s.now } }) := rfl
@[simp] theorem GAct.apply_twCount (s : State) c f o d : GAct.apply s (.twCount c f o d) = { s with clusters := SMap.set {} s.clusters c ((SMap.get {} s.clusters c).addBand f o d) } := rfl
@[simp] theorem GAct.apply_powercap (s : State) n : GAct.apply s (.powercap n) = { s with powercap := n } := rfl
@[simp] theorem GAct.apply_mw (s : State) t b : GAct.apply s (.mw t b) = { s with mwTier := t, mwBase := b } := rfl
@[simp] theorem GAct.apply_timeOfs (s : State) v : GAct.apply s (.timeOfs v) = { s with timeOfs := v } := rfl
@[simp] theorem GAct.apply_fwStage (s : State) v : GAct.apply s (.fwStage v) = { s with fwStage := v } := rfl
@[simp] theorem GAct.apply_fw (s : State) st a g : GAct.apply s (.fw st a g) = { s with fwStatus := st, fwActive := a, fwGo := g } := rfl
@[simp] theorem GAct.apply_slot (s : State) n v : GAct.apply s (.slot n v) = { s with slots := SMap.set {} s.slots n v } := rfl
@[simp] theorem GAct.apply_update (s : State) u : GAct.apply s (.update u) = { s with update := u } := rfl
@[simp] theorem GAct.apply_dusk (s : State) b : GAct.apply s (.dusk b) = { s with dusk := b } := rfl
@[simp] theorem GAct.apply_heldWork (s : State) l : GAct.apply s (.heldWork l) = { s with heldWork := l } := rfl
@[simp] theorem GAct.apply_journal (s : State) d e : GAct.apply s (.journal d e) = s.journaled d e := rfl
@[simp] theorem GAct.apply_journalClear (s : State) : GAct.apply s (.journalClear) = { s with journal := [], jhead := [], jlost := [], jdone := [] } := rfl
@[simp] theorem GAct.apply_msi (s : State) v m : GAct.apply s (.msi v m) = { s with msi := SMap.set {} s.msi v m } := rfl
@[simp] theorem GAct.apply_port (s : State) p v : GAct.apply s (.port p v) = { s with ports := SMap.set {} s.ports p v } := rfl
@[simp] theorem GAct.apply_route (s : State) p v : GAct.apply s (.route p v) = { s with routes := SMap.set 0 s.routes p v } := rfl
@[simp] theorem GAct.apply_timePeer (s : State) n : GAct.apply s (.timePeer n) = { s with timePeer := n } := rfl
@[simp] theorem GAct.apply_meas (s : State) n v : GAct.apply s (.meas n v) = { s with meas := SMap.set 0 s.meas n v } := rfl
@[simp] theorem GAct.apply_report (s : State) l : GAct.apply s (.report l) = { s with report := l } := rfl
@[simp] theorem GAct.apply_hostRead (s : State) n b : GAct.apply s (.hostRead n b) = { s with hostRead := n, hostBad := b } := rfl
@[simp] theorem GAct.apply_vof (s : State) k v : GAct.apply s (.vof k v) = { s with vofs := SMap.set none s.vofs k v } := rfl
@[simp] theorem GAct.apply_dawnCold (s : State) b : GAct.apply s (.dawnCold b) = { s with dawnCold := b } := rfl
@[simp] theorem GAct.apply_kept (s : State) l n : GAct.apply s (.kept l n) = { s with kept := l, keptUntil := n } := rfl
@[simp] theorem GAct.apply_dawnAt (s : State) n : GAct.apply s (.dawnAt n) = { s with dawnAt := n } := rfl
@[simp] theorem GAct.apply_reserved (s : State) v : GAct.apply s (.reserved v) = { s with reserved := v } := rfl
@[simp] theorem GAct.apply_jdone (s : State) d n : GAct.apply s (.jdone d n) = { s with jdone := SMap.set 0 s.jdone d n } := rfl
@[simp] theorem GAct.apply_mwSize (s : State) n : GAct.apply s (.mwSize n) = { s with mwSize := n } := rfl
@[simp] theorem GAct.apply_dropCores (s : State) ctx n : GAct.apply s (.dropCores ctx n) = { s with cores := (List.range n).foldl (fun m v => SMap.erase (ctx * 2048 + v) m) s.cores } := rfl

/-! ## What an update of a core or of a region leaves alone -/

@[simp] theorem Act.core_now (s : State) (id : Nat) (a : CAct) : (Act.apply s (.core id a)).now = s.now := rfl
@[simp] theorem Act.core_dtAcc (s : State) (id : Nat) (a : CAct) : (Act.apply s (.core id a)).dtAcc = s.dtAcc := rfl
@[simp] theorem Act.core_slew (s : State) (id : Nat) (a : CAct) : (Act.apply s (.core id a)).slew = s.slew := rfl
@[simp] theorem Act.core_todo (s : State) (id : Nat) (a : CAct) : (Act.apply s (.core id a)).todo = s.todo := rfl
@[simp] theorem Act.core_inputs (s : State) (id : Nat) (a : CAct) : (Act.apply s (.core id a)).inputs = s.inputs := rfl
@[simp] theorem Act.core_agenda (s : State) (id : Nat) (a : CAct) : (Act.apply s (.core id a)).agenda = s.agenda := rfl
@[simp] theorem Act.core_freeCtr (s : State) (id : Nat) (a : CAct) : (Act.apply s (.core id a)).freeCtr = s.freeCtr := rfl
@[simp] theorem Act.core_cur (s : State) (id : Nat) (a : CAct) : (Act.apply s (.core id a)).cur = s.cur := rfl
@[simp] theorem Act.core_actor (s : State) (id : Nat) (a : CAct) : (Act.apply s (.core id a)).actor = s.actor := rfl
@[simp] theorem Act.core_word (s : State) (id : Nat) (a : CAct) : (Act.apply s (.core id a)).word = s.word := rfl
@[simp] theorem Act.core_booted (s : State) (id : Nat) (a : CAct) : (Act.apply s (.core id a)).booted = s.booted := rfl
@[simp] theorem Act.core_recovery (s : State) (id : Nat) (a : CAct) : (Act.apply s (.core id a)).recovery = s.recovery := rfl
@[simp] theorem Act.core_regions (s : State) (id : Nat) (a : CAct) : (Act.apply s (.core id a)).regions = s.regions := rfl
@[simp] theorem Act.core_mem (s : State) (id : Nat) (a : CAct) : (Act.apply s (.core id a)).mem = s.mem := rfl
@[simp] theorem Act.core_memBad (s : State) (id : Nat) (a : CAct) : (Act.apply s (.core id a)).memBad = s.memBad := rfl
@[simp] theorem Act.core_soft (s : State) (id : Nat) (a : CAct) : (Act.apply s (.core id a)).soft = s.soft := rfl
@[simp] theorem Act.core_fuse (s : State) (id : Nat) (a : CAct) : (Act.apply s (.core id a)).fuse = s.fuse := rfl
@[simp] theorem Act.core_owner (s : State) (id : Nat) (a : CAct) : (Act.apply s (.core id a)).owner = s.owner := rfl
@[simp] theorem Act.core_handles (s : State) (id : Nat) (a : CAct) : (Act.apply s (.core id a)).handles = s.handles := rfl
@[simp] theorem Act.core_graphs (s : State) (id : Nat) (a : CAct) : (Act.apply s (.core id a)).graphs = s.graphs := rfl
@[simp] theorem Act.core_nextGid (s : State) (id : Nat) (a : CAct) : (Act.apply s (.core id a)).nextGid = s.nextGid := rfl
@[simp] theorem Act.core_nextCtx (s : State) (id : Nat) (a : CAct) : (Act.apply s (.core id a)).nextCtx = s.nextCtx := rfl
@[simp] theorem Act.core_ctxBusy (s : State) (id : Nat) (a : CAct) : (Act.apply s (.core id a)).ctxBusy = s.ctxBusy := rfl
@[simp] theorem Act.core_hbmNext (s : State) (id : Nat) (a : CAct) : (Act.apply s (.core id a)).hbmNext = s.hbmNext := rfl
@[simp] theorem Act.core_lpdNext (s : State) (id : Nat) (a : CAct) : (Act.apply s (.core id a)).lpdNext = s.lpdNext := rfl
@[simp] theorem Act.core_memOwner (s : State) (id : Nat) (a : CAct) : (Act.apply s (.core id a)).memOwner = s.memOwner := rfl
@[simp] theorem Act.core_nodePages (s : State) (id : Nat) (a : CAct) : (Act.apply s (.core id a)).nodePages = s.nodePages := rfl
@[simp] theorem Act.core_dieTlb (s : State) (id : Nat) (a : CAct) : (Act.apply s (.core id a)).dieTlb = s.dieTlb := rfl
@[simp] theorem Act.core_walks (s : State) (id : Nat) (a : CAct) : (Act.apply s (.core id a)).walks = s.walks := rfl
@[simp] theorem Act.core_hbmUse (s : State) (id : Nat) (a : CAct) : (Act.apply s (.core id a)).hbmUse = s.hbmUse := rfl
@[simp] theorem Act.core_clusters (s : State) (id : Nat) (a : CAct) : (Act.apply s (.core id a)).clusters = s.clusters := rfl
@[simp] theorem Act.core_powercap (s : State) (id : Nat) (a : CAct) : (Act.apply s (.core id a)).powercap = s.powercap := rfl
@[simp] theorem Act.core_mwTier (s : State) (id : Nat) (a : CAct) : (Act.apply s (.core id a)).mwTier = s.mwTier := rfl
@[simp] theorem Act.core_mwBase (s : State) (id : Nat) (a : CAct) : (Act.apply s (.core id a)).mwBase = s.mwBase := rfl
@[simp] theorem Act.core_mwSize (s : State) (id : Nat) (a : CAct) : (Act.apply s (.core id a)).mwSize = s.mwSize := rfl
@[simp] theorem Act.core_modNo (s : State) (id : Nat) (a : CAct) : (Act.apply s (.core id a)).modNo = s.modNo := rfl
@[simp] theorem Act.core_timeOfs (s : State) (id : Nat) (a : CAct) : (Act.apply s (.core id a)).timeOfs = s.timeOfs := rfl
@[simp] theorem Act.core_fwStage (s : State) (id : Nat) (a : CAct) : (Act.apply s (.core id a)).fwStage = s.fwStage := rfl
@[simp] theorem Act.core_fwStatus (s : State) (id : Nat) (a : CAct) : (Act.apply s (.core id a)).fwStatus = s.fwStatus := rfl
@[simp] theorem Act.core_fwActive (s : State) (id : Nat) (a : CAct) : (Act.apply s (.core id a)).fwActive = s.fwActive := rfl
@[simp] theorem Act.core_fwGo (s : State) (id : Nat) (a : CAct) : (Act.apply s (.core id a)).fwGo = s.fwGo := rfl
@[simp] theorem Act.core_slots (s : State) (id : Nat) (a : CAct) : (Act.apply s (.core id a)).slots = s.slots := rfl
@[simp] theorem Act.core_update (s : State) (id : Nat) (a : CAct) : (Act.apply s (.core id a)).update = s.update := rfl
@[simp] theorem Act.core_dusk (s : State) (id : Nat) (a : CAct) : (Act.apply s (.core id a)).dusk = s.dusk := rfl
@[simp] theorem Act.core_heldWork (s : State) (id : Nat) (a : CAct) : (Act.apply s (.core id a)).heldWork = s.heldWork := rfl
@[simp] theorem Act.core_journal (s : State) (id : Nat) (a : CAct) : (Act.apply s (.core id a)).journal = s.journal := rfl
@[simp] theorem Act.core_jhead (s : State) (id : Nat) (a : CAct) : (Act.apply s (.core id a)).jhead = s.jhead := rfl
@[simp] theorem Act.core_jlost (s : State) (id : Nat) (a : CAct) : (Act.apply s (.core id a)).jlost = s.jlost := rfl
@[simp] theorem Act.core_msi (s : State) (id : Nat) (a : CAct) : (Act.apply s (.core id a)).msi = s.msi := rfl
@[simp] theorem Act.core_ports (s : State) (id : Nat) (a : CAct) : (Act.apply s (.core id a)).ports = s.ports := rfl
@[simp] theorem Act.core_routes (s : State) (id : Nat) (a : CAct) : (Act.apply s (.core id a)).routes = s.routes := rfl
@[simp] theorem Act.core_timePeer (s : State) (id : Nat) (a : CAct) : (Act.apply s (.core id a)).timePeer = s.timePeer := rfl
@[simp] theorem Act.core_meas (s : State) (id : Nat) (a : CAct) : (Act.apply s (.core id a)).meas = s.meas := rfl
@[simp] theorem Act.core_report (s : State) (id : Nat) (a : CAct) : (Act.apply s (.core id a)).report = s.report := rfl
@[simp] theorem Act.core_hostRead (s : State) (id : Nat) (a : CAct) : (Act.apply s (.core id a)).hostRead = s.hostRead := rfl
@[simp] theorem Act.core_hostBad (s : State) (id : Nat) (a : CAct) : (Act.apply s (.core id a)).hostBad = s.hostBad := rfl
@[simp] theorem Act.core_vofs (s : State) (id : Nat) (a : CAct) : (Act.apply s (.core id a)).vofs = s.vofs := rfl
@[simp] theorem Act.core_dawnCold (s : State) (id : Nat) (a : CAct) : (Act.apply s (.core id a)).dawnCold = s.dawnCold := rfl
@[simp] theorem Act.core_kept (s : State) (id : Nat) (a : CAct) : (Act.apply s (.core id a)).kept = s.kept := rfl
@[simp] theorem Act.core_keptUntil (s : State) (id : Nat) (a : CAct) : (Act.apply s (.core id a)).keptUntil = s.keptUntil := rfl
@[simp] theorem Act.core_dawnAt (s : State) (id : Nat) (a : CAct) : (Act.apply s (.core id a)).dawnAt = s.dawnAt := rfl
@[simp] theorem Act.core_reserved (s : State) (id : Nat) (a : CAct) : (Act.apply s (.core id a)).reserved = s.reserved := rfl
@[simp] theorem Act.core_jdone (s : State) (id : Nat) (a : CAct) : (Act.apply s (.core id a)).jdone = s.jdone := rfl
@[simp] theorem Act.restore_now (s : State) (id : Nat) (c : Core) : (Act.apply s (.restore id c)).now = s.now := rfl
@[simp] theorem Act.restore_dtAcc (s : State) (id : Nat) (c : Core) : (Act.apply s (.restore id c)).dtAcc = s.dtAcc := rfl
@[simp] theorem Act.restore_slew (s : State) (id : Nat) (c : Core) : (Act.apply s (.restore id c)).slew = s.slew := rfl
@[simp] theorem Act.restore_todo (s : State) (id : Nat) (c : Core) : (Act.apply s (.restore id c)).todo = s.todo := rfl
@[simp] theorem Act.restore_inputs (s : State) (id : Nat) (c : Core) : (Act.apply s (.restore id c)).inputs = s.inputs := rfl
@[simp] theorem Act.restore_agenda (s : State) (id : Nat) (c : Core) : (Act.apply s (.restore id c)).agenda = s.agenda := rfl
@[simp] theorem Act.restore_freeCtr (s : State) (id : Nat) (c : Core) : (Act.apply s (.restore id c)).freeCtr = s.freeCtr := rfl
@[simp] theorem Act.restore_cur (s : State) (id : Nat) (c : Core) : (Act.apply s (.restore id c)).cur = s.cur := rfl
@[simp] theorem Act.restore_actor (s : State) (id : Nat) (c : Core) : (Act.apply s (.restore id c)).actor = s.actor := rfl
@[simp] theorem Act.restore_word (s : State) (id : Nat) (c : Core) : (Act.apply s (.restore id c)).word = s.word := rfl
@[simp] theorem Act.restore_booted (s : State) (id : Nat) (c : Core) : (Act.apply s (.restore id c)).booted = s.booted := rfl
@[simp] theorem Act.restore_recovery (s : State) (id : Nat) (c : Core) : (Act.apply s (.restore id c)).recovery = s.recovery := rfl
@[simp] theorem Act.restore_regions (s : State) (id : Nat) (c : Core) : (Act.apply s (.restore id c)).regions = s.regions := rfl
@[simp] theorem Act.restore_mem (s : State) (id : Nat) (c : Core) : (Act.apply s (.restore id c)).mem = s.mem := rfl
@[simp] theorem Act.restore_memBad (s : State) (id : Nat) (c : Core) : (Act.apply s (.restore id c)).memBad = s.memBad := rfl
@[simp] theorem Act.restore_soft (s : State) (id : Nat) (c : Core) : (Act.apply s (.restore id c)).soft = s.soft := rfl
@[simp] theorem Act.restore_fuse (s : State) (id : Nat) (c : Core) : (Act.apply s (.restore id c)).fuse = s.fuse := rfl
@[simp] theorem Act.restore_owner (s : State) (id : Nat) (c : Core) : (Act.apply s (.restore id c)).owner = s.owner := rfl
@[simp] theorem Act.restore_handles (s : State) (id : Nat) (c : Core) : (Act.apply s (.restore id c)).handles = s.handles := rfl
@[simp] theorem Act.restore_graphs (s : State) (id : Nat) (c : Core) : (Act.apply s (.restore id c)).graphs = s.graphs := rfl
@[simp] theorem Act.restore_nextGid (s : State) (id : Nat) (c : Core) : (Act.apply s (.restore id c)).nextGid = s.nextGid := rfl
@[simp] theorem Act.restore_nextCtx (s : State) (id : Nat) (c : Core) : (Act.apply s (.restore id c)).nextCtx = s.nextCtx := rfl
@[simp] theorem Act.restore_ctxBusy (s : State) (id : Nat) (c : Core) : (Act.apply s (.restore id c)).ctxBusy = s.ctxBusy := rfl
@[simp] theorem Act.restore_hbmNext (s : State) (id : Nat) (c : Core) : (Act.apply s (.restore id c)).hbmNext = s.hbmNext := rfl
@[simp] theorem Act.restore_lpdNext (s : State) (id : Nat) (c : Core) : (Act.apply s (.restore id c)).lpdNext = s.lpdNext := rfl
@[simp] theorem Act.restore_memOwner (s : State) (id : Nat) (c : Core) : (Act.apply s (.restore id c)).memOwner = s.memOwner := rfl
@[simp] theorem Act.restore_nodePages (s : State) (id : Nat) (c : Core) : (Act.apply s (.restore id c)).nodePages = s.nodePages := rfl
@[simp] theorem Act.restore_dieTlb (s : State) (id : Nat) (c : Core) : (Act.apply s (.restore id c)).dieTlb = s.dieTlb := rfl
@[simp] theorem Act.restore_walks (s : State) (id : Nat) (c : Core) : (Act.apply s (.restore id c)).walks = s.walks := rfl
@[simp] theorem Act.restore_hbmUse (s : State) (id : Nat) (c : Core) : (Act.apply s (.restore id c)).hbmUse = s.hbmUse := rfl
@[simp] theorem Act.restore_clusters (s : State) (id : Nat) (c : Core) : (Act.apply s (.restore id c)).clusters = s.clusters := rfl
@[simp] theorem Act.restore_powercap (s : State) (id : Nat) (c : Core) : (Act.apply s (.restore id c)).powercap = s.powercap := rfl
@[simp] theorem Act.restore_mwTier (s : State) (id : Nat) (c : Core) : (Act.apply s (.restore id c)).mwTier = s.mwTier := rfl
@[simp] theorem Act.restore_mwBase (s : State) (id : Nat) (c : Core) : (Act.apply s (.restore id c)).mwBase = s.mwBase := rfl
@[simp] theorem Act.restore_mwSize (s : State) (id : Nat) (c : Core) : (Act.apply s (.restore id c)).mwSize = s.mwSize := rfl
@[simp] theorem Act.restore_modNo (s : State) (id : Nat) (c : Core) : (Act.apply s (.restore id c)).modNo = s.modNo := rfl
@[simp] theorem Act.restore_timeOfs (s : State) (id : Nat) (c : Core) : (Act.apply s (.restore id c)).timeOfs = s.timeOfs := rfl
@[simp] theorem Act.restore_fwStage (s : State) (id : Nat) (c : Core) : (Act.apply s (.restore id c)).fwStage = s.fwStage := rfl
@[simp] theorem Act.restore_fwStatus (s : State) (id : Nat) (c : Core) : (Act.apply s (.restore id c)).fwStatus = s.fwStatus := rfl
@[simp] theorem Act.restore_fwActive (s : State) (id : Nat) (c : Core) : (Act.apply s (.restore id c)).fwActive = s.fwActive := rfl
@[simp] theorem Act.restore_fwGo (s : State) (id : Nat) (c : Core) : (Act.apply s (.restore id c)).fwGo = s.fwGo := rfl
@[simp] theorem Act.restore_slots (s : State) (id : Nat) (c : Core) : (Act.apply s (.restore id c)).slots = s.slots := rfl
@[simp] theorem Act.restore_update (s : State) (id : Nat) (c : Core) : (Act.apply s (.restore id c)).update = s.update := rfl
@[simp] theorem Act.restore_dusk (s : State) (id : Nat) (c : Core) : (Act.apply s (.restore id c)).dusk = s.dusk := rfl
@[simp] theorem Act.restore_heldWork (s : State) (id : Nat) (c : Core) : (Act.apply s (.restore id c)).heldWork = s.heldWork := rfl
@[simp] theorem Act.restore_journal (s : State) (id : Nat) (c : Core) : (Act.apply s (.restore id c)).journal = s.journal := rfl
@[simp] theorem Act.restore_jhead (s : State) (id : Nat) (c : Core) : (Act.apply s (.restore id c)).jhead = s.jhead := rfl
@[simp] theorem Act.restore_jlost (s : State) (id : Nat) (c : Core) : (Act.apply s (.restore id c)).jlost = s.jlost := rfl
@[simp] theorem Act.restore_msi (s : State) (id : Nat) (c : Core) : (Act.apply s (.restore id c)).msi = s.msi := rfl
@[simp] theorem Act.restore_ports (s : State) (id : Nat) (c : Core) : (Act.apply s (.restore id c)).ports = s.ports := rfl
@[simp] theorem Act.restore_routes (s : State) (id : Nat) (c : Core) : (Act.apply s (.restore id c)).routes = s.routes := rfl
@[simp] theorem Act.restore_timePeer (s : State) (id : Nat) (c : Core) : (Act.apply s (.restore id c)).timePeer = s.timePeer := rfl
@[simp] theorem Act.restore_meas (s : State) (id : Nat) (c : Core) : (Act.apply s (.restore id c)).meas = s.meas := rfl
@[simp] theorem Act.restore_report (s : State) (id : Nat) (c : Core) : (Act.apply s (.restore id c)).report = s.report := rfl
@[simp] theorem Act.restore_hostRead (s : State) (id : Nat) (c : Core) : (Act.apply s (.restore id c)).hostRead = s.hostRead := rfl
@[simp] theorem Act.restore_hostBad (s : State) (id : Nat) (c : Core) : (Act.apply s (.restore id c)).hostBad = s.hostBad := rfl
@[simp] theorem Act.restore_vofs (s : State) (id : Nat) (c : Core) : (Act.apply s (.restore id c)).vofs = s.vofs := rfl
@[simp] theorem Act.restore_dawnCold (s : State) (id : Nat) (c : Core) : (Act.apply s (.restore id c)).dawnCold = s.dawnCold := rfl
@[simp] theorem Act.restore_kept (s : State) (id : Nat) (c : Core) : (Act.apply s (.restore id c)).kept = s.kept := rfl
@[simp] theorem Act.restore_keptUntil (s : State) (id : Nat) (c : Core) : (Act.apply s (.restore id c)).keptUntil = s.keptUntil := rfl
@[simp] theorem Act.restore_dawnAt (s : State) (id : Nat) (c : Core) : (Act.apply s (.restore id c)).dawnAt = s.dawnAt := rfl
@[simp] theorem Act.restore_reserved (s : State) (id : Nat) (c : Core) : (Act.apply s (.restore id c)).reserved = s.reserved := rfl
@[simp] theorem Act.restore_jdone (s : State) (id : Nat) (c : Core) : (Act.apply s (.restore id c)).jdone = s.jdone := rfl
@[simp] theorem Act.reg_now (s : State) (ctx : Nat) (a : RAct) : (Act.apply s (.reg ctx a)).now = s.now := by cases a <;> first | rfl | (simp only [Act.apply]; split <;> rfl)
@[simp] theorem Act.reg_dtAcc (s : State) (ctx : Nat) (a : RAct) : (Act.apply s (.reg ctx a)).dtAcc = s.dtAcc := by cases a <;> first | rfl | (simp only [Act.apply]; split <;> rfl)
@[simp] theorem Act.reg_slew (s : State) (ctx : Nat) (a : RAct) : (Act.apply s (.reg ctx a)).slew = s.slew := by cases a <;> first | rfl | (simp only [Act.apply]; split <;> rfl)
@[simp] theorem Act.reg_todo (s : State) (ctx : Nat) (a : RAct) : (Act.apply s (.reg ctx a)).todo = s.todo := by cases a <;> first | rfl | (simp only [Act.apply]; split <;> rfl)
@[simp] theorem Act.reg_inputs (s : State) (ctx : Nat) (a : RAct) : (Act.apply s (.reg ctx a)).inputs = s.inputs := by cases a <;> first | rfl | (simp only [Act.apply]; split <;> rfl)
@[simp] theorem Act.reg_agenda (s : State) (ctx : Nat) (a : RAct) : (Act.apply s (.reg ctx a)).agenda = s.agenda := by cases a <;> first | rfl | (simp only [Act.apply]; split <;> rfl)
@[simp] theorem Act.reg_freeCtr (s : State) (ctx : Nat) (a : RAct) : (Act.apply s (.reg ctx a)).freeCtr = s.freeCtr := by cases a <;> first | rfl | (simp only [Act.apply]; split <;> rfl)
@[simp] theorem Act.reg_cur (s : State) (ctx : Nat) (a : RAct) : (Act.apply s (.reg ctx a)).cur = s.cur := by cases a <;> first | rfl | (simp only [Act.apply]; split <;> rfl)
@[simp] theorem Act.reg_actor (s : State) (ctx : Nat) (a : RAct) : (Act.apply s (.reg ctx a)).actor = s.actor := by cases a <;> first | rfl | (simp only [Act.apply]; split <;> rfl)
@[simp] theorem Act.reg_word (s : State) (ctx : Nat) (a : RAct) : (Act.apply s (.reg ctx a)).word = s.word := by cases a <;> first | rfl | (simp only [Act.apply]; split <;> rfl)
@[simp] theorem Act.reg_booted (s : State) (ctx : Nat) (a : RAct) : (Act.apply s (.reg ctx a)).booted = s.booted := by cases a <;> first | rfl | (simp only [Act.apply]; split <;> rfl)
@[simp] theorem Act.reg_recovery (s : State) (ctx : Nat) (a : RAct) : (Act.apply s (.reg ctx a)).recovery = s.recovery := by cases a <;> first | rfl | (simp only [Act.apply]; split <;> rfl)
@[simp] theorem Act.reg_cores (s : State) (ctx : Nat) (a : RAct) : (Act.apply s (.reg ctx a)).cores = s.cores := by cases a <;> first | rfl | (simp only [Act.apply]; split <;> rfl)
@[simp] theorem Act.reg_mem (s : State) (ctx : Nat) (a : RAct) : (Act.apply s (.reg ctx a)).mem = s.mem := by cases a <;> first | rfl | (simp only [Act.apply]; split <;> rfl)
@[simp] theorem Act.reg_memBad (s : State) (ctx : Nat) (a : RAct) : (Act.apply s (.reg ctx a)).memBad = s.memBad := by cases a <;> first | rfl | (simp only [Act.apply]; split <;> rfl)
@[simp] theorem Act.reg_soft (s : State) (ctx : Nat) (a : RAct) : (Act.apply s (.reg ctx a)).soft = s.soft := by cases a <;> first | rfl | (simp only [Act.apply]; split <;> rfl)
@[simp] theorem Act.reg_fuse (s : State) (ctx : Nat) (a : RAct) : (Act.apply s (.reg ctx a)).fuse = s.fuse := by cases a <;> first | rfl | (simp only [Act.apply]; split <;> rfl)
@[simp] theorem Act.reg_owner (s : State) (ctx : Nat) (a : RAct) : (Act.apply s (.reg ctx a)).owner = s.owner := by cases a <;> first | rfl | (simp only [Act.apply]; split <;> rfl)
@[simp] theorem Act.reg_handles (s : State) (ctx : Nat) (a : RAct) : (Act.apply s (.reg ctx a)).handles = s.handles := by cases a <;> first | rfl | (simp only [Act.apply]; split <;> rfl)
@[simp] theorem Act.reg_graphs (s : State) (ctx : Nat) (a : RAct) : (Act.apply s (.reg ctx a)).graphs = s.graphs := by cases a <;> first | rfl | (simp only [Act.apply]; split <;> rfl)
@[simp] theorem Act.reg_nextGid (s : State) (ctx : Nat) (a : RAct) : (Act.apply s (.reg ctx a)).nextGid = s.nextGid := by cases a <;> first | rfl | (simp only [Act.apply]; split <;> rfl)
@[simp] theorem Act.reg_nextCtx (s : State) (ctx : Nat) (a : RAct) : (Act.apply s (.reg ctx a)).nextCtx = s.nextCtx := by cases a <;> first | rfl | (simp only [Act.apply]; split <;> rfl)
@[simp] theorem Act.reg_ctxBusy (s : State) (ctx : Nat) (a : RAct) : (Act.apply s (.reg ctx a)).ctxBusy = s.ctxBusy := by cases a <;> first | rfl | (simp only [Act.apply]; split <;> rfl)
@[simp] theorem Act.reg_hbmNext (s : State) (ctx : Nat) (a : RAct) : (Act.apply s (.reg ctx a)).hbmNext = s.hbmNext := by cases a <;> first | rfl | (simp only [Act.apply]; split <;> rfl)
@[simp] theorem Act.reg_lpdNext (s : State) (ctx : Nat) (a : RAct) : (Act.apply s (.reg ctx a)).lpdNext = s.lpdNext := by cases a <;> first | rfl | (simp only [Act.apply]; split <;> rfl)
@[simp] theorem Act.reg_memOwner (s : State) (ctx : Nat) (a : RAct) : (Act.apply s (.reg ctx a)).memOwner = s.memOwner := by cases a <;> first | rfl | (simp only [Act.apply]; split <;> rfl)
@[simp] theorem Act.reg_nodePages (s : State) (ctx : Nat) (a : RAct) : (Act.apply s (.reg ctx a)).nodePages = s.nodePages := by cases a <;> first | rfl | (simp only [Act.apply]; split <;> rfl)
@[simp] theorem Act.reg_dieTlb (s : State) (ctx : Nat) (a : RAct) : (Act.apply s (.reg ctx a)).dieTlb = s.dieTlb := by cases a <;> first | rfl | (simp only [Act.apply]; split <;> rfl)
@[simp] theorem Act.reg_walks (s : State) (ctx : Nat) (a : RAct) : (Act.apply s (.reg ctx a)).walks = s.walks := by cases a <;> first | rfl | (simp only [Act.apply]; split <;> rfl)
@[simp] theorem Act.reg_hbmUse (s : State) (ctx : Nat) (a : RAct) : (Act.apply s (.reg ctx a)).hbmUse = s.hbmUse := by cases a <;> first | rfl | (simp only [Act.apply]; split <;> rfl)
@[simp] theorem Act.reg_clusters (s : State) (ctx : Nat) (a : RAct) : (Act.apply s (.reg ctx a)).clusters = s.clusters := by cases a <;> first | rfl | (simp only [Act.apply]; split <;> rfl)
@[simp] theorem Act.reg_powercap (s : State) (ctx : Nat) (a : RAct) : (Act.apply s (.reg ctx a)).powercap = s.powercap := by cases a <;> first | rfl | (simp only [Act.apply]; split <;> rfl)
@[simp] theorem Act.reg_mwTier (s : State) (ctx : Nat) (a : RAct) : (Act.apply s (.reg ctx a)).mwTier = s.mwTier := by cases a <;> first | rfl | (simp only [Act.apply]; split <;> rfl)
@[simp] theorem Act.reg_mwBase (s : State) (ctx : Nat) (a : RAct) : (Act.apply s (.reg ctx a)).mwBase = s.mwBase := by cases a <;> first | rfl | (simp only [Act.apply]; split <;> rfl)
@[simp] theorem Act.reg_mwSize (s : State) (ctx : Nat) (a : RAct) : (Act.apply s (.reg ctx a)).mwSize = s.mwSize := by cases a <;> first | rfl | (simp only [Act.apply]; split <;> rfl)
@[simp] theorem Act.reg_modNo (s : State) (ctx : Nat) (a : RAct) : (Act.apply s (.reg ctx a)).modNo = s.modNo := by cases a <;> first | rfl | (simp only [Act.apply]; split <;> rfl)
@[simp] theorem Act.reg_timeOfs (s : State) (ctx : Nat) (a : RAct) : (Act.apply s (.reg ctx a)).timeOfs = s.timeOfs := by cases a <;> first | rfl | (simp only [Act.apply]; split <;> rfl)
@[simp] theorem Act.reg_fwStage (s : State) (ctx : Nat) (a : RAct) : (Act.apply s (.reg ctx a)).fwStage = s.fwStage := by cases a <;> first | rfl | (simp only [Act.apply]; split <;> rfl)
@[simp] theorem Act.reg_fwStatus (s : State) (ctx : Nat) (a : RAct) : (Act.apply s (.reg ctx a)).fwStatus = s.fwStatus := by cases a <;> first | rfl | (simp only [Act.apply]; split <;> rfl)
@[simp] theorem Act.reg_fwActive (s : State) (ctx : Nat) (a : RAct) : (Act.apply s (.reg ctx a)).fwActive = s.fwActive := by cases a <;> first | rfl | (simp only [Act.apply]; split <;> rfl)
@[simp] theorem Act.reg_fwGo (s : State) (ctx : Nat) (a : RAct) : (Act.apply s (.reg ctx a)).fwGo = s.fwGo := by cases a <;> first | rfl | (simp only [Act.apply]; split <;> rfl)
@[simp] theorem Act.reg_slots (s : State) (ctx : Nat) (a : RAct) : (Act.apply s (.reg ctx a)).slots = s.slots := by cases a <;> first | rfl | (simp only [Act.apply]; split <;> rfl)
@[simp] theorem Act.reg_update (s : State) (ctx : Nat) (a : RAct) : (Act.apply s (.reg ctx a)).update = s.update := by cases a <;> first | rfl | (simp only [Act.apply]; split <;> rfl)
@[simp] theorem Act.reg_dusk (s : State) (ctx : Nat) (a : RAct) : (Act.apply s (.reg ctx a)).dusk = s.dusk := by cases a <;> first | rfl | (simp only [Act.apply]; split <;> rfl)
@[simp] theorem Act.reg_heldWork (s : State) (ctx : Nat) (a : RAct) : (Act.apply s (.reg ctx a)).heldWork = s.heldWork := by cases a <;> first | rfl | (simp only [Act.apply]; split <;> rfl)
@[simp] theorem Act.reg_msi (s : State) (ctx : Nat) (a : RAct) : (Act.apply s (.reg ctx a)).msi = s.msi := by cases a <;> first | rfl | (simp only [Act.apply]; split <;> rfl)
@[simp] theorem Act.reg_ports (s : State) (ctx : Nat) (a : RAct) : (Act.apply s (.reg ctx a)).ports = s.ports := by cases a <;> first | rfl | (simp only [Act.apply]; split <;> rfl)
@[simp] theorem Act.reg_routes (s : State) (ctx : Nat) (a : RAct) : (Act.apply s (.reg ctx a)).routes = s.routes := by cases a <;> first | rfl | (simp only [Act.apply]; split <;> rfl)
@[simp] theorem Act.reg_timePeer (s : State) (ctx : Nat) (a : RAct) : (Act.apply s (.reg ctx a)).timePeer = s.timePeer := by cases a <;> first | rfl | (simp only [Act.apply]; split <;> rfl)
@[simp] theorem Act.reg_meas (s : State) (ctx : Nat) (a : RAct) : (Act.apply s (.reg ctx a)).meas = s.meas := by cases a <;> first | rfl | (simp only [Act.apply]; split <;> rfl)
@[simp] theorem Act.reg_report (s : State) (ctx : Nat) (a : RAct) : (Act.apply s (.reg ctx a)).report = s.report := by cases a <;> first | rfl | (simp only [Act.apply]; split <;> rfl)
@[simp] theorem Act.reg_hostRead (s : State) (ctx : Nat) (a : RAct) : (Act.apply s (.reg ctx a)).hostRead = s.hostRead := by cases a <;> first | rfl | (simp only [Act.apply]; split <;> rfl)
@[simp] theorem Act.reg_hostBad (s : State) (ctx : Nat) (a : RAct) : (Act.apply s (.reg ctx a)).hostBad = s.hostBad := by cases a <;> first | rfl | (simp only [Act.apply]; split <;> rfl)
@[simp] theorem Act.reg_vofs (s : State) (ctx : Nat) (a : RAct) : (Act.apply s (.reg ctx a)).vofs = s.vofs := by cases a <;> first | rfl | (simp only [Act.apply]; split <;> rfl)
@[simp] theorem Act.reg_dawnCold (s : State) (ctx : Nat) (a : RAct) : (Act.apply s (.reg ctx a)).dawnCold = s.dawnCold := by cases a <;> first | rfl | (simp only [Act.apply]; split <;> rfl)
@[simp] theorem Act.reg_kept (s : State) (ctx : Nat) (a : RAct) : (Act.apply s (.reg ctx a)).kept = s.kept := by cases a <;> first | rfl | (simp only [Act.apply]; split <;> rfl)
@[simp] theorem Act.reg_keptUntil (s : State) (ctx : Nat) (a : RAct) : (Act.apply s (.reg ctx a)).keptUntil = s.keptUntil := by cases a <;> first | rfl | (simp only [Act.apply]; split <;> rfl)
@[simp] theorem Act.reg_dawnAt (s : State) (ctx : Nat) (a : RAct) : (Act.apply s (.reg ctx a)).dawnAt = s.dawnAt := by cases a <;> first | rfl | (simp only [Act.apply]; split <;> rfl)
@[simp] theorem Act.reg_reserved (s : State) (ctx : Nat) (a : RAct) : (Act.apply s (.reg ctx a)).reserved = s.reserved := by cases a <;> first | rfl | (simp only [Act.apply]; split <;> rfl)
@[simp] theorem Act.reg_jdone (s : State) (ctx : Nat) (a : RAct) : (Act.apply s (.reg ctx a)).jdone = s.jdone := by cases a <;> first | rfl | (simp only [Act.apply]; split <;> rfl)

/-! ## Reads of cores and regions after updates -/

@[simp] theorem Act.pkg_apply (s : State) (a : GAct) : Act.apply s (.pkg a) = GAct.apply s a := rfl
/-- A core after an update of a core. -/
theorem Act.core_core (s : State) (id j : Nat) (a : CAct) :
    (Act.apply s (.core id a)).core j = if j = id then CAct.apply (s.core id) a else s.core j := by
  show SMap.get {} (SMap.set {} s.cores id _) j = _; rw [SMap.get_set]; rfl
@[simp] theorem Act.core_core_same (s : State) (id : Nat) (a : CAct) : (Act.apply s (.core id a)).core id = CAct.apply (s.core id) a := by
  rw [Act.core_core, if_pos rfl]
theorem Act.core_core_other (s : State) {id j : Nat} (a : CAct) (h : j ≠ id) : (Act.apply s (.core id a)).core j = s.core j := by
  rw [Act.core_core, if_neg h]
theorem Act.restore_core (s : State) (id j : Nat) (c : Core) :
    (Act.apply s (.restore id c)).core j = if j = id then c.canon else s.core j := by
  show SMap.get {} (SMap.set {} s.cores id _) j = _; rw [SMap.get_set]; rfl
@[simp] theorem Act.core_region (s : State) (id j : Nat) (a : CAct) : (Act.apply s (.core id a)).region j = s.region j := rfl
@[simp] theorem Act.reg_core (s : State) (ctx j : Nat) (a : RAct) : (Act.apply s (.reg ctx a)).core j = s.core j := by
  unfold State.core; rw [Act.reg_cores]
/-- A region after an update of a region. -/
theorem Act.reg_region (s : State) (ctx j : Nat) (a : RAct) :
    (Act.apply s (.reg ctx a)).region j = if j = ctx then RAct.apply s (s.region ctx) a else s.region j := by
  have h : (Act.apply s (.reg ctx a)).regions = SMap.set {} s.regions ctx (RAct.apply s (s.region ctx) a) := by
    cases a <;> first | rfl | (simp only [Act.apply]; split <;> rfl)
  unfold State.region; rw [h, SMap.get_set]; rfl
@[simp] theorem Act.reg_region_same (s : State) (ctx : Nat) (a : RAct) :
    (Act.apply s (.reg ctx a)).region ctx = RAct.apply s (s.region ctx) a := by rw [Act.reg_region, if_pos rfl]
theorem Act.reg_region_other (s : State) {ctx j : Nat} (a : RAct) (h : j ≠ ctx) : (Act.apply s (.reg ctx a)).region j = s.region j := by
  rw [Act.reg_region, if_neg h]

/-! ## Lists of updates -/

@[simp] theorem State.applyAll_nil (s : State) : s.applyAll [] = s := rfl
@[simp] theorem State.applyAll_cons (s : State) (a : Act) (l : List Act) : s.applyAll (a :: l) = (Act.apply s a).applyAll l := rfl
theorem State.applyAll_append (s : State) (l m : List Act) : s.applyAll (l ++ m) = (s.applyAll l).applyAll m := by
  induction l generalizing s with
  | nil => rfl
  | cons a l ih => exact ih _

end Sys2Proof.Machine
end

