-- ==== Sys2Proof/Laws/Events.lean ====
section
/-! SUPPORT. What an event does to cores and regions, said once: a list of updates of cores, and one list for each core of a region. -/

namespace Sys2Proof.Machine

/-- A write under one default leaves every other key alone, read under another default. -/
theorem SMap.get_set_apart {α : Type} [DecidableEq α] (d e v : α) {k j : Nat} (h : j ≠ k) (m : SMap α) :
    SMap.get e (SMap.set d m k v) j = SMap.get e m j := by
  unfold SMap.set
  split
  · exact SMap.get_erase_other e h m
  · exact SMap.get_insert_other e v h m
/-- A CSR reads what was written to it, and no other CSR changes (R213). -/
theorem Core.csr_same (c : Core) (n : Nat) (v : DWord) : (CAct.apply c (.csr n v)).csr n = v := by
  simp only [CAct.apply_csr, Core.csr, SMap.get_set_same]
theorem Core.csr_other (c : Core) {n m : Nat} (v : DWord) (h : m ≠ n) : (CAct.apply c (.csr n v)).csr m = c.csr m := by
  simp only [CAct.apply_csr, Core.csr]; rw [SMap.get_set_apart _ _ _ h]

/-- An update of a core. -/
def Act.isCore : Act → Bool
  | .core _ _ => true
  | _ => false
/-- The updates of one core in a list. -/
def updatesOf (id : Nat) : List Act → List CAct
  | [] => []
  | .core j a :: l => if j = id then a :: updatesOf id l else updatesOf id l
  | _ :: l => updatesOf id l

theorem updatesOf_append (id : Nat) (l m : List Act) : updatesOf id (l ++ m) = updatesOf id l ++ updatesOf id m := by
  induction l with
  | nil => rfl
  | cons a l ih =>
    cases a with
    | core j a => simp only [List.cons_append, updatesOf, ih]; split <;> rfl
    | _ => exact ih
theorem updatesOf_same (id : Nat) (l : List CAct) : updatesOf id (l.map (.core id)) = l := by
  induction l with
  | nil => rfl
  | cons a l ih => simp only [List.map_cons, updatesOf, ih, if_true]
theorem updatesOf_other {id j : Nat} (h : j ≠ id) (l : List CAct) : updatesOf id (l.map (.core j)) = [] := by
  induction l with
  | nil => rfl
  | cons a l ih => simp only [List.map_cons, updatesOf, ih, h, if_false]

/-- Updates of cores change nothing but cores, each core by its own. -/
theorem applyAll_cores (l : List Act) : ∀ s : State, (l.all Act.isCore) = true →
    s.applyAll l = { s with cores := (s.applyAll l).cores } ∧
    ∀ id, (s.applyAll l).core id = (updatesOf id l).foldl CAct.apply (s.core id) := by
  induction l with
  | nil => intro s _; exact ⟨rfl, fun _ => rfl⟩
  | cons a l ih =>
    intro s h
    cases a with
    | core j a =>
      obtain ⟨h1, h2⟩ := ih (Act.apply s (.core j a)) h
      rw [State.applyAll_cons]
      refine ⟨h1.trans rfl, fun id => ?_⟩
      rw [h2 id]
      by_cases hj : j = id
      · subst hj; rw [Act.core_core_same]; simp only [updatesOf, if_true, List.foldl]
      · rw [Act.core_core_other s a (Ne.symm hj)]; simp only [updatesOf, hj, if_false]
    | _ => exact absurd h Bool.false_ne_true

/-- One list of updates for each core of a list without repeats. -/
theorem updatesOf_each (f : Nat → List CAct) (id : Nat) : ∀ ids : List Nat, ids.Nodup →
    updatesOf id (ids.flatMap fun j => (f j).map (.core j)) = if id ∈ ids then f id else [] := by
  intro ids
  induction ids with
  | nil => intro _; rfl
  | cons j l ih =>
    intro h
    rw [List.nodup_cons] at h
    rw [List.flatMap_cons, updatesOf_append, ih h.2]
    by_cases hj : j = id
    · subst hj; rw [updatesOf_same, if_neg h.1]; simp
    · rw [updatesOf_other hj]; simp [Ne.symm hj]
theorem each_isCore (f : Nat → List CAct) (ids : List Nat) : (ids.flatMap fun j => (f j).map (Act.core j)).all Act.isCore = true := by
  induction ids with
  | nil => rfl
  | cons j l ih =>
    rw [List.flatMap_cons, List.all_append, ih]
    simp [Act.isCore]
theorem coreId_inj {ctx v w : Nat} (h : coreId ctx v = coreId ctx w) : v = w := Nat.add_left_cancel h
theorem Region.ids_nodup (r : Region) : r.ids.Nodup := List.Nodup.map (fun _ _ h => coreId_inj h) List.nodup_range
theorem State.live_nodup (s : State) (r : Region) : (s.live r).Nodup := r.ids_nodup.filter _

/-- AN EVENT OF A REGION that changes the region, and then each of its cores by a list of its own. -/
theorem applyAll_region {s : State} {ctx : Nat} {r : Region} {a : RAct} {ids : List Nat} (f : Nat → List CAct)
    (ha : Act.apply s (.reg ctx a) = { s with regions := SMap.set {} s.regions ctx r }) (hn : ids.Nodup) :
    let t := s.applyAll (.reg ctx a :: ids.flatMap fun j => (f j).map (.core j))
    t = { s with cores := t.cores, regions := SMap.set {} s.regions ctx r } ∧ t.region ctx = r ∧
    (∀ c, c ≠ ctx → t.region c = s.region c) ∧
    (∀ id, t.core id = if id ∈ ids then (f id).foldl CAct.apply (s.core id) else s.core id) := by
  intro t
  obtain ⟨h1, h2⟩ := applyAll_cores (ids.flatMap fun j => (f j).map (.core j)) (Act.apply s (.reg ctx a)) (each_isCore f ids)
  have ht : t = (Act.apply s (.reg ctx a)).applyAll (ids.flatMap fun j => (f j).map (.core j)) := rfl
  rw [← ht] at h1 h2
  have hr : t.regions = SMap.set {} s.regions ctx r := by rw [h1, ha]
  refine ⟨?_, ?_, fun c hc => ?_, fun id => ?_⟩
  · rw [ha] at h1; exact h1
  · unfold State.region; rw [hr, SMap.get_set_same]
  · unfold State.region; rw [hr, SMap.get_set_other _ _ hc]
  · rw [h2 id, updatesOf_each f id ids hn, Act.reg_core]
    split <;> rfl

end Sys2Proof.Machine
end

