-- ==== Sys2Proof/Laws/Inv.lean ====
section
/-! SUPPORT. The canonical form of memories, scratchpads, scalar files and of the tables of cores and regions is kept by every
primitive update. -/

namespace Sys2Proof.Machine

/-- Core.wf as three facts. -/
theorem Core.wf_iff (c : Core) : Core.wf c = true ↔ Memory.wf c.spad = true ∧ SMap.wf {} c.regs = true ∧ ∀ p ∈ c.regs, p.1 ≠ 0 := by
  simp [Core.wf, and_assoc]

theorem Core.wf_of_eq {c c' : Core} (h : Core.wf c = true) (hs : c'.spad = c.spad) (hr : c'.regs = c.regs) : Core.wf c' = true := by
  rw [Core.wf_iff] at *; rw [hs, hr]; exact h

@[simp] theorem Core.setEng_spad (c : Core) (e : Nat) (g : Engine) : (c.setEng e g).spad = c.spad := by
  unfold Core.setEng; split <;> [rfl; (split <;> rfl)]
@[simp] theorem Core.setEng_regs (c : Core) (e : Nat) (g : Engine) : (c.setEng e g).regs = c.regs := by
  unfold Core.setEng; split <;> [rfl; (split <;> rfl)]
@[simp] theorem Core.setInbox_spad (c : Core) (d : Nat) (l : List DWord) : (c.setInbox d l).spad = c.spad := by
  unfold Core.setInbox; split <;> [rfl; (split <;> [rfl; (split <;> rfl)])]
@[simp] theorem Core.setInbox_regs (c : Core) (d : Nat) (l : List DWord) : (c.setInbox d l).regs = c.regs := by
  unfold Core.setInbox; split <;> [rfl; (split <;> [rfl; (split <;> rfl)])]

/-- The core of a launch is well formed. -/
theorem Core.wf_default : Core.wf {} = true := rfl

/-- Every update of a core keeps its form. -/
theorem CAct.apply_wf {c : Core} (a : CAct) (h : Core.wf c = true) : Core.wf (CAct.apply c a) = true := by
  cases a
  case reg r v t b =>
    rw [CAct.apply_reg]
    split
    · exact h
    · rename_i hr
      rw [Core.wf_iff] at *
      refine ⟨h.1, SMap.wf_set _ _ h.2.1, fun p hp => ?_⟩
      rcases SMap.mem_set hp with hp | hp
      · subst hp; exact hr
      · exact h.2.2 p hp
  case spad off l =>
    rw [CAct.apply_spad]
    rw [Core.wf_iff] at *
    exact ⟨SMap.wf_setAll _ h.1, h.2⟩
  case clock k v => rw [CAct.apply_clock]; split <;> exact h
  case clear => exact Core.wf_default
  all_goals first
    | exact h
    | exact Core.wf_of_eq h (Core.setEng_spad ..) (Core.setEng_regs ..)
    | exact Core.wf_of_eq h (Core.setInbox_spad ..) (Core.setInbox_regs ..)

/-- A core restored from a save image is well formed (R323). -/
theorem Core.wf_canon (c : Core) : Core.wf c.canon = true := by
  rw [Core.wf_iff]
  exact ⟨SMap.wf_ofList _ _, SMap.wf_erase _ (SMap.wf_ofList _ _), fun p hp => SMap.mem_erase_key hp⟩

/-- A core of a state that keeps its form is well formed, held or not. -/
theorem State.core_wf {s : State} (h : s.Inv) (id : Nat) : Core.wf (s.core id) = true := by
  rcases SMap.get_mem_or {} s.cores id with hg | hg
  · unfold State.core; rw [hg]; exact Core.wf_default
  · exact h.2.2.2.1 _ hg

/-- Putting a well-formed core into the table keeps the form. -/
theorem State.Inv.set_core {s t : State} (h : s.Inv) (id : Nat) {c : Core} (hw : Core.wf c = true) (hm : t.mem = s.mem)
    (hc : t.cores = SMap.set {} s.cores id c) (hr : t.regions = s.regions) (ht : s.tabled → t.tabled) : t.Inv := by
  refine ⟨hm ▸ h.1, hc ▸ SMap.wf_set _ _ h.2.1, hr ▸ h.2.2.1, fun p hp => ?_, ht h.2.2.2.2⟩
  rw [hc] at hp
  rcases SMap.mem_set hp with hp | hp
  · subst hp; exact hw
  · exact h.2.2.2.1 p hp

theorem wf_dropCores (ctx : Nat) (l : List Nat) : ∀ m : SMap Core, SMap.wf {} m = true →
    SMap.wf {} (l.foldl (fun m v => SMap.erase (ctx * 2048 + v) m) m) = true := by
  induction l with
  | nil => intro m h; exact h
  | cons v l ih => intro m h; exact ih _ (SMap.wf_erase _ h)

theorem mem_dropCores (ctx : Nat) (l : List Nat) (p : Nat × Core) : ∀ m : SMap Core,
    p ∈ l.foldl (fun m v => SMap.erase (ctx * 2048 + v) m) m → p ∈ m := by
  induction l with
  | nil => intro m h; exact h
  | cons v l ih => intro m h; exact SMap.mem_erase (ih _ h)

theorem sortedAbove_outside {α : Type} (lo hi : Nat) : ∀ {m : SMap α} {b : Nat}, SMap.sortedAbove b m = true →
    SMap.sortedAbove b (outside lo hi m) = true
  | [], _, h => h
  | (a, v) :: m, b, h => by
    simp only [SMap.sortedAbove, Bool.and_eq_true, decide_eq_true_eq] at h
    have ih := sortedAbove_outside lo hi h.2
    unfold outside at ih ⊢
    rw [List.filter_cons]
    split
    · simp [SMap.sortedAbove, h.1, ih]
    · exact SMap.sortedAbove_mono (Nat.le_of_lt h.1) ih

/-- What lies outside a range of keys is in canonical form. -/
theorem wf_outside {α : Type} [DecidableEq α] {d : α} (lo hi : Nat) {m : SMap α} (h : SMap.wf d m = true) :
    SMap.wf d (outside lo hi m) = true := by
  rw [SMap.wf, Bool.and_eq_true, SMap.noDefault_iff] at h ⊢
  refine ⟨?_, fun p hp => h.2 p (List.mem_filter.mp hp).1⟩
  cases m with
  | nil => rfl
  | cons x m =>
    have ih := sortedAbove_outside lo hi (m := m) (b := x.1) h.1
    unfold outside at ih ⊢
    rw [List.filter_cons]
    split
    · exact ih
    · exact SMap.sorted_of_above ih

/-- Every update of the package keeps the form. -/
theorem GAct.apply_inv {s : State} (a : GAct) (h : s.Inv) : (GAct.apply s a).Inv := by
  cases a
  case mem k v => rw [GAct.apply_mem]; exact ⟨SMap.wf_set _ _ h.1, h.2⟩
  case memClear lo n => rw [GAct.apply_memClear]; exact ⟨wf_outside _ _ h.1, h.2⟩
  case dropCores ctx n =>
    rw [GAct.apply_dropCores]
    exact ⟨h.1, wf_dropCores ctx _ _ h.2.1, h.2.2.1, fun p hp => h.2.2.2.1 p (mem_dropCores ctx _ p _ hp), h.2.2.2.2⟩
  case dieTlb d l => exact ⟨h.1, h.2.1, h.2.2.1, h.2.2.2.1, SMap.wf_set _ _ h.2.2.2.2.1, h.2.2.2.2.2⟩
  case cluster c v => exact ⟨h.1, h.2.1, h.2.2.1, h.2.2.2.1, h.2.2.2.2.1, SMap.wf_set _ _ h.2.2.2.2.2.1, h.2.2.2.2.2.2⟩
  case thrClear c v => exact ⟨h.1, h.2.1, h.2.2.1, h.2.2.2.1, h.2.2.2.2.1, SMap.wf_set _ _ h.2.2.2.2.2.1, h.2.2.2.2.2.2⟩
  case thrSet c v => exact ⟨h.1, h.2.1, h.2.2.1, h.2.2.2.1, h.2.2.2.2.1, SMap.wf_set _ _ h.2.2.2.2.2.1, h.2.2.2.2.2.2⟩
  case twCount c f o d => exact ⟨h.1, h.2.1, h.2.2.1, h.2.2.2.1, h.2.2.2.2.1, SMap.wf_set _ _ h.2.2.2.2.2.1, h.2.2.2.2.2.2⟩
  case msi v m => exact ⟨h.1, h.2.1, h.2.2.1, h.2.2.2.1, h.2.2.2.2.1, h.2.2.2.2.2.1, SMap.wf_set _ _ h.2.2.2.2.2.2⟩
  all_goals exact h

/-- Every update keeps the form. -/
theorem Act.apply_inv {s : State} (a : Act) (h : s.Inv) : (Act.apply s a).Inv := by
  cases a with
  | core id a => exact h.set_core id (CAct.apply_wf a (s.core_wf h id)) rfl rfl rfl fun x => x
  | restore id c => exact h.set_core id c.wf_canon rfl rfl rfl fun x => x
  | pkg a => exact GAct.apply_inv a h
  | reg ctx a =>
    have hr : (Act.apply s (.reg ctx a)).regions = SMap.set {} s.regions ctx (RAct.apply s (s.region ctx) a) := by
      cases a <;> first | rfl | (simp only [Act.apply]; split <;> rfl)
    refine ⟨?_, ?_, ?_, ?_, ?_⟩
    · rw [Act.reg_mem]; exact h.1
    · rw [Act.reg_cores]; exact h.2.1
    · rw [hr]; exact SMap.wf_set _ _ h.2.2.1
    · rw [Act.reg_cores]; exact h.2.2.2.1
    · unfold State.tabled; rw [Act.reg_dieTlb, Act.reg_clusters, Act.reg_msi]; exact h.2.2.2.2

/-- A list of updates keeps the form. -/
theorem State.applyAll_inv (l : List Act) : ∀ {s : State}, s.Inv → (s.applyAll l).Inv := by
  induction l with
  | nil => intro s h; exact h
  | cons a l ih => intro s h; exact ih (Act.apply_inv a h)

end Sys2Proof.Machine
end

