-- ==== Sys2Proof/Laws/PerInstr.lean ====
section
/-! SUPPORT. The encoder and the decoder agree, one lemma for each instruction: the words, and the events, which have no word. -/

namespace Sys2Proof

/-- A field read back from a word that holds it. -/
theorem bits_eq {n : Nat} (w lo : Nat) (x : BitVec n) (h : w / 2 ^ lo % 2 ^ n = x.toNat) : bits w lo n = x := by
  apply BitVec.eq_of_toNat_eq
  simp [bits, h]
theorem rsv_zero {w lo n : Nat} (i : Except DecodeError Instr) (h : fld w lo n = 0) : rsv w lo n i = i := by simp [rsv, h]
/-- Decoding is the raw reading where the field limits are kept (R41). -/
theorem decode_of_raw {w : Nat} {lit : Word} {i : Instr} (h : decodeRaw w lit = .ok i) (hw : i.wellFormed = true) :
    decode w lit = .ok i := by simp only [decode, h, hw, if_true]

theorem decodeRaw_class0 {w : Nat} (lit : Word) (h : fld w 27 4 = 0) : decodeRaw w lit = decode0 w := by simp only [decodeRaw, h]
theorem decodeRaw_class1 {w : Nat} (lit : Word) (h : fld w 27 4 = 1) : decodeRaw w lit = decode1 w := by simp only [decodeRaw, h]
theorem decodeRaw_class2 {w : Nat} (lit : Word) (h : fld w 27 4 = 2) : decodeRaw w lit = decode2 w := by simp only [decodeRaw, h]
theorem decodeRaw_class3 {w : Nat} (lit : Word) (h : fld w 27 4 = 3) : decodeRaw w lit = decode3 w lit := by simp only [decodeRaw, h]
theorem decodeRaw_class4 {w : Nat} (lit : Word) (h : fld w 27 4 = 4) : decodeRaw w lit = decode4 w := by simp only [decodeRaw, h]
theorem decodeRaw_class5 {w : Nat} (lit : Word) (h : fld w 27 4 = 5) : decodeRaw w lit = decode5 w := by simp only [decodeRaw, h]
theorem decodeRaw_class6 {w : Nat} (lit : Word) (h : fld w 27 4 = 6) : decodeRaw w lit = decode6 w := by simp only [decodeRaw, h]
theorem decodeRaw_class7 {w : Nat} (lit : Word) (h : fld w 27 4 = 7) : decodeRaw w lit = decode7 w := by simp only [decodeRaw, h]
theorem decodeRaw_class8 {w : Nat} (lit : Word) (h : fld w 27 4 = 8) : decodeRaw w lit = decode8 w := by simp only [decodeRaw, h]
theorem decodeRaw_class9 {w : Nat} (lit : Word) (h : fld w 27 4 = 9) : decodeRaw w lit = decode9 w := by simp only [decodeRaw, h]
theorem decodeRaw_class10 {w : Nat} (lit : Word) (h : fld w 27 4 = 10) : decodeRaw w lit = decode10 w := by simp only [decodeRaw, h]
theorem decodeRaw_class11 {w : Nat} (lit : Word) (h : fld w 27 4 = 11) : decodeRaw w lit = decode11 w := by simp only [decodeRaw, h]
theorem decodeRaw_class12 {w : Nat} (lit : Word) (h : fld w 27 4 = 12) : decodeRaw w lit = decode12 w := by simp only [decodeRaw, h]
theorem decodeRaw_class13 {w : Nat} (lit : Word) (h : fld w 27 4 = 13) : decodeRaw w lit = decode13 w := by simp only [decodeRaw, h]
theorem decodeRaw_class14 {w : Nat} (lit : Word) (h : fld w 27 4 = 14) : decodeRaw w lit = decode14 w lit := by simp only [decodeRaw, h]
theorem decodeRaw_class15 {w : Nat} (lit : Word) (h : fld w 27 4 = 15) : decodeRaw w lit = decode15 w := by simp only [decodeRaw, h]

namespace Laws.RoundTrip

/-- A word that keeps its field limits is what its encoding decodes to; an event has no encoding, and its code is 0. -/
def Statement (i : Instr) : Prop :=
  if i.isWord then i.wellFormed = true → decode (encode i) i.literal = .ok i else encode i = 0 ∧ i.wellFormed = true

theorem add (x0 : BitVec 6) (x1 : BitVec 6) (x2 : BitVec 6) : Statement (.add x0 x1 x2) := by
  intro hf
  have h0 := x0.isLt
  have h1 := x1.isLt
  have h2 := x2.isLt
  refine decode_of_raw ?_ hf
  show decodeRaw (0 + x0.toNat * 2097152 + x1.toNat * 32768 + x2.toNat * 512) 0 = _
  generalize hW : 0 + x0.toNat * 2097152 + x1.toNat * 32768 + x2.toNat * 512 = w
  rw [decodeRaw_class0 _ (by simp only [fld]; omega)]
  have c0 : fld w 0 9 = 0 := by simp only [fld]; omega
  simp only [decode0, c0]
  rw [bits_eq w 21 x0 (by omega), bits_eq w 15 x1 (by omega), bits_eq w 9 x2 (by omega)]
theorem sub (x0 : BitVec 6) (x1 : BitVec 6) (x2 : BitVec 6) : Statement (.sub x0 x1 x2) := by
  intro hf
  have h0 := x0.isLt
  have h1 := x1.isLt
  have h2 := x2.isLt
  refine decode_of_raw ?_ hf
  show decodeRaw (1 + x0.toNat * 2097152 + x1.toNat * 32768 + x2.toNat * 512) 0 = _
  generalize hW : 1 + x0.toNat * 2097152 + x1.toNat * 32768 + x2.toNat * 512 = w
  rw [decodeRaw_class0 _ (by simp only [fld]; omega)]
  have c0 : fld w 0 9 = 1 := by simp only [fld]; omega
  simp only [decode0, c0]
  rw [bits_eq w 21 x0 (by omega), bits_eq w 15 x1 (by omega), bits_eq w 9 x2 (by omega)]
theorem mul (x0 : BitVec 6) (x1 : BitVec 6) (x2 : BitVec 6) : Statement (.mul x0 x1 x2) := by
  intro hf
  have h0 := x0.isLt
  have h1 := x1.isLt
  have h2 := x2.isLt
  refine decode_of_raw ?_ hf
  show decodeRaw (2 + x0.toNat * 2097152 + x1.toNat * 32768 + x2.toNat * 512) 0 = _
  generalize hW : 2 + x0.toNat * 2097152 + x1.toNat * 32768 + x2.toNat * 512 = w
  rw [decodeRaw_class0 _ (by simp only [fld]; omega)]
  have c0 : fld w 0 9 = 2 := by simp only [fld]; omega
  simp only [decode0, c0]
  rw [bits_eq w 21 x0 (by omega), bits_eq w 15 x1 (by omega), bits_eq w 9 x2 (by omega)]
theorem mulh (x0 : BitVec 6) (x1 : BitVec 6) (x2 : BitVec 6) : Statement (.mulh x0 x1 x2) := by
  intro hf
  have h0 := x0.isLt
  have h1 := x1.isLt
  have h2 := x2.isLt
  refine decode_of_raw ?_ hf
  show decodeRaw (3 + x0.toNat * 2097152 + x1.toNat * 32768 + x2.toNat * 512) 0 = _
  generalize hW : 3 + x0.toNat * 2097152 + x1.toNat * 32768 + x2.toNat * 512 = w
  rw [decodeRaw_class0 _ (by simp only [fld]; omega)]
  have c0 : fld w 0 9 = 3 := by simp only [fld]; omega
  simp only [decode0, c0]
  rw [bits_eq w 21 x0 (by omega), bits_eq w 15 x1 (by omega), bits_eq w 9 x2 (by omega)]
theorem mulhu (x0 : BitVec 6) (x1 : BitVec 6) (x2 : BitVec 6) : Statement (.mulhu x0 x1 x2) := by
  intro hf
  have h0 := x0.isLt
  have h1 := x1.isLt
  have h2 := x2.isLt
  refine decode_of_raw ?_ hf
  show decodeRaw (4 + x0.toNat * 2097152 + x1.toNat * 32768 + x2.toNat * 512) 0 = _
  generalize hW : 4 + x0.toNat * 2097152 + x1.toNat * 32768 + x2.toNat * 512 = w
  rw [decodeRaw_class0 _ (by simp only [fld]; omega)]
  have c0 : fld w 0 9 = 4 := by simp only [fld]; omega
  simp only [decode0, c0]
  rw [bits_eq w 21 x0 (by omega), bits_eq w 15 x1 (by omega), bits_eq w 9 x2 (by omega)]
theorem div (x0 : BitVec 6) (x1 : BitVec 6) (x2 : BitVec 6) : Statement (.div x0 x1 x2) := by
  intro hf
  have h0 := x0.isLt
  have h1 := x1.isLt
  have h2 := x2.isLt
  refine decode_of_raw ?_ hf
  show decodeRaw (5 + x0.toNat * 2097152 + x1.toNat * 32768 + x2.toNat * 512) 0 = _
  generalize hW : 5 + x0.toNat * 2097152 + x1.toNat * 32768 + x2.toNat * 512 = w
  rw [decodeRaw_class0 _ (by simp only [fld]; omega)]
  have c0 : fld w 0 9 = 5 := by simp only [fld]; omega
  simp only [decode0, c0]
  rw [bits_eq w 21 x0 (by omega), bits_eq w 15 x1 (by omega), bits_eq w 9 x2 (by omega)]
theorem divu (x0 : BitVec 6) (x1 : BitVec 6) (x2 : BitVec 6) : Statement (.divu x0 x1 x2) := by
  intro hf
  have h0 := x0.isLt
  have h1 := x1.isLt
  have h2 := x2.isLt
  refine decode_of_raw ?_ hf
  show decodeRaw (6 + x0.toNat * 2097152 + x1.toNat * 32768 + x2.toNat * 512) 0 = _
  generalize hW : 6 + x0.toNat * 2097152 + x1.toNat * 32768 + x2.toNat * 512 = w
  rw [decodeRaw_class0 _ (by simp only [fld]; omega)]
  have c0 : fld w 0 9 = 6 := by simp only [fld]; omega
  simp only [decode0, c0]
  rw [bits_eq w 21 x0 (by omega), bits_eq w 15 x1 (by omega), bits_eq w 9 x2 (by omega)]
theorem rem (x0 : BitVec 6) (x1 : BitVec 6) (x2 : BitVec 6) : Statement (.rem x0 x1 x2) := by
  intro hf
  have h0 := x0.isLt
  have h1 := x1.isLt
  have h2 := x2.isLt
  refine decode_of_raw ?_ hf
  show decodeRaw (7 + x0.toNat * 2097152 + x1.toNat * 32768 + x2.toNat * 512) 0 = _
  generalize hW : 7 + x0.toNat * 2097152 + x1.toNat * 32768 + x2.toNat * 512 = w
  rw [decodeRaw_class0 _ (by simp only [fld]; omega)]
  have c0 : fld w 0 9 = 7 := by simp only [fld]; omega
  simp only [decode0, c0]
  rw [bits_eq w 21 x0 (by omega), bits_eq w 15 x1 (by omega), bits_eq w 9 x2 (by omega)]
theorem remu (x0 : BitVec 6) (x1 : BitVec 6) (x2 : BitVec 6) : Statement (.remu x0 x1 x2) := by
  intro hf
  have h0 := x0.isLt
  have h1 := x1.isLt
  have h2 := x2.isLt
  refine decode_of_raw ?_ hf
  show decodeRaw (8 + x0.toNat * 2097152 + x1.toNat * 32768 + x2.toNat * 512) 0 = _
  generalize hW : 8 + x0.toNat * 2097152 + x1.toNat * 32768 + x2.toNat * 512 = w
  rw [decodeRaw_class0 _ (by simp only [fld]; omega)]
  have c0 : fld w 0 9 = 8 := by simp only [fld]; omega
  simp only [decode0, c0]
  rw [bits_eq w 21 x0 (by omega), bits_eq w 15 x1 (by omega), bits_eq w 9 x2 (by omega)]
theorem andS (x0 : BitVec 6) (x1 : BitVec 6) (x2 : BitVec 6) : Statement (.andS x0 x1 x2) := by
  intro hf
  have h0 := x0.isLt
  have h1 := x1.isLt
  have h2 := x2.isLt
  refine decode_of_raw ?_ hf
  show decodeRaw (9 + x0.toNat * 2097152 + x1.toNat * 32768 + x2.toNat * 512) 0 = _
  generalize hW : 9 + x0.toNat * 2097152 + x1.toNat * 32768 + x2.toNat * 512 = w
  rw [decodeRaw_class0 _ (by simp only [fld]; omega)]
  have c0 : fld w 0 9 = 9 := by simp only [fld]; omega
  simp only [decode0, c0]
  rw [bits_eq w 21 x0 (by omega), bits_eq w 15 x1 (by omega), bits_eq w 9 x2 (by omega)]
theorem orS (x0 : BitVec 6) (x1 : BitVec 6) (x2 : BitVec 6) : Statement (.orS x0 x1 x2) := by
  intro hf
  have h0 := x0.isLt
  have h1 := x1.isLt
  have h2 := x2.isLt
  refine decode_of_raw ?_ hf
  show decodeRaw (10 + x0.toNat * 2097152 + x1.toNat * 32768 + x2.toNat * 512) 0 = _
  generalize hW : 10 + x0.toNat * 2097152 + x1.toNat * 32768 + x2.toNat * 512 = w
  rw [decodeRaw_class0 _ (by simp only [fld]; omega)]
  have c0 : fld w 0 9 = 10 := by simp only [fld]; omega
  simp only [decode0, c0]
  rw [bits_eq w 21 x0 (by omega), bits_eq w 15 x1 (by omega), bits_eq w 9 x2 (by omega)]
theorem xorS (x0 : BitVec 6) (x1 : BitVec 6) (x2 : BitVec 6) : Statement (.xorS x0 x1 x2) := by
  intro hf
  have h0 := x0.isLt
  have h1 := x1.isLt
  have h2 := x2.isLt
  refine decode_of_raw ?_ hf
  show decodeRaw (11 + x0.toNat * 2097152 + x1.toNat * 32768 + x2.toNat * 512) 0 = _
  generalize hW : 11 + x0.toNat * 2097152 + x1.toNat * 32768 + x2.toNat * 512 = w
  rw [decodeRaw_class0 _ (by simp only [fld]; omega)]
  have c0 : fld w 0 9 = 11 := by simp only [fld]; omega
  simp only [decode0, c0]
  rw [bits_eq w 21 x0 (by omega), bits_eq w 15 x1 (by omega), bits_eq w 9 x2 (by omega)]
theorem andn (x0 : BitVec 6) (x1 : BitVec 6) (x2 : BitVec 6) : Statement (.andn x0 x1 x2) := by
  intro hf
  have h0 := x0.isLt
  have h1 := x1.isLt
  have h2 := x2.isLt
  refine decode_of_raw ?_ hf
  show decodeRaw (12 + x0.toNat * 2097152 + x1.toNat * 32768 + x2.toNat * 512) 0 = _
  generalize hW : 12 + x0.toNat * 2097152 + x1.toNat * 32768 + x2.toNat * 512 = w
  rw [decodeRaw_class0 _ (by simp only [fld]; omega)]
  have c0 : fld w 0 9 = 12 := by simp only [fld]; omega
  simp only [decode0, c0]
  rw [bits_eq w 21 x0 (by omega), bits_eq w 15 x1 (by omega), bits_eq w 9 x2 (by omega)]
theorem shl (x0 : BitVec 6) (x1 : BitVec 6) (x2 : BitVec 6) : Statement (.shl x0 x1 x2) := by
  intro hf
  have h0 := x0.isLt
  have h1 := x1.isLt
  have h2 := x2.isLt
  refine decode_of_raw ?_ hf
  show decodeRaw (13 + x0.toNat * 2097152 + x1.toNat * 32768 + x2.toNat * 512) 0 = _
  generalize hW : 13 + x0.toNat * 2097152 + x1.toNat * 32768 + x2.toNat * 512 = w
  rw [decodeRaw_class0 _ (by simp only [fld]; omega)]
  have c0 : fld w 0 9 = 13 := by simp only [fld]; omega
  simp only [decode0, c0]
  rw [bits_eq w 21 x0 (by omega), bits_eq w 15 x1 (by omega), bits_eq w 9 x2 (by omega)]
theorem shr (x0 : BitVec 6) (x1 : BitVec 6) (x2 : BitVec 6) : Statement (.shr x0 x1 x2) := by
  intro hf
  have h0 := x0.isLt
  have h1 := x1.isLt
  have h2 := x2.isLt
  refine decode_of_raw ?_ hf
  show decodeRaw (14 + x0.toNat * 2097152 + x1.toNat * 32768 + x2.toNat * 512) 0 = _
  generalize hW : 14 + x0.toNat * 2097152 + x1.toNat * 32768 + x2.toNat * 512 = w
  rw [decodeRaw_class0 _ (by simp only [fld]; omega)]
  have c0 : fld w 0 9 = 14 := by simp only [fld]; omega
  simp only [decode0, c0]
  rw [bits_eq w 21 x0 (by omega), bits_eq w 15 x1 (by omega), bits_eq w 9 x2 (by omega)]
theorem sra (x0 : BitVec 6) (x1 : BitVec 6) (x2 : BitVec 6) : Statement (.sra x0 x1 x2) := by
  intro hf
  have h0 := x0.isLt
  have h1 := x1.isLt
  have h2 := x2.isLt
  refine decode_of_raw ?_ hf
  show decodeRaw (15 + x0.toNat * 2097152 + x1.toNat * 32768 + x2.toNat * 512) 0 = _
  generalize hW : 15 + x0.toNat * 2097152 + x1.toNat * 32768 + x2.toNat * 512 = w
  rw [decodeRaw_class0 _ (by simp only [fld]; omega)]
  have c0 : fld w 0 9 = 15 := by simp only [fld]; omega
  simp only [decode0, c0]
  rw [bits_eq w 21 x0 (by omega), bits_eq w 15 x1 (by omega), bits_eq w 9 x2 (by omega)]
theorem rot (x0 : BitVec 6) (x1 : BitVec 6) (x2 : BitVec 6) : Statement (.rot x0 x1 x2) := by
  intro hf
  have h0 := x0.isLt
  have h1 := x1.isLt
  have h2 := x2.isLt
  refine decode_of_raw ?_ hf
  show decodeRaw (16 + x0.toNat * 2097152 + x1.toNat * 32768 + x2.toNat * 512) 0 = _
  generalize hW : 16 + x0.toNat * 2097152 + x1.toNat * 32768 + x2.toNat * 512 = w
  rw [decodeRaw_class0 _ (by simp only [fld]; omega)]
  have c0 : fld w 0 9 = 16 := by simp only [fld]; omega
  simp only [decode0, c0]
  rw [bits_eq w 21 x0 (by omega), bits_eq w 15 x1 (by omega), bits_eq w 9 x2 (by omega)]
theorem min (x0 : BitVec 6) (x1 : BitVec 6) (x2 : BitVec 6) : Statement (.min x0 x1 x2) := by
  intro hf
  have h0 := x0.isLt
  have h1 := x1.isLt
  have h2 := x2.isLt
  refine decode_of_raw ?_ hf
  show decodeRaw (17 + x0.toNat * 2097152 + x1.toNat * 32768 + x2.toNat * 512) 0 = _
  generalize hW : 17 + x0.toNat * 2097152 + x1.toNat * 32768 + x2.toNat * 512 = w
  rw [decodeRaw_class0 _ (by simp only [fld]; omega)]
  have c0 : fld w 0 9 = 17 := by simp only [fld]; omega
  simp only [decode0, c0]
  rw [bits_eq w 21 x0 (by omega), bits_eq w 15 x1 (by omega), bits_eq w 9 x2 (by omega)]
theorem max (x0 : BitVec 6) (x1 : BitVec 6) (x2 : BitVec 6) : Statement (.max x0 x1 x2) := by
  intro hf
  have h0 := x0.isLt
  have h1 := x1.isLt
  have h2 := x2.isLt
  refine decode_of_raw ?_ hf
  show decodeRaw (18 + x0.toNat * 2097152 + x1.toNat * 32768 + x2.toNat * 512) 0 = _
  generalize hW : 18 + x0.toNat * 2097152 + x1.toNat * 32768 + x2.toNat * 512 = w
  rw [decodeRaw_class0 _ (by simp only [fld]; omega)]
  have c0 : fld w 0 9 = 18 := by simp only [fld]; omega
  simp only [decode0, c0]
  rw [bits_eq w 21 x0 (by omega), bits_eq w 15 x1 (by omega), bits_eq w 9 x2 (by omega)]
theorem minu (x0 : BitVec 6) (x1 : BitVec 6) (x2 : BitVec 6) : Statement (.minu x0 x1 x2) := by
  intro hf
  have h0 := x0.isLt
  have h1 := x1.isLt
  have h2 := x2.isLt
  refine decode_of_raw ?_ hf
  show decodeRaw (19 + x0.toNat * 2097152 + x1.toNat * 32768 + x2.toNat * 512) 0 = _
  generalize hW : 19 + x0.toNat * 2097152 + x1.toNat * 32768 + x2.toNat * 512 = w
  rw [decodeRaw_class0 _ (by simp only [fld]; omega)]
  have c0 : fld w 0 9 = 19 := by simp only [fld]; omega
  simp only [decode0, c0]
  rw [bits_eq w 21 x0 (by omega), bits_eq w 15 x1 (by omega), bits_eq w 9 x2 (by omega)]
theorem maxu (x0 : BitVec 6) (x1 : BitVec 6) (x2 : BitVec 6) : Statement (.maxu x0 x1 x2) := by
  intro hf
  have h0 := x0.isLt
  have h1 := x1.isLt
  have h2 := x2.isLt
  refine decode_of_raw ?_ hf
  show decodeRaw (20 + x0.toNat * 2097152 + x1.toNat * 32768 + x2.toNat * 512) 0 = _
  generalize hW : 20 + x0.toNat * 2097152 + x1.toNat * 32768 + x2.toNat * 512 = w
  rw [decodeRaw_class0 _ (by simp only [fld]; omega)]
  have c0 : fld w 0 9 = 20 := by simp only [fld]; omega
  simp only [decode0, c0]
  rw [bits_eq w 21 x0 (by omega), bits_eq w 15 x1 (by omega), bits_eq w 9 x2 (by omega)]
theorem seq (x0 : BitVec 6) (x1 : BitVec 6) (x2 : BitVec 6) : Statement (.seq x0 x1 x2) := by
  intro hf
  have h0 := x0.isLt
  have h1 := x1.isLt
  have h2 := x2.isLt
  refine decode_of_raw ?_ hf
  show decodeRaw (21 + x0.toNat * 2097152 + x1.toNat * 32768 + x2.toNat * 512) 0 = _
  generalize hW : 21 + x0.toNat * 2097152 + x1.toNat * 32768 + x2.toNat * 512 = w
  rw [decodeRaw_class0 _ (by simp only [fld]; omega)]
  have c0 : fld w 0 9 = 21 := by simp only [fld]; omega
  simp only [decode0, c0]
  rw [bits_eq w 21 x0 (by omega), bits_eq w 15 x1 (by omega), bits_eq w 9 x2 (by omega)]
theorem slt (x0 : BitVec 6) (x1 : BitVec 6) (x2 : BitVec 6) : Statement (.slt x0 x1 x2) := by
  intro hf
  have h0 := x0.isLt
  have h1 := x1.isLt
  have h2 := x2.isLt
  refine decode_of_raw ?_ hf
  show decodeRaw (22 + x0.toNat * 2097152 + x1.toNat * 32768 + x2.toNat * 512) 0 = _
  generalize hW : 22 + x0.toNat * 2097152 + x1.toNat * 32768 + x2.toNat * 512 = w
  rw [decodeRaw_class0 _ (by simp only [fld]; omega)]
  have c0 : fld w 0 9 = 22 := by simp only [fld]; omega
  simp only [decode0, c0]
  rw [bits_eq w 21 x0 (by omega), bits_eq w 15 x1 (by omega), bits_eq w 9 x2 (by omega)]
theorem sltu (x0 : BitVec 6) (x1 : BitVec 6) (x2 : BitVec 6) : Statement (.sltu x0 x1 x2) := by
  intro hf
  have h0 := x0.isLt
  have h1 := x1.isLt
  have h2 := x2.isLt
  refine decode_of_raw ?_ hf
  show decodeRaw (23 + x0.toNat * 2097152 + x1.toNat * 32768 + x2.toNat * 512) 0 = _
  generalize hW : 23 + x0.toNat * 2097152 + x1.toNat * 32768 + x2.toNat * 512 = w
  rw [decodeRaw_class0 _ (by simp only [fld]; omega)]
  have c0 : fld w 0 9 = 23 := by simp only [fld]; omega
  simp only [decode0, c0]
  rw [bits_eq w 21 x0 (by omega), bits_eq w 15 x1 (by omega), bits_eq w 9 x2 (by omega)]
theorem sel (x0 : BitVec 6) (x1 : BitVec 6) (x2 : BitVec 6) : Statement (.sel x0 x1 x2) := by
  intro hf
  have h0 := x0.isLt
  have h1 := x1.isLt
  have h2 := x2.isLt
  refine decode_of_raw ?_ hf
  show decodeRaw (24 + x0.toNat * 2097152 + x1.toNat * 32768 + x2.toNat * 512) 0 = _
  generalize hW : 24 + x0.toNat * 2097152 + x1.toNat * 32768 + x2.toNat * 512 = w
  rw [decodeRaw_class0 _ (by simp only [fld]; omega)]
  have c0 : fld w 0 9 = 24 := by simp only [fld]; omega
  simp only [decode0, c0]
  rw [bits_eq w 21 x0 (by omega), bits_eq w 15 x1 (by omega), bits_eq w 9 x2 (by omega)]
theorem clz (x0 : BitVec 6) (x1 : BitVec 6) : Statement (.clz x0 x1) := by
  intro hf
  have h0 := x0.isLt
  have h1 := x1.isLt
  refine decode_of_raw ?_ hf
  show decodeRaw (25 + x0.toNat * 2097152 + x1.toNat * 32768) 0 = _
  generalize hW : 25 + x0.toNat * 2097152 + x1.toNat * 32768 = w
  rw [decodeRaw_class0 _ (by simp only [fld]; omega)]
  have c0 : fld w 0 9 = 25 := by simp only [fld]; omega
  have r0 : fld w 9 6 = 0 := by simp only [fld]; omega
  simp only [decode0, c0, rsv_zero _ r0]
  rw [bits_eq w 21 x0 (by omega), bits_eq w 15 x1 (by omega)]
theorem ctz (x0 : BitVec 6) (x1 : BitVec 6) : Statement (.ctz x0 x1) := by
  intro hf
  have h0 := x0.isLt
  have h1 := x1.isLt
  refine decode_of_raw ?_ hf
  show decodeRaw (26 + x0.toNat * 2097152 + x1.toNat * 32768) 0 = _
  generalize hW : 26 + x0.toNat * 2097152 + x1.toNat * 32768 = w
  rw [decodeRaw_class0 _ (by simp only [fld]; omega)]
  have c0 : fld w 0 9 = 26 := by simp only [fld]; omega
  have r0 : fld w 9 6 = 0 := by simp only [fld]; omega
  simp only [decode0, c0, rsv_zero _ r0]
  rw [bits_eq w 21 x0 (by omega), bits_eq w 15 x1 (by omega)]
theorem popc (x0 : BitVec 6) (x1 : BitVec 6) : Statement (.popc x0 x1) := by
  intro hf
  have h0 := x0.isLt
  have h1 := x1.isLt
  refine decode_of_raw ?_ hf
  show decodeRaw (27 + x0.toNat * 2097152 + x1.toNat * 32768) 0 = _
  generalize hW : 27 + x0.toNat * 2097152 + x1.toNat * 32768 = w
  rw [decodeRaw_class0 _ (by simp only [fld]; omega)]
  have c0 : fld w 0 9 = 27 := by simp only [fld]; omega
  have r0 : fld w 9 6 = 0 := by simp only [fld]; omega
  simp only [decode0, c0, rsv_zero _ r0]
  rw [bits_eq w 21 x0 (by omega), bits_eq w 15 x1 (by omega)]
theorem addsat (x0 : BitVec 6) (x1 : BitVec 6) (x2 : BitVec 6) : Statement (.addsat x0 x1 x2) := by
  intro hf
  have h0 := x0.isLt
  have h1 := x1.isLt
  have h2 := x2.isLt
  refine decode_of_raw ?_ hf
  show decodeRaw (28 + x0.toNat * 2097152 + x1.toNat * 32768 + x2.toNat * 512) 0 = _
  generalize hW : 28 + x0.toNat * 2097152 + x1.toNat * 32768 + x2.toNat * 512 = w
  rw [decodeRaw_class0 _ (by simp only [fld]; omega)]
  have c0 : fld w 0 9 = 28 := by simp only [fld]; omega
  simp only [decode0, c0]
  rw [bits_eq w 21 x0 (by omega), bits_eq w 15 x1 (by omega), bits_eq w 9 x2 (by omega)]
theorem subsat (x0 : BitVec 6) (x1 : BitVec 6) (x2 : BitVec 6) : Statement (.subsat x0 x1 x2) := by
  intro hf
  have h0 := x0.isLt
  have h1 := x1.isLt
  have h2 := x2.isLt
  refine decode_of_raw ?_ hf
  show decodeRaw (29 + x0.toNat * 2097152 + x1.toNat * 32768 + x2.toNat * 512) 0 = _
  generalize hW : 29 + x0.toNat * 2097152 + x1.toNat * 32768 + x2.toNat * 512 = w
  rw [decodeRaw_class0 _ (by simp only [fld]; omega)]
  have c0 : fld w 0 9 = 29 := by simp only [fld]; omega
  simp only [decode0, c0]
  rw [bits_eq w 21 x0 (by omega), bits_eq w 15 x1 (by omega), bits_eq w 9 x2 (by omega)]
theorem bext (x0 : BitVec 6) (x1 : BitVec 6) (x2 : BitVec 6) : Statement (.bext x0 x1 x2) := by
  intro hf
  have h0 := x0.isLt
  have h1 := x1.isLt
  have h2 := x2.isLt
  refine decode_of_raw ?_ hf
  show decodeRaw (30 + x0.toNat * 2097152 + x1.toNat * 32768 + x2.toNat * 512) 0 = _
  generalize hW : 30 + x0.toNat * 2097152 + x1.toNat * 32768 + x2.toNat * 512 = w
  rw [decodeRaw_class0 _ (by simp only [fld]; omega)]
  have c0 : fld w 0 9 = 30 := by simp only [fld]; omega
  simp only [decode0, c0]
  rw [bits_eq w 21 x0 (by omega), bits_eq w 15 x1 (by omega), bits_eq w 9 x2 (by omega)]
theorem bins (x0 : BitVec 6) (x1 : BitVec 6) (x2 : BitVec 6) : Statement (.bins x0 x1 x2) := by
  intro hf
  have h0 := x0.isLt
  have h1 := x1.isLt
  have h2 := x2.isLt
  refine decode_of_raw ?_ hf
  show decodeRaw (31 + x0.toNat * 2097152 + x1.toNat * 32768 + x2.toNat * 512) 0 = _
  generalize hW : 31 + x0.toNat * 2097152 + x1.toNat * 32768 + x2.toNat * 512 = w
  rw [decodeRaw_class0 _ (by simp only [fld]; omega)]
  have c0 : fld w 0 9 = 31 := by simp only [fld]; omega
  simp only [decode0, c0]
  rw [bits_eq w 21 x0 (by omega), bits_eq w 15 x1 (by omega), bits_eq w 9 x2 (by omega)]
theorem addi (x0 : BitVec 6) (x1 : BitVec 6) (x2 : BitVec 12) : Statement (.addi x0 x1 x2) := by
  intro hf
  have h0 := x0.isLt
  have h1 := x1.isLt
  have h2 := x2.isLt
  refine decode_of_raw ?_ hf
  show decodeRaw (134217728 + x0.toNat * 2097152 + x1.toNat * 32768 + x2.toNat) 0 = _
  generalize hW : 134217728 + x0.toNat * 2097152 + x1.toNat * 32768 + x2.toNat = w
  rw [decodeRaw_class1 _ (by simp only [fld]; omega)]
  have c0 : fld w 12 3 = 0 := by simp only [fld]; omega
  simp only [decode1, c0]
  rw [bits_eq w 21 x0 (by omega), bits_eq w 15 x1 (by omega), bits_eq w 0 x2 (by omega)]
theorem andi (x0 : BitVec 6) (x1 : BitVec 6) (x2 : BitVec 12) : Statement (.andi x0 x1 x2) := by
  intro hf
  have h0 := x0.isLt
  have h1 := x1.isLt
  have h2 := x2.isLt
  refine decode_of_raw ?_ hf
  show decodeRaw (134221824 + x0.toNat * 2097152 + x1.toNat * 32768 + x2.toNat) 0 = _
  generalize hW : 134221824 + x0.toNat * 2097152 + x1.toNat * 32768 + x2.toNat = w
  rw [decodeRaw_class1 _ (by simp only [fld]; omega)]
  have c0 : fld w 12 3 = 1 := by simp only [fld]; omega
  simp only [decode1, c0]
  rw [bits_eq w 21 x0 (by omega), bits_eq w 15 x1 (by omega), bits_eq w 0 x2 (by omega)]
theorem ori (x0 : BitVec 6) (x1 : BitVec 6) (x2 : BitVec 12) : Statement (.ori x0 x1 x2) := by
  intro hf
  have h0 := x0.isLt
  have h1 := x1.isLt
  have h2 := x2.isLt
  refine decode_of_raw ?_ hf
  show decodeRaw (134225920 + x0.toNat * 2097152 + x1.toNat * 32768 + x2.toNat) 0 = _
  generalize hW : 134225920 + x0.toNat * 2097152 + x1.toNat * 32768 + x2.toNat = w
  rw [decodeRaw_class1 _ (by simp only [fld]; omega)]
  have c0 : fld w 12 3 = 2 := by simp only [fld]; omega
  simp only [decode1, c0]
  rw [bits_eq w 21 x0 (by omega), bits_eq w 15 x1 (by omega), bits_eq w 0 x2 (by omega)]
theorem xori (x0 : BitVec 6) (x1 : BitVec 6) (x2 : BitVec 12) : Statement (.xori x0 x1 x2) := by
  intro hf
  have h0 := x0.isLt
  have h1 := x1.isLt
  have h2 := x2.isLt
  refine decode_of_raw ?_ hf
  show decodeRaw (134230016 + x0.toNat * 2097152 + x1.toNat * 32768 + x2.toNat) 0 = _
  generalize hW : 134230016 + x0.toNat * 2097152 + x1.toNat * 32768 + x2.toNat = w
  rw [decodeRaw_class1 _ (by simp only [fld]; omega)]
  have c0 : fld w 12 3 = 3 := by simp only [fld]; omega
  simp only [decode1, c0]
  rw [bits_eq w 21 x0 (by omega), bits_eq w 15 x1 (by omega), bits_eq w 0 x2 (by omega)]
theorem shli (x0 : BitVec 6) (x1 : BitVec 6) (x2 : BitVec 6) : Statement (.shli x0 x1 x2) := by
  intro hf
  have h0 := x0.isLt
  have h1 := x1.isLt
  have h2 := x2.isLt
  refine decode_of_raw ?_ hf
  show decodeRaw (134234112 + x0.toNat * 2097152 + x1.toNat * 32768 + x2.toNat) 0 = _
  generalize hW : 134234112 + x0.toNat * 2097152 + x1.toNat * 32768 + x2.toNat = w
  rw [decodeRaw_class1 _ (by simp only [fld]; omega)]
  have c0 : fld w 12 3 = 4 := by simp only [fld]; omega
  have r0 : fld w 6 6 = 0 := by simp only [fld]; omega
  simp only [decode1, c0, rsv_zero _ r0]
  rw [bits_eq w 21 x0 (by omega), bits_eq w 15 x1 (by omega), bits_eq w 0 x2 (by omega)]
theorem shri (x0 : BitVec 6) (x1 : BitVec 6) (x2 : BitVec 6) : Statement (.shri x0 x1 x2) := by
  intro hf
  have h0 := x0.isLt
  have h1 := x1.isLt
  have h2 := x2.isLt
  refine decode_of_raw ?_ hf
  show decodeRaw (134238208 + x0.toNat * 2097152 + x1.toNat * 32768 + x2.toNat) 0 = _
  generalize hW : 134238208 + x0.toNat * 2097152 + x1.toNat * 32768 + x2.toNat = w
  rw [decodeRaw_class1 _ (by simp only [fld]; omega)]
  have c0 : fld w 12 3 = 5 := by simp only [fld]; omega
  have r0 : fld w 6 6 = 0 := by simp only [fld]; omega
  simp only [decode1, c0, rsv_zero _ r0]
  rw [bits_eq w 21 x0 (by omega), bits_eq w 15 x1 (by omega), bits_eq w 0 x2 (by omega)]
theorem srai (x0 : BitVec 6) (x1 : BitVec 6) (x2 : BitVec 6) : Statement (.srai x0 x1 x2) := by
  intro hf
  have h0 := x0.isLt
  have h1 := x1.isLt
  have h2 := x2.isLt
  refine decode_of_raw ?_ hf
  show decodeRaw (134242304 + x0.toNat * 2097152 + x1.toNat * 32768 + x2.toNat) 0 = _
  generalize hW : 134242304 + x0.toNat * 2097152 + x1.toNat * 32768 + x2.toNat = w
  rw [decodeRaw_class1 _ (by simp only [fld]; omega)]
  have c0 : fld w 12 3 = 6 := by simp only [fld]; omega
  have r0 : fld w 6 6 = 0 := by simp only [fld]; omega
  simp only [decode1, c0, rsv_zero _ r0]
  rw [bits_eq w 21 x0 (by omega), bits_eq w 15 x1 (by omega), bits_eq w 0 x2 (by omega)]
theorem slti (x0 : BitVec 6) (x1 : BitVec 6) (x2 : BitVec 12) : Statement (.slti x0 x1 x2) := by
  intro hf
  have h0 := x0.isLt
  have h1 := x1.isLt
  have h2 := x2.isLt
  refine decode_of_raw ?_ hf
  show decodeRaw (134246400 + x0.toNat * 2097152 + x1.toNat * 32768 + x2.toNat) 0 = _
  generalize hW : 134246400 + x0.toNat * 2097152 + x1.toNat * 32768 + x2.toNat = w
  rw [decodeRaw_class1 _ (by simp only [fld]; omega)]
  have c0 : fld w 12 3 = 7 := by simp only [fld]; omega
  simp only [decode1, c0]
  rw [bits_eq w 21 x0 (by omega), bits_eq w 15 x1 (by omega), bits_eq w 0 x2 (by omega)]
theorem movi (x0 : BitVec 6) (x1 : BitVec 19) : Statement (.movi x0 x1) := by
  intro hf
  have h0 := x0.isLt
  have h1 := x1.isLt
  refine decode_of_raw ?_ hf
  show decodeRaw (268435456 + x0.toNat * 2097152 + x1.toNat) 0 = _
  generalize hW : 268435456 + x0.toNat * 2097152 + x1.toNat = w
  rw [decodeRaw_class2 _ (by simp only [fld]; omega)]
  have c0 : fld w 19 2 = 0 := by simp only [fld]; omega
  simp only [decode2, c0]
  rw [bits_eq w 21 x0 (by omega), bits_eq w 0 x1 (by omega)]
theorem insh (x0 : BitVec 6) (x1 : BitVec 19) : Statement (.insh x0 x1) := by
  intro hf
  have h0 := x0.isLt
  have h1 := x1.isLt
  refine decode_of_raw ?_ hf
  show decodeRaw (268959744 + x0.toNat * 2097152 + x1.toNat) 0 = _
  generalize hW : 268959744 + x0.toNat * 2097152 + x1.toNat = w
  rw [decodeRaw_class2 _ (by simp only [fld]; omega)]
  have c0 : fld w 19 2 = 1 := by simp only [fld]; omega
  simp only [decode2, c0]
  rw [bits_eq w 21 x0 (by omega), bits_eq w 0 x1 (by omega)]
theorem inst (x0 : BitVec 6) (x1 : BitVec 13) : Statement (.inst x0 x1) := by
  intro hf
  have h0 := x0.isLt
  have h1 := x1.isLt
  refine decode_of_raw ?_ hf
  show decodeRaw (269484032 + x0.toNat * 2097152 + x1.toNat) 0 = _
  generalize hW : 269484032 + x0.toNat * 2097152 + x1.toNat = w
  rw [decodeRaw_class2 _ (by simp only [fld]; omega)]
  have c0 : fld w 19 2 = 2 := by simp only [fld]; omega
  have r0 : fld w 13 6 = 0 := by simp only [fld]; omega
  simp only [decode2, c0, rsv_zero _ r0]
  rw [bits_eq w 21 x0 (by omega), bits_eq w 0 x1 (by omega)]
theorem movf (x0 : BitVec 6) (x1 : BitVec 19) : Statement (.movf x0 x1) := by
  intro hf
  have h0 := x0.isLt
  have h1 := x1.isLt
  refine decode_of_raw ?_ hf
  show decodeRaw (270008320 + x0.toNat * 2097152 + x1.toNat) 0 = _
  generalize hW : 270008320 + x0.toNat * 2097152 + x1.toNat = w
  rw [decodeRaw_class2 _ (by simp only [fld]; omega)]
  have c0 : fld w 19 2 = 3 := by simp only [fld]; omega
  simp only [decode2, c0]
  rw [bits_eq w 21 x0 (by omega), bits_eq w 0 x1 (by omega)]
theorem idle (x0 : BitVec 16) : Statement (.idle x0) := by
  intro hf
  have h0 := x0.isLt
  refine decode_of_raw ?_ hf
  show decodeRaw (402653184 + x0.toNat) 0 = _
  generalize hW : 402653184 + x0.toNat = w
  rw [decodeRaw_class3 _ (by simp only [fld]; omega)]
  have c0 : fld w 23 4 = 0 := by simp only [fld]; omega
  have r0 : fld w 16 7 = 0 := by simp only [fld]; omega
  simp only [decode3, c0, rsv_zero _ r0]
  rw [bits_eq w 0 x0 (by omega)]
theorem jmp (x0 : BitVec 13) : Statement (.jmp x0) := by
  intro hf
  have h0 := x0.isLt
  refine decode_of_raw ?_ hf
  show decodeRaw (411041792 + x0.toNat) 0 = _
  generalize hW : 411041792 + x0.toNat = w
  rw [decodeRaw_class3 _ (by simp only [fld]; omega)]
  have c0 : fld w 23 4 = 1 := by simp only [fld]; omega
  have r0 : fld w 13 10 = 0 := by simp only [fld]; omega
  simp only [decode3, c0, rsv_zero _ r0]
  rw [bits_eq w 0 x0 (by omega)]
theorem bnz (x0 : BitVec 6) (x1 : BitVec 13) : Statement (.bnz x0 x1) := by
  intro hf
  have h0 := x0.isLt
  have h1 := x1.isLt
  refine decode_of_raw ?_ hf
  show decodeRaw (419430400 + x0.toNat * 131072 + x1.toNat) 0 = _
  generalize hW : 419430400 + x0.toNat * 131072 + x1.toNat = w
  rw [decodeRaw_class3 _ (by simp only [fld]; omega)]
  have c0 : fld w 23 4 = 2 := by simp only [fld]; omega
  have r0 : fld w 13 4 = 0 := by simp only [fld]; omega
  simp only [decode3, c0, rsv_zero _ r0]
  rw [bits_eq w 17 x0 (by omega), bits_eq w 0 x1 (by omega)]
theorem bz (x0 : BitVec 6) (x1 : BitVec 13) : Statement (.bz x0 x1) := by
  intro hf
  have h0 := x0.isLt
  have h1 := x1.isLt
  refine decode_of_raw ?_ hf
  show decodeRaw (427819008 + x0.toNat * 131072 + x1.toNat) 0 = _
  generalize hW : 427819008 + x0.toNat * 131072 + x1.toNat = w
  rw [decodeRaw_class3 _ (by simp only [fld]; omega)]
  have c0 : fld w 23 4 = 3 := by simp only [fld]; omega
  have r0 : fld w 13 4 = 0 := by simp only [fld]; omega
  simp only [decode3, c0, rsv_zero _ r0]
  rw [bits_eq w 17 x0 (by omega), bits_eq w 0 x1 (by omega)]
theorem call (x0 : BitVec 13) : Statement (.call x0) := by
  intro hf
  have h0 := x0.isLt
  refine decode_of_raw ?_ hf
  show decodeRaw (436207616 + x0.toNat) 0 = _
  generalize hW : 436207616 + x0.toNat = w
  rw [decodeRaw_class3 _ (by simp only [fld]; omega)]
  have c0 : fld w 23 4 = 4 := by simp only [fld]; omega
  have r0 : fld w 13 10 = 0 := by simp only [fld]; omega
  simp only [decode3, c0, rsv_zero _ r0]
  rw [bits_eq w 0 x0 (by omega)]
theorem loop (x0 : BitVec 3) (x1 : BitVec 12) (x2 : BitVec 8) : Statement (.loop x0 x1 x2) := by
  intro hf
  have h0 := x0.isLt
  have h1 := x1.isLt
  have h2 := x2.isLt
  refine decode_of_raw ?_ hf
  show decodeRaw (452984832 + x0.toNat * 1048576 + x1.toNat * 256 + x2.toNat) 0 = _
  generalize hW : 452984832 + x0.toNat * 1048576 + x1.toNat * 256 + x2.toNat = w
  rw [decodeRaw_class3 _ (by simp only [fld]; omega)]
  have c0 : fld w 23 4 = 6 := by simp only [fld]; omega
  simp only [decode3, c0]
  rw [bits_eq w 20 x0 (by omega), bits_eq w 8 x1 (by omega), bits_eq w 0 x2 (by omega)]
theorem loops (x0 : BitVec 3) (x1 : BitVec 6) (x2 : BitVec 8) : Statement (.loops x0 x1 x2) := by
  intro hf
  have h0 := x0.isLt
  have h1 := x1.isLt
  have h2 := x2.isLt
  refine decode_of_raw ?_ hf
  show decodeRaw (461373440 + x0.toNat * 1048576 + x1.toNat * 16384 + x2.toNat) 0 = _
  generalize hW : 461373440 + x0.toNat * 1048576 + x1.toNat * 16384 + x2.toNat = w
  rw [decodeRaw_class3 _ (by simp only [fld]; omega)]
  have c0 : fld w 23 4 = 7 := by simp only [fld]; omega
  have r0 : fld w 8 6 = 0 := by simp only [fld]; omega
  simp only [decode3, c0, rsv_zero _ r0]
  rw [bits_eq w 20 x0 (by omega), bits_eq w 14 x1 (by omega), bits_eq w 0 x2 (by omega)]
theorem segb (x0 : BitVec 3) (x1 : BitVec 16) : Statement (.segb x0 x1) := by
  intro hf
  have h0 := x0.isLt
  have h1 := x1.isLt
  refine decode_of_raw ?_ hf
  show decodeRaw (469762048 + x0.toNat * 65536 + x1.toNat) 0 = _
  generalize hW : 469762048 + x0.toNat * 65536 + x1.toNat = w
  rw [decodeRaw_class3 _ (by simp only [fld]; omega)]
  have c0 : fld w 23 4 = 8 := by simp only [fld]; omega
  have r0 : fld w 19 4 = 0 := by simp only [fld]; omega
  simp only [decode3, c0, rsv_zero _ r0]
  rw [bits_eq w 16 x0 (by omega), bits_eq w 0 x1 (by omega)]
theorem sege (x0 : Word) : Statement (.sege x0) := by
  intro hf
  refine decode_of_raw ?_ hf
  show decodeRaw (478150656) x0 = _
  rfl
theorem nexts (x0 : BitVec 6) (x1 : BitVec 5) (x2 : BitVec 12) : Statement (.nexts x0 x1 x2) := by
  intro hf
  have h0 := x0.isLt
  have h1 := x1.isLt
  have h2 := x2.isLt
  refine decode_of_raw ?_ hf
  show decodeRaw (503316480 + x0.toNat * 131072 + x1.toNat * 4096 + x2.toNat) 0 = _
  generalize hW : 503316480 + x0.toNat * 131072 + x1.toNat * 4096 + x2.toNat = w
  rw [decodeRaw_class3 _ (by simp only [fld]; omega)]
  have c0 : fld w 23 4 = 12 := by simp only [fld]; omega
  simp only [decode3, c0]
  rw [bits_eq w 17 x0 (by omega), bits_eq w 12 x1 (by omega), bits_eq w 0 x2 (by omega)]
theorem waits (x0 : BitVec 23) : Statement (.waits x0) := by
  intro hf
  have h0 := x0.isLt
  refine decode_of_raw ?_ hf
  show decodeRaw (511705088 + x0.toNat) 0 = _
  generalize hW : 511705088 + x0.toNat = w
  rw [decodeRaw_class3 _ (by simp only [fld]; omega)]
  have c0 : fld w 23 4 = 13 := by simp only [fld]; omega
  simp only [decode3, c0]
  rw [bits_eq w 0 x0 (by omega)]
theorem ldb (x0 : BitVec 6) (x1 : BitVec 6) (x2 : BitVec 11) : Statement (.ldb x0 x1 x2) := by
  intro hf
  have h0 := x0.isLt
  have h1 := x1.isLt
  have h2 := x2.isLt
  refine decode_of_raw ?_ hf
  show decodeRaw (536870912 + x0.toNat * 2097152 + x1.toNat * 32768 + x2.toNat) 0 = _
  generalize hW : 536870912 + x0.toNat * 2097152 + x1.toNat * 32768 + x2.toNat = w
  rw [decodeRaw_class4 _ (by simp only [fld]; omega)]
  have c0 : fld w 11 4 = 0 := by simp only [fld]; omega
  simp only [decode4, c0]
  rw [bits_eq w 21 x0 (by omega), bits_eq w 15 x1 (by omega), bits_eq w 0 x2 (by omega)]
theorem ldbu (x0 : BitVec 6) (x1 : BitVec 6) (x2 : BitVec 11) : Statement (.ldbu x0 x1 x2) := by
  intro hf
  have h0 := x0.isLt
  have h1 := x1.isLt
  have h2 := x2.isLt
  refine decode_of_raw ?_ hf
  show decodeRaw (536872960 + x0.toNat * 2097152 + x1.toNat * 32768 + x2.toNat) 0 = _
  generalize hW : 536872960 + x0.toNat * 2097152 + x1.toNat * 32768 + x2.toNat = w
  rw [decodeRaw_class4 _ (by simp only [fld]; omega)]
  have c0 : fld w 11 4 = 1 := by simp only [fld]; omega
  simp only [decode4, c0]
  rw [bits_eq w 21 x0 (by omega), bits_eq w 15 x1 (by omega), bits_eq w 0 x2 (by omega)]
theorem ldh (x0 : BitVec 6) (x1 : BitVec 6) (x2 : BitVec 11) : Statement (.ldh x0 x1 x2) := by
  intro hf
  have h0 := x0.isLt
  have h1 := x1.isLt
  have h2 := x2.isLt
  refine decode_of_raw ?_ hf
  show decodeRaw (536875008 + x0.toNat * 2097152 + x1.toNat * 32768 + x2.toNat) 0 = _
  generalize hW : 536875008 + x0.toNat * 2097152 + x1.toNat * 32768 + x2.toNat = w
  rw [decodeRaw_class4 _ (by simp only [fld]; omega)]
  have c0 : fld w 11 4 = 2 := by simp only [fld]; omega
  simp only [decode4, c0]
  rw [bits_eq w 21 x0 (by omega), bits_eq w 15 x1 (by omega), bits_eq w 0 x2 (by omega)]
theorem ldhu (x0 : BitVec 6) (x1 : BitVec 6) (x2 : BitVec 11) : Statement (.ldhu x0 x1 x2) := by
  intro hf
  have h0 := x0.isLt
  have h1 := x1.isLt
  have h2 := x2.isLt
  refine decode_of_raw ?_ hf
  show decodeRaw (536877056 + x0.toNat * 2097152 + x1.toNat * 32768 + x2.toNat) 0 = _
  generalize hW : 536877056 + x0.toNat * 2097152 + x1.toNat * 32768 + x2.toNat = w
  rw [decodeRaw_class4 _ (by simp only [fld]; omega)]
  have c0 : fld w 11 4 = 3 := by simp only [fld]; omega
  simp only [decode4, c0]
  rw [bits_eq w 21 x0 (by omega), bits_eq w 15 x1 (by omega), bits_eq w 0 x2 (by omega)]
theorem ldw (x0 : BitVec 6) (x1 : BitVec 6) (x2 : BitVec 11) : Statement (.ldw x0 x1 x2) := by
  intro hf
  have h0 := x0.isLt
  have h1 := x1.isLt
  have h2 := x2.isLt
  refine decode_of_raw ?_ hf
  show decodeRaw (536879104 + x0.toNat * 2097152 + x1.toNat * 32768 + x2.toNat) 0 = _
  generalize hW : 536879104 + x0.toNat * 2097152 + x1.toNat * 32768 + x2.toNat = w
  rw [decodeRaw_class4 _ (by simp only [fld]; omega)]
  have c0 : fld w 11 4 = 4 := by simp only [fld]; omega
  simp only [decode4, c0]
  rw [bits_eq w 21 x0 (by omega), bits_eq w 15 x1 (by omega), bits_eq w 0 x2 (by omega)]
theorem ldwu (x0 : BitVec 6) (x1 : BitVec 6) (x2 : BitVec 11) : Statement (.ldwu x0 x1 x2) := by
  intro hf
  have h0 := x0.isLt
  have h1 := x1.isLt
  have h2 := x2.isLt
  refine decode_of_raw ?_ hf
  show decodeRaw (536881152 + x0.toNat * 2097152 + x1.toNat * 32768 + x2.toNat) 0 = _
  generalize hW : 536881152 + x0.toNat * 2097152 + x1.toNat * 32768 + x2.toNat = w
  rw [decodeRaw_class4 _ (by simp only [fld]; omega)]
  have c0 : fld w 11 4 = 5 := by simp only [fld]; omega
  simp only [decode4, c0]
  rw [bits_eq w 21 x0 (by omega), bits_eq w 15 x1 (by omega), bits_eq w 0 x2 (by omega)]
theorem ldd (x0 : BitVec 6) (x1 : BitVec 6) (x2 : BitVec 11) : Statement (.ldd x0 x1 x2) := by
  intro hf
  have h0 := x0.isLt
  have h1 := x1.isLt
  have h2 := x2.isLt
  refine decode_of_raw ?_ hf
  show decodeRaw (536883200 + x0.toNat * 2097152 + x1.toNat * 32768 + x2.toNat) 0 = _
  generalize hW : 536883200 + x0.toNat * 2097152 + x1.toNat * 32768 + x2.toNat = w
  rw [decodeRaw_class4 _ (by simp only [fld]; omega)]
  have c0 : fld w 11 4 = 6 := by simp only [fld]; omega
  simp only [decode4, c0]
  rw [bits_eq w 21 x0 (by omega), bits_eq w 15 x1 (by omega), bits_eq w 0 x2 (by omega)]
theorem stb (x0 : BitVec 6) (x1 : BitVec 6) (x2 : BitVec 11) : Statement (.stb x0 x1 x2) := by
  intro hf
  have h0 := x0.isLt
  have h1 := x1.isLt
  have h2 := x2.isLt
  refine decode_of_raw ?_ hf
  show decodeRaw (536885248 + x0.toNat * 2097152 + x1.toNat * 32768 + x2.toNat) 0 = _
  generalize hW : 536885248 + x0.toNat * 2097152 + x1.toNat * 32768 + x2.toNat = w
  rw [decodeRaw_class4 _ (by simp only [fld]; omega)]
  have c0 : fld w 11 4 = 7 := by simp only [fld]; omega
  simp only [decode4, c0]
  rw [bits_eq w 21 x0 (by omega), bits_eq w 15 x1 (by omega), bits_eq w 0 x2 (by omega)]
theorem sth (x0 : BitVec 6) (x1 : BitVec 6) (x2 : BitVec 11) : Statement (.sth x0 x1 x2) := by
  intro hf
  have h0 := x0.isLt
  have h1 := x1.isLt
  have h2 := x2.isLt
  refine decode_of_raw ?_ hf
  show decodeRaw (536887296 + x0.toNat * 2097152 + x1.toNat * 32768 + x2.toNat) 0 = _
  generalize hW : 536887296 + x0.toNat * 2097152 + x1.toNat * 32768 + x2.toNat = w
  rw [decodeRaw_class4 _ (by simp only [fld]; omega)]
  have c0 : fld w 11 4 = 8 := by simp only [fld]; omega
  simp only [decode4, c0]
  rw [bits_eq w 21 x0 (by omega), bits_eq w 15 x1 (by omega), bits_eq w 0 x2 (by omega)]
theorem stw (x0 : BitVec 6) (x1 : BitVec 6) (x2 : BitVec 11) : Statement (.stw x0 x1 x2) := by
  intro hf
  have h0 := x0.isLt
  have h1 := x1.isLt
  have h2 := x2.isLt
  refine decode_of_raw ?_ hf
  show decodeRaw (536889344 + x0.toNat * 2097152 + x1.toNat * 32768 + x2.toNat) 0 = _
  generalize hW : 536889344 + x0.toNat * 2097152 + x1.toNat * 32768 + x2.toNat = w
  rw [decodeRaw_class4 _ (by simp only [fld]; omega)]
  have c0 : fld w 11 4 = 9 := by simp only [fld]; omega
  simp only [decode4, c0]
  rw [bits_eq w 21 x0 (by omega), bits_eq w 15 x1 (by omega), bits_eq w 0 x2 (by omega)]
theorem std (x0 : BitVec 6) (x1 : BitVec 6) (x2 : BitVec 11) : Statement (.std x0 x1 x2) := by
  intro hf
  have h0 := x0.isLt
  have h1 := x1.isLt
  have h2 := x2.isLt
  refine decode_of_raw ?_ hf
  show decodeRaw (536891392 + x0.toNat * 2097152 + x1.toNat * 32768 + x2.toNat) 0 = _
  generalize hW : 536891392 + x0.toNat * 2097152 + x1.toNat * 32768 + x2.toNat = w
  rw [decodeRaw_class4 _ (by simp only [fld]; omega)]
  have c0 : fld w 11 4 = 10 := by simp only [fld]; omega
  simp only [decode4, c0]
  rw [bits_eq w 21 x0 (by omega), bits_eq w 15 x1 (by omega), bits_eq w 0 x2 (by omega)]
theorem lwait (x0 : BitVec 6) (x1 : BitVec 5) : Statement (.lwait x0 x1) := by
  intro hf
  have h0 := x0.isLt
  have h1 := x1.isLt
  refine decode_of_raw ?_ hf
  show decodeRaw (536893440 + x0.toNat * 2097152 + x1.toNat) 0 = _
  generalize hW : 536893440 + x0.toNat * 2097152 + x1.toNat = w
  rw [decodeRaw_class4 _ (by simp only [fld]; omega)]
  have c0 : fld w 11 4 = 11 := by simp only [fld]; omega
  have r0 : fld w 15 6 = 0 := by simp only [fld]; omega
  have r1 : fld w 5 6 = 0 := by simp only [fld]; omega
  simp only [decode4, c0, rsv_zero _ r0, rsv_zero _ r1]
  rw [bits_eq w 21 x0 (by omega), bits_eq w 0 x1 (by omega)]
theorem aadd (x0 : BitVec 6) (x1 : BitVec 6) (x2 : BitVec 6) : Statement (.aadd x0 x1 x2) := by
  intro hf
  have h0 := x0.isLt
  have h1 := x1.isLt
  have h2 := x2.isLt
  refine decode_of_raw ?_ hf
  show decodeRaw (536895488 + x0.toNat * 2097152 + x1.toNat * 32768 + x2.toNat * 32) 0 = _
  generalize hW : 536895488 + x0.toNat * 2097152 + x1.toNat * 32768 + x2.toNat * 32 = w
  rw [decodeRaw_class4 _ (by simp only [fld]; omega)]
  have c0 : fld w 11 4 = 12 := by simp only [fld]; omega
  have c1 : fld w 0 5 = 0 := by simp only [fld]; omega
  simp only [decode4, c0, c1]
  rw [bits_eq w 21 x0 (by omega), bits_eq w 15 x1 (by omega), bits_eq w 5 x2 (by omega)]
theorem aand (x0 : BitVec 6) (x1 : BitVec 6) (x2 : BitVec 6) : Statement (.aand x0 x1 x2) := by
  intro hf
  have h0 := x0.isLt
  have h1 := x1.isLt
  have h2 := x2.isLt
  refine decode_of_raw ?_ hf
  show decodeRaw (536895489 + x0.toNat * 2097152 + x1.toNat * 32768 + x2.toNat * 32) 0 = _
  generalize hW : 536895489 + x0.toNat * 2097152 + x1.toNat * 32768 + x2.toNat * 32 = w
  rw [decodeRaw_class4 _ (by simp only [fld]; omega)]
  have c0 : fld w 11 4 = 12 := by simp only [fld]; omega
  have c1 : fld w 0 5 = 1 := by simp only [fld]; omega
  simp only [decode4, c0, c1]
  rw [bits_eq w 21 x0 (by omega), bits_eq w 15 x1 (by omega), bits_eq w 5 x2 (by omega)]
theorem aor (x0 : BitVec 6) (x1 : BitVec 6) (x2 : BitVec 6) : Statement (.aor x0 x1 x2) := by
  intro hf
  have h0 := x0.isLt
  have h1 := x1.isLt
  have h2 := x2.isLt
  refine decode_of_raw ?_ hf
  show decodeRaw (536895490 + x0.toNat * 2097152 + x1.toNat * 32768 + x2.toNat * 32) 0 = _
  generalize hW : 536895490 + x0.toNat * 2097152 + x1.toNat * 32768 + x2.toNat * 32 = w
  rw [decodeRaw_class4 _ (by simp only [fld]; omega)]
  have c0 : fld w 11 4 = 12 := by simp only [fld]; omega
  have c1 : fld w 0 5 = 2 := by simp only [fld]; omega
  simp only [decode4, c0, c1]
  rw [bits_eq w 21 x0 (by omega), bits_eq w 15 x1 (by omega), bits_eq w 5 x2 (by omega)]
theorem axor (x0 : BitVec 6) (x1 : BitVec 6) (x2 : BitVec 6) : Statement (.axor x0 x1 x2) := by
  intro hf
  have h0 := x0.isLt
  have h1 := x1.isLt
  have h2 := x2.isLt
  refine decode_of_raw ?_ hf
  show decodeRaw (536895491 + x0.toNat * 2097152 + x1.toNat * 32768 + x2.toNat * 32) 0 = _
  generalize hW : 536895491 + x0.toNat * 2097152 + x1.toNat * 32768 + x2.toNat * 32 = w
  rw [decodeRaw_class4 _ (by simp only [fld]; omega)]
  have c0 : fld w 11 4 = 12 := by simp only [fld]; omega
  have c1 : fld w 0 5 = 3 := by simp only [fld]; omega
  simp only [decode4, c0, c1]
  rw [bits_eq w 21 x0 (by omega), bits_eq w 15 x1 (by omega), bits_eq w 5 x2 (by omega)]
theorem amin (x0 : BitVec 6) (x1 : BitVec 6) (x2 : BitVec 6) : Statement (.amin x0 x1 x2) := by
  intro hf
  have h0 := x0.isLt
  have h1 := x1.isLt
  have h2 := x2.isLt
  refine decode_of_raw ?_ hf
  show decodeRaw (536895492 + x0.toNat * 2097152 + x1.toNat * 32768 + x2.toNat * 32) 0 = _
  generalize hW : 536895492 + x0.toNat * 2097152 + x1.toNat * 32768 + x2.toNat * 32 = w
  rw [decodeRaw_class4 _ (by simp only [fld]; omega)]
  have c0 : fld w 11 4 = 12 := by simp only [fld]; omega
  have c1 : fld w 0 5 = 4 := by simp only [fld]; omega
  simp only [decode4, c0, c1]
  rw [bits_eq w 21 x0 (by omega), bits_eq w 15 x1 (by omega), bits_eq w 5 x2 (by omega)]
theorem amax (x0 : BitVec 6) (x1 : BitVec 6) (x2 : BitVec 6) : Statement (.amax x0 x1 x2) := by
  intro hf
  have h0 := x0.isLt
  have h1 := x1.isLt
  have h2 := x2.isLt
  refine decode_of_raw ?_ hf
  show decodeRaw (536895493 + x0.toNat * 2097152 + x1.toNat * 32768 + x2.toNat * 32) 0 = _
  generalize hW : 536895493 + x0.toNat * 2097152 + x1.toNat * 32768 + x2.toNat * 32 = w
  rw [decodeRaw_class4 _ (by simp only [fld]; omega)]
  have c0 : fld w 11 4 = 12 := by simp only [fld]; omega
  have c1 : fld w 0 5 = 5 := by simp only [fld]; omega
  simp only [decode4, c0, c1]
  rw [bits_eq w 21 x0 (by omega), bits_eq w 15 x1 (by omega), bits_eq w 5 x2 (by omega)]
theorem aminu (x0 : BitVec 6) (x1 : BitVec 6) (x2 : BitVec 6) : Statement (.aminu x0 x1 x2) := by
  intro hf
  have h0 := x0.isLt
  have h1 := x1.isLt
  have h2 := x2.isLt
  refine decode_of_raw ?_ hf
  show decodeRaw (536895494 + x0.toNat * 2097152 + x1.toNat * 32768 + x2.toNat * 32) 0 = _
  generalize hW : 536895494 + x0.toNat * 2097152 + x1.toNat * 32768 + x2.toNat * 32 = w
  rw [decodeRaw_class4 _ (by simp only [fld]; omega)]
  have c0 : fld w 11 4 = 12 := by simp only [fld]; omega
  have c1 : fld w 0 5 = 6 := by simp only [fld]; omega
  simp only [decode4, c0, c1]
  rw [bits_eq w 21 x0 (by omega), bits_eq w 15 x1 (by omega), bits_eq w 5 x2 (by omega)]
theorem amaxu (x0 : BitVec 6) (x1 : BitVec 6) (x2 : BitVec 6) : Statement (.amaxu x0 x1 x2) := by
  intro hf
  have h0 := x0.isLt
  have h1 := x1.isLt
  have h2 := x2.isLt
  refine decode_of_raw ?_ hf
  show decodeRaw (536895495 + x0.toNat * 2097152 + x1.toNat * 32768 + x2.toNat * 32) 0 = _
  generalize hW : 536895495 + x0.toNat * 2097152 + x1.toNat * 32768 + x2.toNat * 32 = w
  rw [decodeRaw_class4 _ (by simp only [fld]; omega)]
  have c0 : fld w 11 4 = 12 := by simp only [fld]; omega
  have c1 : fld w 0 5 = 7 := by simp only [fld]; omega
  simp only [decode4, c0, c1]
  rw [bits_eq w 21 x0 (by omega), bits_eq w 15 x1 (by omega), bits_eq w 5 x2 (by omega)]
theorem aswap (x0 : BitVec 6) (x1 : BitVec 6) (x2 : BitVec 6) : Statement (.aswap x0 x1 x2) := by
  intro hf
  have h0 := x0.isLt
  have h1 := x1.isLt
  have h2 := x2.isLt
  refine decode_of_raw ?_ hf
  show decodeRaw (536895496 + x0.toNat * 2097152 + x1.toNat * 32768 + x2.toNat * 32) 0 = _
  generalize hW : 536895496 + x0.toNat * 2097152 + x1.toNat * 32768 + x2.toNat * 32 = w
  rw [decodeRaw_class4 _ (by simp only [fld]; omega)]
  have c0 : fld w 11 4 = 12 := by simp only [fld]; omega
  have c1 : fld w 0 5 = 8 := by simp only [fld]; omega
  simp only [decode4, c0, c1]
  rw [bits_eq w 21 x0 (by omega), bits_eq w 15 x1 (by omega), bits_eq w 5 x2 (by omega)]
theorem acas (x0 : BitVec 6) (x1 : BitVec 6) (x2 : BitVec 6) : Statement (.acas x0 x1 x2) := by
  intro hf
  have h0 := x0.isLt
  have h1 := x1.isLt
  have h2 := x2.isLt
  refine decode_of_raw ?_ hf
  show decodeRaw (536895497 + x0.toNat * 2097152 + x1.toNat * 32768 + x2.toNat * 32) 0 = _
  generalize hW : 536895497 + x0.toNat * 2097152 + x1.toNat * 32768 + x2.toNat * 32 = w
  rw [decodeRaw_class4 _ (by simp only [fld]; omega)]
  have c0 : fld w 11 4 = 12 := by simp only [fld]; omega
  have c1 : fld w 0 5 = 9 := by simp only [fld]; omega
  simp only [decode4, c0, c1]
  rw [bits_eq w 21 x0 (by omega), bits_eq w 15 x1 (by omega), bits_eq w 5 x2 (by omega)]
theorem afadd (x0 : BitVec 6) (x1 : BitVec 6) : Statement (.afadd x0 x1) := by
  intro hf
  have h0 := x0.isLt
  have h1 := x1.isLt
  refine decode_of_raw ?_ hf
  show decodeRaw (536895498 + x0.toNat * 32768 + x1.toNat * 32) 0 = _
  generalize hW : 536895498 + x0.toNat * 32768 + x1.toNat * 32 = w
  rw [decodeRaw_class4 _ (by simp only [fld]; omega)]
  have c0 : fld w 11 4 = 12 := by simp only [fld]; omega
  have c1 : fld w 0 5 = 10 := by simp only [fld]; omega
  have r0 : fld w 21 6 = 0 := by simp only [fld]; omega
  simp only [decode4, c0, c1, rsv_zero _ r0]
  rw [bits_eq w 15 x0 (by omega), bits_eq w 5 x1 (by omega)]
theorem acell (x0 : BitVec 6) (x1 : BitVec 6) : Statement (.acell x0 x1) := by
  intro hf
  have h0 := x0.isLt
  have h1 := x1.isLt
  refine decode_of_raw ?_ hf
  show decodeRaw (536895499 + x0.toNat * 32768 + x1.toNat * 32) 0 = _
  generalize hW : 536895499 + x0.toNat * 32768 + x1.toNat * 32 = w
  rw [decodeRaw_class4 _ (by simp only [fld]; omega)]
  have c0 : fld w 11 4 = 12 := by simp only [fld]; omega
  have c1 : fld w 0 5 = 11 := by simp only [fld]; omega
  have r0 : fld w 21 6 = 0 := by simp only [fld]; omega
  simp only [decode4, c0, c1, rsv_zero _ r0]
  rw [bits_eq w 15 x0 (by omega), bits_eq w 5 x1 (by omega)]
theorem acrd (x0 : BitVec 6) (x1 : BitVec 6) : Statement (.acrd x0 x1) := by
  intro hf
  have h0 := x0.isLt
  have h1 := x1.isLt
  refine decode_of_raw ?_ hf
  show decodeRaw (536895500 + x0.toNat * 2097152 + x1.toNat * 32768) 0 = _
  generalize hW : 536895500 + x0.toNat * 2097152 + x1.toNat * 32768 = w
  rw [decodeRaw_class4 _ (by simp only [fld]; omega)]
  have c0 : fld w 11 4 = 12 := by simp only [fld]; omega
  have c1 : fld w 0 5 = 12 := by simp only [fld]; omega
  have r0 : fld w 5 6 = 0 := by simp only [fld]; omega
  simp only [decode4, c0, c1, rsv_zero _ r0]
  rw [bits_eq w 21 x0 (by omega), bits_eq w 15 x1 (by omega)]
theorem acflg (x0 : BitVec 6) (x1 : BitVec 6) (x2 : BitVec 6) : Statement (.acflg x0 x1 x2) := by
  intro hf
  have h0 := x0.isLt
  have h1 := x1.isLt
  have h2 := x2.isLt
  refine decode_of_raw ?_ hf
  show decodeRaw (536895501 + x0.toNat * 2097152 + x1.toNat * 32768 + x2.toNat * 32) 0 = _
  generalize hW : 536895501 + x0.toNat * 2097152 + x1.toNat * 32768 + x2.toNat * 32 = w
  rw [decodeRaw_class4 _ (by simp only [fld]; omega)]
  have c0 : fld w 11 4 = 12 := by simp only [fld]; omega
  have c1 : fld w 0 5 = 13 := by simp only [fld]; omega
  simp only [decode4, c0, c1]
  rw [bits_eq w 21 x0 (by omega), bits_eq w 15 x1 (by omega), bits_eq w 5 x2 (by omega)]
theorem mwait (x0 : BitVec 6) (x1 : BitVec 6) (x2 : BitVec 6) (x3 : BitVec 5) : Statement (.mwait x0 x1 x2 x3) := by
  intro hf
  have h0 := x0.isLt
  have h1 := x1.isLt
  have h2 := x2.isLt
  have h3 := x3.isLt
  refine decode_of_raw ?_ hf
  show decodeRaw (536899584 + x0.toNat * 2097152 + x1.toNat * 32768 + x2.toNat * 32 + x3.toNat) 0 = _
  generalize hW : 536899584 + x0.toNat * 2097152 + x1.toNat * 32768 + x2.toNat * 32 + x3.toNat = w
  rw [decodeRaw_class4 _ (by simp only [fld]; omega)]
  have c0 : fld w 11 4 = 14 := by simp only [fld]; omega
  simp only [decode4, c0]
  rw [bits_eq w 21 x0 (by omega), bits_eq w 15 x1 (by omega), bits_eq w 5 x2 (by omega), bits_eq w 0 x3 (by omega)]
theorem qwait (x0 : BitVec 6) (x1 : BitVec 5) : Statement (.qwait x0 x1) := by
  intro hf
  have h0 := x0.isLt
  have h1 := x1.isLt
  refine decode_of_raw ?_ hf
  show decodeRaw (536901632 + x0.toNat * 32768 + x1.toNat) 0 = _
  generalize hW : 536901632 + x0.toNat * 32768 + x1.toNat = w
  rw [decodeRaw_class4 _ (by simp only [fld]; omega)]
  have c0 : fld w 11 4 = 15 := by simp only [fld]; omega
  have r0 : fld w 21 6 = 0 := by simp only [fld]; omega
  have r1 : fld w 5 6 = 0 := by simp only [fld]; omega
  simp only [decode4, c0, rsv_zero _ r0, rsv_zero _ r1]
  rw [bits_eq w 15 x0 (by omega), bits_eq w 0 x1 (by omega)]
theorem ckdef (x0 : BitVec 6) (x1 : BitVec 7) (x2 : BitVec 4) (x3 : BitVec 4) : Statement (.ckdef x0 x1 x2 x3) := by
  intro hf
  have h0 := x0.isLt
  have h1 := x1.isLt
  have h2 := x2.isLt
  have h3 := x3.isLt
  refine decode_of_raw ?_ hf
  show decodeRaw (671088640 + x0.toNat * 32768 + x1.toNat * 256 + x2.toNat * 16 + x3.toNat) 0 = _
  generalize hW : 671088640 + x0.toNat * 32768 + x1.toNat * 256 + x2.toNat * 16 + x3.toNat = w
  rw [decodeRaw_class5 _ (by simp only [fld]; omega)]
  have c0 : fld w 23 4 = 0 := by simp only [fld]; omega
  have r0 : fld w 21 2 = 0 := by simp only [fld]; omega
  simp only [decode5, c0, rsv_zero _ r0]
  rw [bits_eq w 15 x0 (by omega), bits_eq w 8 x1 (by omega), bits_eq w 4 x2 (by omega), bits_eq w 0 x3 (by omega)]
theorem ckneg (x0 : BitVec 4) (x1 : BitVec 4) : Statement (.ckneg x0 x1) := by
  intro hf
  have h0 := x0.isLt
  have h1 := x1.isLt
  refine decode_of_raw ?_ hf
  show decodeRaw (679477248 + x0.toNat * 16 + x1.toNat) 0 = _
  generalize hW : 679477248 + x0.toNat * 16 + x1.toNat = w
  rw [decodeRaw_class5 _ (by simp only [fld]; omega)]
  have c0 : fld w 23 4 = 1 := by simp only [fld]; omega
  have r0 : fld w 8 15 = 0 := by simp only [fld]; omega
  simp only [decode5, c0, rsv_zero _ r0]
  rw [bits_eq w 4 x0 (by omega), bits_eq w 0 x1 (by omega)]
theorem when (x0 : BitVec 7) (x1 : BitVec 7) (x2 : BitVec 4) : Statement (.when x0 x1 x2) := by
  intro hf
  have h0 := x0.isLt
  have h1 := x1.isLt
  have h2 := x2.isLt
  refine decode_of_raw ?_ hf
  show decodeRaw (687865856 + x0.toNat * 32768 + x1.toNat * 256 + x2.toNat * 16) 0 = _
  generalize hW : 687865856 + x0.toNat * 32768 + x1.toNat * 256 + x2.toNat * 16 = w
  rw [decodeRaw_class5 _ (by simp only [fld]; omega)]
  have c0 : fld w 23 4 = 2 := by simp only [fld]; omega
  have c1 : fld w 22 1 = 0 := by simp only [fld]; omega
  have r0 : fld w 0 4 = 0 := by simp only [fld]; omega
  simp only [decode5, c0, c1, rsv_zero _ r0]
  rw [bits_eq w 15 x0 (by omega), bits_eq w 8 x1 (by omega), bits_eq w 4 x2 (by omega)]
theorem whenT (x0 : BitVec 7) (x1 : BitVec 7) (x2 : BitVec 4) : Statement (.whenT x0 x1 x2) := by
  intro hf
  have h0 := x0.isLt
  have h1 := x1.isLt
  have h2 := x2.isLt
  refine decode_of_raw ?_ hf
  show decodeRaw (692060160 + x0.toNat * 32768 + x1.toNat * 256 + x2.toNat * 16) 0 = _
  generalize hW : 692060160 + x0.toNat * 32768 + x1.toNat * 256 + x2.toNat * 16 = w
  rw [decodeRaw_class5 _ (by simp only [fld]; omega)]
  have c0 : fld w 23 4 = 2 := by simp only [fld]; omega
  have c1 : fld w 22 1 = 1 := by simp only [fld]; omega
  have r0 : fld w 0 4 = 0 := by simp only [fld]; omega
  simp only [decode5, c0, c1, rsv_zero _ r0]
  rw [bits_eq w 15 x0 (by omega), bits_eq w 8 x1 (by omega), bits_eq w 4 x2 (by omega)]
theorem merge (x0 : BitVec 7) (x1 : BitVec 7) (x2 : BitVec 4) : Statement (.merge x0 x1 x2) := by
  intro hf
  have h0 := x0.isLt
  have h1 := x1.isLt
  have h2 := x2.isLt
  refine decode_of_raw ?_ hf
  show decodeRaw (696254464 + x0.toNat * 32768 + x1.toNat * 256 + x2.toNat * 16) 0 = _
  generalize hW : 696254464 + x0.toNat * 32768 + x1.toNat * 256 + x2.toNat * 16 = w
  rw [decodeRaw_class5 _ (by simp only [fld]; omega)]
  have c0 : fld w 23 4 = 3 := by simp only [fld]; omega
  have c1 : fld w 22 1 = 0 := by simp only [fld]; omega
  have r0 : fld w 0 4 = 0 := by simp only [fld]; omega
  simp only [decode5, c0, c1, rsv_zero _ r0]
  rw [bits_eq w 15 x0 (by omega), bits_eq w 8 x1 (by omega), bits_eq w 4 x2 (by omega)]
theorem mergeT (x0 : BitVec 7) (x1 : BitVec 7) (x2 : BitVec 4) : Statement (.mergeT x0 x1 x2) := by
  intro hf
  have h0 := x0.isLt
  have h1 := x1.isLt
  have h2 := x2.isLt
  refine decode_of_raw ?_ hf
  show decodeRaw (700448768 + x0.toNat * 32768 + x1.toNat * 256 + x2.toNat * 16) 0 = _
  generalize hW : 700448768 + x0.toNat * 32768 + x1.toNat * 256 + x2.toNat * 16 = w
  rw [decodeRaw_class5 _ (by simp only [fld]; omega)]
  have c0 : fld w 23 4 = 3 := by simp only [fld]; omega
  have c1 : fld w 22 1 = 1 := by simp only [fld]; omega
  have r0 : fld w 0 4 = 0 := by simp only [fld]; omega
  simp only [decode5, c0, c1, rsv_zero _ r0]
  rw [bits_eq w 15 x0 (by omega), bits_eq w 8 x1 (by omega), bits_eq w 4 x2 (by omega)]
theorem dlyi (x0 : BitVec 7) (x1 : BitVec 4) (x2 : BitVec 4) : Statement (.dlyi x0 x1 x2) := by
  intro hf
  have h0 := x0.isLt
  have h1 := x1.isLt
  have h2 := x2.isLt
  refine decode_of_raw ?_ hf
  show decodeRaw (704643072 + x0.toNat * 256 + x1.toNat * 16 + x2.toNat) 0 = _
  generalize hW : 704643072 + x0.toNat * 256 + x1.toNat * 16 + x2.toNat = w
  rw [decodeRaw_class5 _ (by simp only [fld]; omega)]
  have c0 : fld w 23 4 = 4 := by simp only [fld]; omega
  have r0 : fld w 15 8 = 0 := by simp only [fld]; omega
  simp only [decode5, c0, rsv_zero _ r0]
  rw [bits_eq w 8 x0 (by omega), bits_eq w 4 x1 (by omega), bits_eq w 0 x2 (by omega)]
theorem dlyr (x0 : BitVec 7) (x1 : BitVec 4) : Statement (.dlyr x0 x1) := by
  intro hf
  have h0 := x0.isLt
  have h1 := x1.isLt
  refine decode_of_raw ?_ hf
  show decodeRaw (713031680 + x0.toNat * 32768 + x1.toNat) 0 = _
  generalize hW : 713031680 + x0.toNat * 32768 + x1.toNat = w
  rw [decodeRaw_class5 _ (by simp only [fld]; omega)]
  have c0 : fld w 23 4 = 5 := by simp only [fld]; omega
  have r0 : fld w 22 1 = 0 := by simp only [fld]; omega
  have r1 : fld w 4 11 = 0 := by simp only [fld]; omega
  simp only [decode5, c0, rsv_zero _ r0, rsv_zero _ r1]
  rw [bits_eq w 15 x0 (by omega), bits_eq w 0 x1 (by omega)]
theorem dlyw (x0 : BitVec 7) (x1 : BitVec 4) : Statement (.dlyw x0 x1) := by
  intro hf
  have h0 := x0.isLt
  have h1 := x1.isLt
  refine decode_of_raw ?_ hf
  show decodeRaw (721420288 + x0.toNat * 256 + x1.toNat) 0 = _
  generalize hW : 721420288 + x0.toNat * 256 + x1.toNat = w
  rw [decodeRaw_class5 _ (by simp only [fld]; omega)]
  have c0 : fld w 23 4 = 6 := by simp only [fld]; omega
  have r0 : fld w 15 8 = 0 := by simp only [fld]; omega
  have r1 : fld w 4 4 = 0 := by simp only [fld]; omega
  simp only [decode5, c0, rsv_zero _ r0, rsv_zero _ r1]
  rw [bits_eq w 8 x0 (by omega), bits_eq w 0 x1 (by omega)]
theorem cktst (x0 : BitVec 7) (x1 : BitVec 4) : Statement (.cktst x0 x1) := by
  intro hf
  have h0 := x0.isLt
  have h1 := x1.isLt
  refine decode_of_raw ?_ hf
  show decodeRaw (729808896 + x0.toNat * 32768 + x1.toNat * 16) 0 = _
  generalize hW : 729808896 + x0.toNat * 32768 + x1.toNat * 16 = w
  rw [decodeRaw_class5 _ (by simp only [fld]; omega)]
  have c0 : fld w 23 4 = 7 := by simp only [fld]; omega
  have r0 : fld w 22 1 = 0 := by simp only [fld]; omega
  have r1 : fld w 8 7 = 0 := by simp only [fld]; omega
  have r2 : fld w 0 4 = 0 := by simp only [fld]; omega
  simp only [decode5, c0, rsv_zero _ r0, rsv_zero _ r1, rsv_zero _ r2]
  rw [bits_eq w 15 x0 (by omega), bits_eq w 4 x1 (by omega)]
theorem ckstat (x0 : BitVec 7) (x1 : BitVec 4) : Statement (.ckstat x0 x1) := by
  intro hf
  have h0 := x0.isLt
  have h1 := x1.isLt
  refine decode_of_raw ?_ hf
  show decodeRaw (738197504 + x0.toNat * 32768 + x1.toNat * 16) 0 = _
  generalize hW : 738197504 + x0.toNat * 32768 + x1.toNat * 16 = w
  rw [decodeRaw_class5 _ (by simp only [fld]; omega)]
  have c0 : fld w 23 4 = 8 := by simp only [fld]; omega
  have r0 : fld w 22 1 = 0 := by simp only [fld]; omega
  have r1 : fld w 8 7 = 0 := by simp only [fld]; omega
  have r2 : fld w 0 4 = 0 := by simp only [fld]; omega
  simp only [decode5, c0, rsv_zero _ r0, rsv_zero _ r1, rsv_zero _ r2]
  rw [bits_eq w 15 x0 (by omega), bits_eq w 4 x1 (by omega)]
theorem rbegin (x0 : BitVec 5) : Statement (.rbegin x0) := by
  intro hf
  have h0 := x0.isLt
  refine decode_of_raw ?_ hf
  show decodeRaw (805306368 + x0.toNat) 0 = _
  generalize hW : 805306368 + x0.toNat = w
  rw [decodeRaw_class6 _ (by simp only [fld]; omega)]
  have c0 : fld w 23 4 = 0 := by simp only [fld]; omega
  have r0 : fld w 5 18 = 0 := by simp only [fld]; omega
  simp only [decode6, c0, rsv_zero _ r0]
  rw [bits_eq w 0 x0 (by omega)]
theorem rpresvS (x0 : BitVec 6) (x1 : BitVec 6) : Statement (.rpresvS x0 x1) := by
  intro hf
  have h0 := x0.isLt
  have h1 := x1.isLt
  refine decode_of_raw ?_ hf
  show decodeRaw (813694976 + x0.toNat * 131072 + x1.toNat * 2048) 0 = _
  generalize hW : 813694976 + x0.toNat * 131072 + x1.toNat * 2048 = w
  rw [decodeRaw_class6 _ (by simp only [fld]; omega)]
  have c0 : fld w 23 4 = 1 := by simp only [fld]; omega
  have r0 : fld w 0 11 = 0 := by simp only [fld]; omega
  simp only [decode6, c0, rsv_zero _ r0]
  rw [bits_eq w 17 x0 (by omega), bits_eq w 11 x1 (by omega)]
theorem rpresvT (x0 : BitVec 7) (x1 : BitVec 7) : Statement (.rpresvT x0 x1) := by
  intro hf
  have h0 := x0.isLt
  have h1 := x1.isLt
  refine decode_of_raw ?_ hf
  show decodeRaw (822083584 + x0.toNat * 65536 + x1.toNat * 512) 0 = _
  generalize hW : 822083584 + x0.toNat * 65536 + x1.toNat * 512 = w
  rw [decodeRaw_class6 _ (by simp only [fld]; omega)]
  have c0 : fld w 23 4 = 2 := by simp only [fld]; omega
  have r0 : fld w 0 9 = 0 := by simp only [fld]; omega
  simp only [decode6, c0, rsv_zero _ r0]
  rw [bits_eq w 16 x0 (by omega), bits_eq w 9 x1 (by omega)]
theorem rpresvM (x0 : BitVec 6) (x1 : BitVec 6) : Statement (.rpresvM x0 x1) := by
  intro hf
  have h0 := x0.isLt
  have h1 := x1.isLt
  refine decode_of_raw ?_ hf
  show decodeRaw (830472192 + x0.toNat * 131072 + x1.toNat * 2048) 0 = _
  generalize hW : 830472192 + x0.toNat * 131072 + x1.toNat * 2048 = w
  rw [decodeRaw_class6 _ (by simp only [fld]; omega)]
  have c0 : fld w 23 4 = 3 := by simp only [fld]; omega
  have r0 : fld w 0 11 = 0 := by simp only [fld]; omega
  simp only [decode6, c0, rsv_zero _ r0]
  rw [bits_eq w 17 x0 (by omega), bits_eq w 11 x1 (by omega)]
theorem rpresvC (x0 : BitVec 8) : Statement (.rpresvC x0) := by
  intro hf
  have h0 := x0.isLt
  refine decode_of_raw ?_ hf
  show decodeRaw (838860800 + x0.toNat * 32768) 0 = _
  generalize hW : 838860800 + x0.toNat * 32768 = w
  rw [decodeRaw_class6 _ (by simp only [fld]; omega)]
  have c0 : fld w 23 4 = 4 := by simp only [fld]; omega
  have r0 : fld w 0 15 = 0 := by simp only [fld]; omega
  simp only [decode6, c0, rsv_zero _ r0]
  rw [bits_eq w 15 x0 (by omega)]
theorem rend (x0 : BitVec 5) : Statement (.rend x0) := by
  intro hf
  have h0 := x0.isLt
  refine decode_of_raw ?_ hf
  show decodeRaw (847249408 + x0.toNat) 0 = _
  generalize hW : 847249408 + x0.toNat = w
  rw [decodeRaw_class6 _ (by simp only [fld]; omega)]
  have c0 : fld w 23 4 = 5 := by simp only [fld]; omega
  have r0 : fld w 5 18 = 0 := by simp only [fld]; omega
  simp only [decode6, c0, rsv_zero _ r0]
  rw [bits_eq w 0 x0 (by omega)]
theorem rpol (x0 : BitVec 6) : Statement (.rpol x0) := by
  intro hf
  have h0 := x0.isLt
  refine decode_of_raw ?_ hf
  show decodeRaw (864026624 + x0.toNat * 131072) 0 = _
  generalize hW : 864026624 + x0.toNat * 131072 = w
  rw [decodeRaw_class6 _ (by simp only [fld]; omega)]
  have c0 : fld w 23 4 = 7 := by simp only [fld]; omega
  have r0 : fld w 0 17 = 0 := by simp only [fld]; omega
  simp only [decode6, c0, rsv_zero _ r0]
  rw [bits_eq w 17 x0 (by omega)]
theorem safept (x0 : BitVec 8) : Statement (.safept x0) := by
  intro hf
  have h0 := x0.isLt
  refine decode_of_raw ?_ hf
  show decodeRaw (872415232 + x0.toNat * 32768) 0 = _
  generalize hW : 872415232 + x0.toNat * 32768 = w
  rw [decodeRaw_class6 _ (by simp only [fld]; omega)]
  have c0 : fld w 23 4 = 8 := by simp only [fld]; omega
  have r0 : fld w 0 15 = 0 := by simp only [fld]; omega
  simp only [decode6, c0, rsv_zero _ r0]
  rw [bits_eq w 15 x0 (by omega)]
theorem csrr (x0 : BitVec 6) (x1 : BitVec 12) : Statement (.csrr x0 x1) := by
  intro hf
  have h0 := x0.isLt
  have h1 := x1.isLt
  refine decode_of_raw ?_ hf
  show decodeRaw (939524096 + x0.toNat * 131072 + x1.toNat) 0 = _
  generalize hW : 939524096 + x0.toNat * 131072 + x1.toNat = w
  rw [decodeRaw_class7 _ (by simp only [fld]; omega)]
  have c0 : fld w 23 4 = 0 := by simp only [fld]; omega
  have r0 : fld w 12 5 = 0 := by simp only [fld]; omega
  simp only [decode7, c0, rsv_zero _ r0]
  rw [bits_eq w 17 x0 (by omega), bits_eq w 0 x1 (by omega)]
theorem csrw (x0 : BitVec 6) (x1 : BitVec 12) : Statement (.csrw x0 x1) := by
  intro hf
  have h0 := x0.isLt
  have h1 := x1.isLt
  refine decode_of_raw ?_ hf
  show decodeRaw (947912704 + x0.toNat * 131072 + x1.toNat) 0 = _
  generalize hW : 947912704 + x0.toNat * 131072 + x1.toNat = w
  rw [decodeRaw_class7 _ (by simp only [fld]; omega)]
  have c0 : fld w 23 4 = 1 := by simp only [fld]; omega
  have r0 : fld w 12 5 = 0 := by simp only [fld]; omega
  simp only [decode7, c0, rsv_zero _ r0]
  rw [bits_eq w 17 x0 (by omega), bits_eq w 0 x1 (by omega)]
theorem csrs (x0 : BitVec 6) (x1 : BitVec 12) : Statement (.csrs x0 x1) := by
  intro hf
  have h0 := x0.isLt
  have h1 := x1.isLt
  refine decode_of_raw ?_ hf
  show decodeRaw (956301312 + x0.toNat * 131072 + x1.toNat) 0 = _
  generalize hW : 956301312 + x0.toNat * 131072 + x1.toNat = w
  rw [decodeRaw_class7 _ (by simp only [fld]; omega)]
  have c0 : fld w 23 4 = 2 := by simp only [fld]; omega
  have r0 : fld w 12 5 = 0 := by simp only [fld]; omega
  simp only [decode7, c0, rsv_zero _ r0]
  rw [bits_eq w 17 x0 (by omega), bits_eq w 0 x1 (by omega)]
theorem csrc (x0 : BitVec 6) (x1 : BitVec 12) : Statement (.csrc x0 x1) := by
  intro hf
  have h0 := x0.isLt
  have h1 := x1.isLt
  refine decode_of_raw ?_ hf
  show decodeRaw (964689920 + x0.toNat * 131072 + x1.toNat) 0 = _
  generalize hW : 964689920 + x0.toNat * 131072 + x1.toNat = w
  rw [decodeRaw_class7 _ (by simp only [fld]; omega)]
  have c0 : fld w 23 4 = 3 := by simp only [fld]; omega
  have r0 : fld w 12 5 = 0 := by simp only [fld]; omega
  simp only [decode7, c0, rsv_zero _ r0]
  rw [bits_eq w 17 x0 (by omega), bits_eq w 0 x1 (by omega)]
theorem trap (x0 : BitVec 16) : Statement (.trap x0) := by
  intro hf
  have h0 := x0.isLt
  refine decode_of_raw ?_ hf
  show decodeRaw (973078528 + x0.toNat) 0 = _
  generalize hW : 973078528 + x0.toNat = w
  rw [decodeRaw_class7 _ (by simp only [fld]; omega)]
  have c0 : fld w 23 4 = 4 := by simp only [fld]; omega
  have r0 : fld w 16 7 = 0 := by simp only [fld]; omega
  simp only [decode7, c0, rsv_zero _ r0]
  rw [bits_eq w 0 x0 (by omega)]
theorem brk (x0 : BitVec 16) : Statement (.brk x0) := by
  intro hf
  have h0 := x0.isLt
  refine decode_of_raw ?_ hf
  show decodeRaw (989855744 + x0.toNat) 0 = _
  generalize hW : 989855744 + x0.toNat = w
  rw [decodeRaw_class7 _ (by simp only [fld]; omega)]
  have c0 : fld w 23 4 = 6 := by simp only [fld]; omega
  have r0 : fld w 16 7 = 0 := by simp only [fld]; omega
  simp only [decode7, c0, rsv_zero _ r0]
  rw [bits_eq w 0 x0 (by omega)]
theorem fidel (x0 : BitVec 2) : Statement (.fidel x0) := by
  intro hf
  have h0 := x0.isLt
  refine decode_of_raw ?_ hf
  show decodeRaw (998244352 + x0.toNat) 0 = _
  generalize hW : 998244352 + x0.toNat = w
  rw [decodeRaw_class7 _ (by simp only [fld]; omega)]
  have c0 : fld w 23 4 = 7 := by simp only [fld]; omega
  have r0 : fld w 2 21 = 0 := by simp only [fld]; omega
  simp only [decode7, c0, rsv_zero _ r0]
  rw [bits_eq w 0 x0 (by omega)]
theorem clkdiv (x0 : BitVec 2) (x1 : BitVec 3) : Statement (.clkdiv x0 x1) := by
  intro hf
  have h0 := x0.isLt
  have h1 := x1.isLt
  refine decode_of_raw ?_ hf
  show decodeRaw (1006632960 + x0.toNat * 8 + x1.toNat) 0 = _
  generalize hW : 1006632960 + x0.toNat * 8 + x1.toNat = w
  rw [decodeRaw_class7 _ (by simp only [fld]; omega)]
  have c0 : fld w 23 4 = 8 := by simp only [fld]; omega
  have r0 : fld w 5 18 = 0 := by simp only [fld]; omega
  simp only [decode7, c0, rsv_zero _ r0]
  rw [bits_eq w 3 x0 (by omega), bits_eq w 0 x1 (by omega)]
theorem killc (x0 : BitVec 6) : Statement (.killc x0) := by
  intro hf
  have h0 := x0.isLt
  refine decode_of_raw ?_ hf
  show decodeRaw (1023410176 + x0.toNat * 131072) 0 = _
  generalize hW : 1023410176 + x0.toNat * 131072 = w
  rw [decodeRaw_class7 _ (by simp only [fld]; omega)]
  have c0 : fld w 23 4 = 10 := by simp only [fld]; omega
  have r0 : fld w 0 17 = 0 := by simp only [fld]; omega
  simp only [decode7, c0, rsv_zero _ r0]
  rw [bits_eq w 17 x0 (by omega)]
theorem tlblk (x0 : BitVec 6) (x1 : BitVec 6) : Statement (.tlblk x0 x1) := by
  intro hf
  have h0 := x0.isLt
  have h1 := x1.isLt
  refine decode_of_raw ?_ hf
  show decodeRaw (1031798784 + x0.toNat * 131072 + x1.toNat * 2048) 0 = _
  generalize hW : 1031798784 + x0.toNat * 131072 + x1.toNat * 2048 = w
  rw [decodeRaw_class7 _ (by simp only [fld]; omega)]
  have c0 : fld w 23 4 = 11 := by simp only [fld]; omega
  have r0 : fld w 0 11 = 0 := by simp only [fld]; omega
  simp only [decode7, c0, rsv_zero _ r0]
  rw [bits_eq w 17 x0 (by omega), bits_eq w 11 x1 (by omega)]
theorem vadd (x0 : BitVec 7) (x1 : BitVec 7) (x2 : BitVec 7) (x3 : BitVec 2) : Statement (.vadd x0 x1 x2 x3) := by
  intro hf
  have h0 := x0.isLt
  have h1 := x1.isLt
  have h2 := x2.isLt
  have h3 := x3.isLt
  refine decode_of_raw ?_ hf
  show decodeRaw (1073741824 + x0.toNat * 1048576 + x1.toNat * 8192 + x2.toNat * 64 + x3.toNat) 0 = _
  generalize hW : 1073741824 + x0.toNat * 1048576 + x1.toNat * 8192 + x2.toNat * 64 + x3.toNat = w
  rw [decodeRaw_class8 _ (by simp only [fld]; omega)]
  have c0 : fld w 2 4 = 0 := by simp only [fld]; omega
  simp only [decode8, c0]
  rw [bits_eq w 20 x0 (by omega), bits_eq w 13 x1 (by omega), bits_eq w 6 x2 (by omega), bits_eq w 0 x3 (by omega)]
theorem vsub (x0 : BitVec 7) (x1 : BitVec 7) (x2 : BitVec 7) (x3 : BitVec 2) : Statement (.vsub x0 x1 x2 x3) := by
  intro hf
  have h0 := x0.isLt
  have h1 := x1.isLt
  have h2 := x2.isLt
  have h3 := x3.isLt
  refine decode_of_raw ?_ hf
  show decodeRaw (1073741828 + x0.toNat * 1048576 + x1.toNat * 8192 + x2.toNat * 64 + x3.toNat) 0 = _
  generalize hW : 1073741828 + x0.toNat * 1048576 + x1.toNat * 8192 + x2.toNat * 64 + x3.toNat = w
  rw [decodeRaw_class8 _ (by simp only [fld]; omega)]
  have c0 : fld w 2 4 = 1 := by simp only [fld]; omega
  simp only [decode8, c0]
  rw [bits_eq w 20 x0 (by omega), bits_eq w 13 x1 (by omega), bits_eq w 6 x2 (by omega), bits_eq w 0 x3 (by omega)]
theorem vadds (x0 : BitVec 7) (x1 : BitVec 7) (x2 : BitVec 7) (x3 : BitVec 2) : Statement (.vadds x0 x1 x2 x3) := by
  intro hf
  have h0 := x0.isLt
  have h1 := x1.isLt
  have h2 := x2.isLt
  have h3 := x3.isLt
  refine decode_of_raw ?_ hf
  show decodeRaw (1073741832 + x0.toNat * 1048576 + x1.toNat * 8192 + x2.toNat * 64 + x3.toNat) 0 = _
  generalize hW : 1073741832 + x0.toNat * 1048576 + x1.toNat * 8192 + x2.toNat * 64 + x3.toNat = w
  rw [decodeRaw_class8 _ (by simp only [fld]; omega)]
  have c0 : fld w 2 4 = 2 := by simp only [fld]; omega
  simp only [decode8, c0]
  rw [bits_eq w 20 x0 (by omega), bits_eq w 13 x1 (by omega), bits_eq w 6 x2 (by omega), bits_eq w 0 x3 (by omega)]
theorem vaddsu (x0 : BitVec 7) (x1 : BitVec 7) (x2 : BitVec 7) (x3 : BitVec 2) : Statement (.vaddsu x0 x1 x2 x3) := by
  intro hf
  have h0 := x0.isLt
  have h1 := x1.isLt
  have h2 := x2.isLt
  have h3 := x3.isLt
  refine decode_of_raw ?_ hf
  show decodeRaw (1073741836 + x0.toNat * 1048576 + x1.toNat * 8192 + x2.toNat * 64 + x3.toNat) 0 = _
  generalize hW : 1073741836 + x0.toNat * 1048576 + x1.toNat * 8192 + x2.toNat * 64 + x3.toNat = w
  rw [decodeRaw_class8 _ (by simp only [fld]; omega)]
  have c0 : fld w 2 4 = 3 := by simp only [fld]; omega
  simp only [decode8, c0]
  rw [bits_eq w 20 x0 (by omega), bits_eq w 13 x1 (by omega), bits_eq w 6 x2 (by omega), bits_eq w 0 x3 (by omega)]
theorem vmul (x0 : BitVec 7) (x1 : BitVec 7) (x2 : BitVec 7) (x3 : BitVec 2) : Statement (.vmul x0 x1 x2 x3) := by
  intro hf
  have h0 := x0.isLt
  have h1 := x1.isLt
  have h2 := x2.isLt
  have h3 := x3.isLt
  refine decode_of_raw ?_ hf
  show decodeRaw (1073741840 + x0.toNat * 1048576 + x1.toNat * 8192 + x2.toNat * 64 + x3.toNat) 0 = _
  generalize hW : 1073741840 + x0.toNat * 1048576 + x1.toNat * 8192 + x2.toNat * 64 + x3.toNat = w
  rw [decodeRaw_class8 _ (by simp only [fld]; omega)]
  have c0 : fld w 2 4 = 4 := by simp only [fld]; omega
  simp only [decode8, c0]
  rw [bits_eq w 20 x0 (by omega), bits_eq w 13 x1 (by omega), bits_eq w 6 x2 (by omega), bits_eq w 0 x3 (by omega)]
theorem vmulh (x0 : BitVec 7) (x1 : BitVec 7) (x2 : BitVec 7) (x3 : BitVec 2) : Statement (.vmulh x0 x1 x2 x3) := by
  intro hf
  have h0 := x0.isLt
  have h1 := x1.isLt
  have h2 := x2.isLt
  have h3 := x3.isLt
  refine decode_of_raw ?_ hf
  show decodeRaw (1073741844 + x0.toNat * 1048576 + x1.toNat * 8192 + x2.toNat * 64 + x3.toNat) 0 = _
  generalize hW : 1073741844 + x0.toNat * 1048576 + x1.toNat * 8192 + x2.toNat * 64 + x3.toNat = w
  rw [decodeRaw_class8 _ (by simp only [fld]; omega)]
  have c0 : fld w 2 4 = 5 := by simp only [fld]; omega
  simp only [decode8, c0]
  rw [bits_eq w 20 x0 (by omega), bits_eq w 13 x1 (by omega), bits_eq w 6 x2 (by omega), bits_eq w 0 x3 (by omega)]
theorem vmin (x0 : BitVec 7) (x1 : BitVec 7) (x2 : BitVec 7) (x3 : BitVec 2) : Statement (.vmin x0 x1 x2 x3) := by
  intro hf
  have h0 := x0.isLt
  have h1 := x1.isLt
  have h2 := x2.isLt
  have h3 := x3.isLt
  refine decode_of_raw ?_ hf
  show decodeRaw (1073741848 + x0.toNat * 1048576 + x1.toNat * 8192 + x2.toNat * 64 + x3.toNat) 0 = _
  generalize hW : 1073741848 + x0.toNat * 1048576 + x1.toNat * 8192 + x2.toNat * 64 + x3.toNat = w
  rw [decodeRaw_class8 _ (by simp only [fld]; omega)]
  have c0 : fld w 2 4 = 6 := by simp only [fld]; omega
  simp only [decode8, c0]
  rw [bits_eq w 20 x0 (by omega), bits_eq w 13 x1 (by omega), bits_eq w 6 x2 (by omega), bits_eq w 0 x3 (by omega)]
theorem vmax (x0 : BitVec 7) (x1 : BitVec 7) (x2 : BitVec 7) (x3 : BitVec 2) : Statement (.vmax x0 x1 x2 x3) := by
  intro hf
  have h0 := x0.isLt
  have h1 := x1.isLt
  have h2 := x2.isLt
  have h3 := x3.isLt
  refine decode_of_raw ?_ hf
  show decodeRaw (1073741852 + x0.toNat * 1048576 + x1.toNat * 8192 + x2.toNat * 64 + x3.toNat) 0 = _
  generalize hW : 1073741852 + x0.toNat * 1048576 + x1.toNat * 8192 + x2.toNat * 64 + x3.toNat = w
  rw [decodeRaw_class8 _ (by simp only [fld]; omega)]
  have c0 : fld w 2 4 = 7 := by simp only [fld]; omega
  simp only [decode8, c0]
  rw [bits_eq w 20 x0 (by omega), bits_eq w 13 x1 (by omega), bits_eq w 6 x2 (by omega), bits_eq w 0 x3 (by omega)]
theorem vminu (x0 : BitVec 7) (x1 : BitVec 7) (x2 : BitVec 7) (x3 : BitVec 2) : Statement (.vminu x0 x1 x2 x3) := by
  intro hf
  have h0 := x0.isLt
  have h1 := x1.isLt
  have h2 := x2.isLt
  have h3 := x3.isLt
  refine decode_of_raw ?_ hf
  show decodeRaw (1073741856 + x0.toNat * 1048576 + x1.toNat * 8192 + x2.toNat * 64 + x3.toNat) 0 = _
  generalize hW : 1073741856 + x0.toNat * 1048576 + x1.toNat * 8192 + x2.toNat * 64 + x3.toNat = w
  rw [decodeRaw_class8 _ (by simp only [fld]; omega)]
  have c0 : fld w 2 4 = 8 := by simp only [fld]; omega
  simp only [decode8, c0]
  rw [bits_eq w 20 x0 (by omega), bits_eq w 13 x1 (by omega), bits_eq w 6 x2 (by omega), bits_eq w 0 x3 (by omega)]
theorem vmaxu (x0 : BitVec 7) (x1 : BitVec 7) (x2 : BitVec 7) (x3 : BitVec 2) : Statement (.vmaxu x0 x1 x2 x3) := by
  intro hf
  have h0 := x0.isLt
  have h1 := x1.isLt
  have h2 := x2.isLt
  have h3 := x3.isLt
  refine decode_of_raw ?_ hf
  show decodeRaw (1073741860 + x0.toNat * 1048576 + x1.toNat * 8192 + x2.toNat * 64 + x3.toNat) 0 = _
  generalize hW : 1073741860 + x0.toNat * 1048576 + x1.toNat * 8192 + x2.toNat * 64 + x3.toNat = w
  rw [decodeRaw_class8 _ (by simp only [fld]; omega)]
  have c0 : fld w 2 4 = 9 := by simp only [fld]; omega
  simp only [decode8, c0]
  rw [bits_eq w 20 x0 (by omega), bits_eq w 13 x1 (by omega), bits_eq w 6 x2 (by omega), bits_eq w 0 x3 (by omega)]
theorem vand (x0 : BitVec 7) (x1 : BitVec 7) (x2 : BitVec 7) (x3 : BitVec 2) : Statement (.vand x0 x1 x2 x3) := by
  intro hf
  have h0 := x0.isLt
  have h1 := x1.isLt
  have h2 := x2.isLt
  have h3 := x3.isLt
  refine decode_of_raw ?_ hf
  show decodeRaw (1073741864 + x0.toNat * 1048576 + x1.toNat * 8192 + x2.toNat * 64 + x3.toNat) 0 = _
  generalize hW : 1073741864 + x0.toNat * 1048576 + x1.toNat * 8192 + x2.toNat * 64 + x3.toNat = w
  rw [decodeRaw_class8 _ (by simp only [fld]; omega)]
  have c0 : fld w 2 4 = 10 := by simp only [fld]; omega
  simp only [decode8, c0]
  rw [bits_eq w 20 x0 (by omega), bits_eq w 13 x1 (by omega), bits_eq w 6 x2 (by omega), bits_eq w 0 x3 (by omega)]
theorem vor (x0 : BitVec 7) (x1 : BitVec 7) (x2 : BitVec 7) (x3 : BitVec 2) : Statement (.vor x0 x1 x2 x3) := by
  intro hf
  have h0 := x0.isLt
  have h1 := x1.isLt
  have h2 := x2.isLt
  have h3 := x3.isLt
  refine decode_of_raw ?_ hf
  show decodeRaw (1073741868 + x0.toNat * 1048576 + x1.toNat * 8192 + x2.toNat * 64 + x3.toNat) 0 = _
  generalize hW : 1073741868 + x0.toNat * 1048576 + x1.toNat * 8192 + x2.toNat * 64 + x3.toNat = w
  rw [decodeRaw_class8 _ (by simp only [fld]; omega)]
  have c0 : fld w 2 4 = 11 := by simp only [fld]; omega
  simp only [decode8, c0]
  rw [bits_eq w 20 x0 (by omega), bits_eq w 13 x1 (by omega), bits_eq w 6 x2 (by omega), bits_eq w 0 x3 (by omega)]
theorem vxor (x0 : BitVec 7) (x1 : BitVec 7) (x2 : BitVec 7) (x3 : BitVec 2) : Statement (.vxor x0 x1 x2 x3) := by
  intro hf
  have h0 := x0.isLt
  have h1 := x1.isLt
  have h2 := x2.isLt
  have h3 := x3.isLt
  refine decode_of_raw ?_ hf
  show decodeRaw (1073741872 + x0.toNat * 1048576 + x1.toNat * 8192 + x2.toNat * 64 + x3.toNat) 0 = _
  generalize hW : 1073741872 + x0.toNat * 1048576 + x1.toNat * 8192 + x2.toNat * 64 + x3.toNat = w
  rw [decodeRaw_class8 _ (by simp only [fld]; omega)]
  have c0 : fld w 2 4 = 12 := by simp only [fld]; omega
  simp only [decode8, c0]
  rw [bits_eq w 20 x0 (by omega), bits_eq w 13 x1 (by omega), bits_eq w 6 x2 (by omega), bits_eq w 0 x3 (by omega)]
theorem vshl (x0 : BitVec 7) (x1 : BitVec 7) (x2 : BitVec 7) (x3 : BitVec 2) : Statement (.vshl x0 x1 x2 x3) := by
  intro hf
  have h0 := x0.isLt
  have h1 := x1.isLt
  have h2 := x2.isLt
  have h3 := x3.isLt
  refine decode_of_raw ?_ hf
  show decodeRaw (1073741876 + x0.toNat * 1048576 + x1.toNat * 8192 + x2.toNat * 64 + x3.toNat) 0 = _
  generalize hW : 1073741876 + x0.toNat * 1048576 + x1.toNat * 8192 + x2.toNat * 64 + x3.toNat = w
  rw [decodeRaw_class8 _ (by simp only [fld]; omega)]
  have c0 : fld w 2 4 = 13 := by simp only [fld]; omega
  simp only [decode8, c0]
  rw [bits_eq w 20 x0 (by omega), bits_eq w 13 x1 (by omega), bits_eq w 6 x2 (by omega), bits_eq w 0 x3 (by omega)]
theorem vshr (x0 : BitVec 7) (x1 : BitVec 7) (x2 : BitVec 7) (x3 : BitVec 2) : Statement (.vshr x0 x1 x2 x3) := by
  intro hf
  have h0 := x0.isLt
  have h1 := x1.isLt
  have h2 := x2.isLt
  have h3 := x3.isLt
  refine decode_of_raw ?_ hf
  show decodeRaw (1073741880 + x0.toNat * 1048576 + x1.toNat * 8192 + x2.toNat * 64 + x3.toNat) 0 = _
  generalize hW : 1073741880 + x0.toNat * 1048576 + x1.toNat * 8192 + x2.toNat * 64 + x3.toNat = w
  rw [decodeRaw_class8 _ (by simp only [fld]; omega)]
  have c0 : fld w 2 4 = 14 := by simp only [fld]; omega
  simp only [decode8, c0]
  rw [bits_eq w 20 x0 (by omega), bits_eq w 13 x1 (by omega), bits_eq w 6 x2 (by omega), bits_eq w 0 x3 (by omega)]
theorem vsra (x0 : BitVec 7) (x1 : BitVec 7) (x2 : BitVec 7) (x3 : BitVec 2) : Statement (.vsra x0 x1 x2 x3) := by
  intro hf
  have h0 := x0.isLt
  have h1 := x1.isLt
  have h2 := x2.isLt
  have h3 := x3.isLt
  refine decode_of_raw ?_ hf
  show decodeRaw (1073741884 + x0.toNat * 1048576 + x1.toNat * 8192 + x2.toNat * 64 + x3.toNat) 0 = _
  generalize hW : 1073741884 + x0.toNat * 1048576 + x1.toNat * 8192 + x2.toNat * 64 + x3.toNat = w
  rw [decodeRaw_class8 _ (by simp only [fld]; omega)]
  have c0 : fld w 2 4 = 15 := by simp only [fld]; omega
  simp only [decode8, c0]
  rw [bits_eq w 20 x0 (by omega), bits_eq w 13 x1 (by omega), bits_eq w 6 x2 (by omega), bits_eq w 0 x3 (by omega)]
theorem vfadd (x0 : BitVec 7) (x1 : BitVec 7) (x2 : BitVec 7) (x3 : BitVec 2) : Statement (.vfadd x0 x1 x2 x3) := by
  intro hf
  have h0 := x0.isLt
  have h1 := x1.isLt
  have h2 := x2.isLt
  have h3 := x3.isLt
  refine decode_of_raw ?_ hf
  show decodeRaw (1207959552 + x0.toNat * 1048576 + x1.toNat * 8192 + x2.toNat * 64 + x3.toNat) 0 = _
  generalize hW : 1207959552 + x0.toNat * 1048576 + x1.toNat * 8192 + x2.toNat * 64 + x3.toNat = w
  rw [decodeRaw_class9 _ (by simp only [fld]; omega)]
  have c0 : fld w 2 4 = 0 := by simp only [fld]; omega
  simp only [decode9, c0]
  rw [bits_eq w 20 x0 (by omega), bits_eq w 13 x1 (by omega), bits_eq w 6 x2 (by omega), bits_eq w 0 x3 (by omega)]
theorem vfsub (x0 : BitVec 7) (x1 : BitVec 7) (x2 : BitVec 7) (x3 : BitVec 2) : Statement (.vfsub x0 x1 x2 x3) := by
  intro hf
  have h0 := x0.isLt
  have h1 := x1.isLt
  have h2 := x2.isLt
  have h3 := x3.isLt
  refine decode_of_raw ?_ hf
  show decodeRaw (1207959556 + x0.toNat * 1048576 + x1.toNat * 8192 + x2.toNat * 64 + x3.toNat) 0 = _
  generalize hW : 1207959556 + x0.toNat * 1048576 + x1.toNat * 8192 + x2.toNat * 64 + x3.toNat = w
  rw [decodeRaw_class9 _ (by simp only [fld]; omega)]
  have c0 : fld w 2 4 = 1 := by simp only [fld]; omega
  simp only [decode9, c0]
  rw [bits_eq w 20 x0 (by omega), bits_eq w 13 x1 (by omega), bits_eq w 6 x2 (by omega), bits_eq w 0 x3 (by omega)]
theorem vfmul (x0 : BitVec 7) (x1 : BitVec 7) (x2 : BitVec 7) (x3 : BitVec 2) : Statement (.vfmul x0 x1 x2 x3) := by
  intro hf
  have h0 := x0.isLt
  have h1 := x1.isLt
  have h2 := x2.isLt
  have h3 := x3.isLt
  refine decode_of_raw ?_ hf
  show decodeRaw (1207959560 + x0.toNat * 1048576 + x1.toNat * 8192 + x2.toNat * 64 + x3.toNat) 0 = _
  generalize hW : 1207959560 + x0.toNat * 1048576 + x1.toNat * 8192 + x2.toNat * 64 + x3.toNat = w
  rw [decodeRaw_class9 _ (by simp only [fld]; omega)]
  have c0 : fld w 2 4 = 2 := by simp only [fld]; omega
  simp only [decode9, c0]
  rw [bits_eq w 20 x0 (by omega), bits_eq w 13 x1 (by omega), bits_eq w 6 x2 (by omega), bits_eq w 0 x3 (by omega)]
theorem vfma (x0 : BitVec 7) (x1 : BitVec 7) (x2 : BitVec 7) (x3 : BitVec 2) : Statement (.vfma x0 x1 x2 x3) := by
  intro hf
  have h0 := x0.isLt
  have h1 := x1.isLt
  have h2 := x2.isLt
  have h3 := x3.isLt
  refine decode_of_raw ?_ hf
  show decodeRaw (1207959564 + x0.toNat * 1048576 + x1.toNat * 8192 + x2.toNat * 64 + x3.toNat) 0 = _
  generalize hW : 1207959564 + x0.toNat * 1048576 + x1.toNat * 8192 + x2.toNat * 64 + x3.toNat = w
  rw [decodeRaw_class9 _ (by simp only [fld]; omega)]
  have c0 : fld w 2 4 = 3 := by simp only [fld]; omega
  simp only [decode9, c0]
  rw [bits_eq w 20 x0 (by omega), bits_eq w 13 x1 (by omega), bits_eq w 6 x2 (by omega), bits_eq w 0 x3 (by omega)]
theorem vfmin (x0 : BitVec 7) (x1 : BitVec 7) (x2 : BitVec 7) (x3 : BitVec 2) : Statement (.vfmin x0 x1 x2 x3) := by
  intro hf
  have h0 := x0.isLt
  have h1 := x1.isLt
  have h2 := x2.isLt
  have h3 := x3.isLt
  refine decode_of_raw ?_ hf
  show decodeRaw (1207959568 + x0.toNat * 1048576 + x1.toNat * 8192 + x2.toNat * 64 + x3.toNat) 0 = _
  generalize hW : 1207959568 + x0.toNat * 1048576 + x1.toNat * 8192 + x2.toNat * 64 + x3.toNat = w
  rw [decodeRaw_class9 _ (by simp only [fld]; omega)]
  have c0 : fld w 2 4 = 4 := by simp only [fld]; omega
  simp only [decode9, c0]
  rw [bits_eq w 20 x0 (by omega), bits_eq w 13 x1 (by omega), bits_eq w 6 x2 (by omega), bits_eq w 0 x3 (by omega)]
theorem vfmax (x0 : BitVec 7) (x1 : BitVec 7) (x2 : BitVec 7) (x3 : BitVec 2) : Statement (.vfmax x0 x1 x2 x3) := by
  intro hf
  have h0 := x0.isLt
  have h1 := x1.isLt
  have h2 := x2.isLt
  have h3 := x3.isLt
  refine decode_of_raw ?_ hf
  show decodeRaw (1207959572 + x0.toNat * 1048576 + x1.toNat * 8192 + x2.toNat * 64 + x3.toNat) 0 = _
  generalize hW : 1207959572 + x0.toNat * 1048576 + x1.toNat * 8192 + x2.toNat * 64 + x3.toNat = w
  rw [decodeRaw_class9 _ (by simp only [fld]; omega)]
  have c0 : fld w 2 4 = 5 := by simp only [fld]; omega
  simp only [decode9, c0]
  rw [bits_eq w 20 x0 (by omega), bits_eq w 13 x1 (by omega), bits_eq w 6 x2 (by omega), bits_eq w 0 x3 (by omega)]
theorem vfabs (x0 : BitVec 7) (x1 : BitVec 7) (x2 : BitVec 2) : Statement (.vfabs x0 x1 x2) := by
  intro hf
  have h0 := x0.isLt
  have h1 := x1.isLt
  have h2 := x2.isLt
  refine decode_of_raw ?_ hf
  show decodeRaw (1207959576 + x0.toNat * 1048576 + x1.toNat * 8192 + x2.toNat) 0 = _
  generalize hW : 1207959576 + x0.toNat * 1048576 + x1.toNat * 8192 + x2.toNat = w
  rw [decodeRaw_class9 _ (by simp only [fld]; omega)]
  have c0 : fld w 2 4 = 6 := by simp only [fld]; omega
  have r0 : fld w 6 7 = 0 := by simp only [fld]; omega
  simp only [decode9, c0, rsv_zero _ r0]
  rw [bits_eq w 20 x0 (by omega), bits_eq w 13 x1 (by omega), bits_eq w 0 x2 (by omega)]
theorem vfneg (x0 : BitVec 7) (x1 : BitVec 7) (x2 : BitVec 2) : Statement (.vfneg x0 x1 x2) := by
  intro hf
  have h0 := x0.isLt
  have h1 := x1.isLt
  have h2 := x2.isLt
  refine decode_of_raw ?_ hf
  show decodeRaw (1207959580 + x0.toNat * 1048576 + x1.toNat * 8192 + x2.toNat) 0 = _
  generalize hW : 1207959580 + x0.toNat * 1048576 + x1.toNat * 8192 + x2.toNat = w
  rw [decodeRaw_class9 _ (by simp only [fld]; omega)]
  have c0 : fld w 2 4 = 7 := by simp only [fld]; omega
  have r0 : fld w 6 7 = 0 := by simp only [fld]; omega
  simp only [decode9, c0, rsv_zero _ r0]
  rw [bits_eq w 20 x0 (by omega), bits_eq w 13 x1 (by omega), bits_eq w 0 x2 (by omega)]
theorem vfrcp (x0 : BitVec 7) (x1 : BitVec 7) (x2 : BitVec 2) : Statement (.vfrcp x0 x1 x2) := by
  intro hf
  have h0 := x0.isLt
  have h1 := x1.isLt
  have h2 := x2.isLt
  refine decode_of_raw ?_ hf
  show decodeRaw (1207959584 + x0.toNat * 1048576 + x1.toNat * 8192 + x2.toNat) 0 = _
  generalize hW : 1207959584 + x0.toNat * 1048576 + x1.toNat * 8192 + x2.toNat = w
  rw [decodeRaw_class9 _ (by simp only [fld]; omega)]
  have c0 : fld w 2 4 = 8 := by simp only [fld]; omega
  have r0 : fld w 6 7 = 0 := by simp only [fld]; omega
  simp only [decode9, c0, rsv_zero _ r0]
  rw [bits_eq w 20 x0 (by omega), bits_eq w 13 x1 (by omega), bits_eq w 0 x2 (by omega)]
theorem vfrsq (x0 : BitVec 7) (x1 : BitVec 7) (x2 : BitVec 2) : Statement (.vfrsq x0 x1 x2) := by
  intro hf
  have h0 := x0.isLt
  have h1 := x1.isLt
  have h2 := x2.isLt
  refine decode_of_raw ?_ hf
  show decodeRaw (1207959588 + x0.toNat * 1048576 + x1.toNat * 8192 + x2.toNat) 0 = _
  generalize hW : 1207959588 + x0.toNat * 1048576 + x1.toNat * 8192 + x2.toNat = w
  rw [decodeRaw_class9 _ (by simp only [fld]; omega)]
  have c0 : fld w 2 4 = 9 := by simp only [fld]; omega
  have r0 : fld w 6 7 = 0 := by simp only [fld]; omega
  simp only [decode9, c0, rsv_zero _ r0]
  rw [bits_eq w 20 x0 (by omega), bits_eq w 13 x1 (by omega), bits_eq w 0 x2 (by omega)]
theorem vfexp2 (x0 : BitVec 7) (x1 : BitVec 7) (x2 : BitVec 2) : Statement (.vfexp2 x0 x1 x2) := by
  intro hf
  have h0 := x0.isLt
  have h1 := x1.isLt
  have h2 := x2.isLt
  refine decode_of_raw ?_ hf
  show decodeRaw (1207959592 + x0.toNat * 1048576 + x1.toNat * 8192 + x2.toNat) 0 = _
  generalize hW : 1207959592 + x0.toNat * 1048576 + x1.toNat * 8192 + x2.toNat = w
  rw [decodeRaw_class9 _ (by simp only [fld]; omega)]
  have c0 : fld w 2 4 = 10 := by simp only [fld]; omega
  have r0 : fld w 6 7 = 0 := by simp only [fld]; omega
  simp only [decode9, c0, rsv_zero _ r0]
  rw [bits_eq w 20 x0 (by omega), bits_eq w 13 x1 (by omega), bits_eq w 0 x2 (by omega)]
theorem vflog2 (x0 : BitVec 7) (x1 : BitVec 7) (x2 : BitVec 2) : Statement (.vflog2 x0 x1 x2) := by
  intro hf
  have h0 := x0.isLt
  have h1 := x1.isLt
  have h2 := x2.isLt
  refine decode_of_raw ?_ hf
  show decodeRaw (1207959596 + x0.toNat * 1048576 + x1.toNat * 8192 + x2.toNat) 0 = _
  generalize hW : 1207959596 + x0.toNat * 1048576 + x1.toNat * 8192 + x2.toNat = w
  rw [decodeRaw_class9 _ (by simp only [fld]; omega)]
  have c0 : fld w 2 4 = 11 := by simp only [fld]; omega
  have r0 : fld w 6 7 = 0 := by simp only [fld]; omega
  simp only [decode9, c0, rsv_zero _ r0]
  rw [bits_eq w 20 x0 (by omega), bits_eq w 13 x1 (by omega), bits_eq w 0 x2 (by omega)]
theorem vfrsum (x0 : BitVec 7) (x1 : BitVec 7) (x2 : BitVec 2) : Statement (.vfrsum x0 x1 x2) := by
  intro hf
  have h0 := x0.isLt
  have h1 := x1.isLt
  have h2 := x2.isLt
  refine decode_of_raw ?_ hf
  show decodeRaw (1207959600 + x0.toNat * 1048576 + x1.toNat * 8192 + x2.toNat) 0 = _
  generalize hW : 1207959600 + x0.toNat * 1048576 + x1.toNat * 8192 + x2.toNat = w
  rw [decodeRaw_class9 _ (by simp only [fld]; omega)]
  have c0 : fld w 2 4 = 12 := by simp only [fld]; omega
  have r0 : fld w 6 7 = 0 := by simp only [fld]; omega
  simp only [decode9, c0, rsv_zero _ r0]
  rw [bits_eq w 20 x0 (by omega), bits_eq w 13 x1 (by omega), bits_eq w 0 x2 (by omega)]
theorem vfrmax (x0 : BitVec 7) (x1 : BitVec 7) (x2 : BitVec 2) : Statement (.vfrmax x0 x1 x2) := by
  intro hf
  have h0 := x0.isLt
  have h1 := x1.isLt
  have h2 := x2.isLt
  refine decode_of_raw ?_ hf
  show decodeRaw (1207959604 + x0.toNat * 1048576 + x1.toNat * 8192 + x2.toNat) 0 = _
  generalize hW : 1207959604 + x0.toNat * 1048576 + x1.toNat * 8192 + x2.toNat = w
  rw [decodeRaw_class9 _ (by simp only [fld]; omega)]
  have c0 : fld w 2 4 = 13 := by simp only [fld]; omega
  have r0 : fld w 6 7 = 0 := by simp only [fld]; omega
  simp only [decode9, c0, rsv_zero _ r0]
  rw [bits_eq w 20 x0 (by omega), bits_eq w 13 x1 (by omega), bits_eq w 0 x2 (by omega)]
theorem vfscl (x0 : BitVec 7) (x1 : BitVec 7) (x2 : BitVec 7) (x3 : BitVec 2) : Statement (.vfscl x0 x1 x2 x3) := by
  intro hf
  have h0 := x0.isLt
  have h1 := x1.isLt
  have h2 := x2.isLt
  have h3 := x3.isLt
  refine decode_of_raw ?_ hf
  show decodeRaw (1207959608 + x0.toNat * 1048576 + x1.toNat * 8192 + x2.toNat * 64 + x3.toNat) 0 = _
  generalize hW : 1207959608 + x0.toNat * 1048576 + x1.toNat * 8192 + x2.toNat * 64 + x3.toNat = w
  rw [decodeRaw_class9 _ (by simp only [fld]; omega)]
  have c0 : fld w 2 4 = 14 := by simp only [fld]; omega
  simp only [decode9, c0]
  rw [bits_eq w 20 x0 (by omega), bits_eq w 13 x1 (by omega), bits_eq w 6 x2 (by omega), bits_eq w 0 x3 (by omega)]
theorem vfcpy (x0 : BitVec 7) (x1 : BitVec 7) (x2 : BitVec 7) (x3 : BitVec 2) : Statement (.vfcpy x0 x1 x2 x3) := by
  intro hf
  have h0 := x0.isLt
  have h1 := x1.isLt
  have h2 := x2.isLt
  have h3 := x3.isLt
  refine decode_of_raw ?_ hf
  show decodeRaw (1207959612 + x0.toNat * 1048576 + x1.toNat * 8192 + x2.toNat * 64 + x3.toNat) 0 = _
  generalize hW : 1207959612 + x0.toNat * 1048576 + x1.toNat * 8192 + x2.toNat * 64 + x3.toNat = w
  rw [decodeRaw_class9 _ (by simp only [fld]; omega)]
  have c0 : fld w 2 4 = 15 := by simp only [fld]; omega
  simp only [decode9, c0]
  rw [bits_eq w 20 x0 (by omega), bits_eq w 13 x1 (by omega), bits_eq w 6 x2 (by omega), bits_eq w 0 x3 (by omega)]
theorem vcvt (x0 : BitVec 7) (x1 : BitVec 7) (x2 : BitVec 4) (x3 : BitVec 2) (x4 : BitVec 1) : Statement (.vcvt x0 x1 x2 x3 x4) := by
  intro hf
  have h0 := x0.isLt
  have h1 := x1.isLt
  have h2 := x2.isLt
  have h3 := x3.isLt
  have h4 := x4.isLt
  refine decode_of_raw ?_ hf
  show decodeRaw (1342177280 + x0.toNat * 1048576 + x1.toNat * 8192 + x2.toNat * 512 + x3.toNat * 128 + x4.toNat * 64) 0 = _
  generalize hW : 1342177280 + x0.toNat * 1048576 + x1.toNat * 8192 + x2.toNat * 512 + x3.toNat * 128 + x4.toNat * 64 = w
  rw [decodeRaw_class10 _ (by simp only [fld]; omega)]
  have c0 : fld w 0 6 = 0 := by simp only [fld]; omega
  simp only [decode10, c0]
  rw [bits_eq w 20 x0 (by omega), bits_eq w 13 x1 (by omega), bits_eq w 9 x2 (by omega), bits_eq w 7 x3 (by omega), bits_eq w 6 x4 (by omega)]
theorem vexp (x0 : BitVec 7) (x1 : BitVec 7) (x2 : BitVec 1) : Statement (.vexp x0 x1 x2) := by
  intro hf
  have h0 := x0.isLt
  have h1 := x1.isLt
  have h2 := x2.isLt
  refine decode_of_raw ?_ hf
  show decodeRaw (1342177793 + x0.toNat * 1048576 + x1.toNat * 8192 + x2.toNat * 64) 0 = _
  generalize hW : 1342177793 + x0.toNat * 1048576 + x1.toNat * 8192 + x2.toNat * 64 = w
  rw [decodeRaw_class10 _ (by simp only [fld]; omega)]
  have c0 : fld w 0 6 = 1 := by simp only [fld]; omega
  have c1 : fld w 7 6 = 4 := by simp only [fld]; omega
  simp only [decode10, c0, c1, if_true]
  rw [bits_eq w 20 x0 (by omega), bits_eq w 13 x1 (by omega), bits_eq w 6 x2 (by omega)]
theorem vmxs (x0 : BitVec 7) (x1 : BitVec 7) : Statement (.vmxs x0 x1) := by
  intro hf
  have h0 := x0.isLt
  have h1 := x1.isLt
  refine decode_of_raw ?_ hf
  show decodeRaw (1342177282 + x0.toNat * 1048576 + x1.toNat * 8192) 0 = _
  generalize hW : 1342177282 + x0.toNat * 1048576 + x1.toNat * 8192 = w
  rw [decodeRaw_class10 _ (by simp only [fld]; omega)]
  have c0 : fld w 0 6 = 2 := by simp only [fld]; omega
  have r0 : fld w 6 7 = 0 := by simp only [fld]; omega
  simp only [decode10, c0, rsv_zero _ r0]
  rw [bits_eq w 20 x0 (by omega), bits_eq w 13 x1 (by omega)]
theorem vcmpeq (x0 : BitVec 7) (x1 : BitVec 7) (x2 : BitVec 7) : Statement (.vcmpeq x0 x1 x2) := by
  intro hf
  have h0 := x0.isLt
  have h1 := x1.isLt
  have h2 := x2.isLt
  refine decode_of_raw ?_ hf
  show decodeRaw (1342177283 + x0.toNat * 1048576 + x1.toNat * 8192 + x2.toNat * 64) 0 = _
  generalize hW : 1342177283 + x0.toNat * 1048576 + x1.toNat * 8192 + x2.toNat * 64 = w
  rw [decodeRaw_class10 _ (by simp only [fld]; omega)]
  have c0 : fld w 0 6 = 3 := by simp only [fld]; omega
  simp only [decode10, c0]
  rw [bits_eq w 20 x0 (by omega), bits_eq w 13 x1 (by omega), bits_eq w 6 x2 (by omega)]
theorem vcmplt (x0 : BitVec 7) (x1 : BitVec 7) (x2 : BitVec 7) : Statement (.vcmplt x0 x1 x2) := by
  intro hf
  have h0 := x0.isLt
  have h1 := x1.isLt
  have h2 := x2.isLt
  refine decode_of_raw ?_ hf
  show decodeRaw (1342177284 + x0.toNat * 1048576 + x1.toNat * 8192 + x2.toNat * 64) 0 = _
  generalize hW : 1342177284 + x0.toNat * 1048576 + x1.toNat * 8192 + x2.toNat * 64 = w
  rw [decodeRaw_class10 _ (by simp only [fld]; omega)]
  have c0 : fld w 0 6 = 4 := by simp only [fld]; omega
  simp only [decode10, c0]
  rw [bits_eq w 20 x0 (by omega), bits_eq w 13 x1 (by omega), bits_eq w 6 x2 (by omega)]
theorem vcmple (x0 : BitVec 7) (x1 : BitVec 7) (x2 : BitVec 7) : Statement (.vcmple x0 x1 x2) := by
  intro hf
  have h0 := x0.isLt
  have h1 := x1.isLt
  have h2 := x2.isLt
  refine decode_of_raw ?_ hf
  show decodeRaw (1342177285 + x0.toNat * 1048576 + x1.toNat * 8192 + x2.toNat * 64) 0 = _
  generalize hW : 1342177285 + x0.toNat * 1048576 + x1.toNat * 8192 + x2.toNat * 64 = w
  rw [decodeRaw_class10 _ (by simp only [fld]; omega)]
  have c0 : fld w 0 6 = 5 := by simp only [fld]; omega
  simp only [decode10, c0]
  rw [bits_eq w 20 x0 (by omega), bits_eq w 13 x1 (by omega), bits_eq w 6 x2 (by omega)]
theorem vfcmpeq (x0 : BitVec 7) (x1 : BitVec 7) (x2 : BitVec 7) : Statement (.vfcmpeq x0 x1 x2) := by
  intro hf
  have h0 := x0.isLt
  have h1 := x1.isLt
  have h2 := x2.isLt
  refine decode_of_raw ?_ hf
  show decodeRaw (1342177286 + x0.toNat * 1048576 + x1.toNat * 8192 + x2.toNat * 64) 0 = _
  generalize hW : 1342177286 + x0.toNat * 1048576 + x1.toNat * 8192 + x2.toNat * 64 = w
  rw [decodeRaw_class10 _ (by simp only [fld]; omega)]
  have c0 : fld w 0 6 = 6 := by simp only [fld]; omega
  simp only [decode10, c0]
  rw [bits_eq w 20 x0 (by omega), bits_eq w 13 x1 (by omega), bits_eq w 6 x2 (by omega)]
theorem vfcmplt (x0 : BitVec 7) (x1 : BitVec 7) (x2 : BitVec 7) : Statement (.vfcmplt x0 x1 x2) := by
  intro hf
  have h0 := x0.isLt
  have h1 := x1.isLt
  have h2 := x2.isLt
  refine decode_of_raw ?_ hf
  show decodeRaw (1342177287 + x0.toNat * 1048576 + x1.toNat * 8192 + x2.toNat * 64) 0 = _
  generalize hW : 1342177287 + x0.toNat * 1048576 + x1.toNat * 8192 + x2.toNat * 64 = w
  rw [decodeRaw_class10 _ (by simp only [fld]; omega)]
  have c0 : fld w 0 6 = 7 := by simp only [fld]; omega
  simp only [decode10, c0]
  rw [bits_eq w 20 x0 (by omega), bits_eq w 13 x1 (by omega), bits_eq w 6 x2 (by omega)]
theorem vfcmple (x0 : BitVec 7) (x1 : BitVec 7) (x2 : BitVec 7) : Statement (.vfcmple x0 x1 x2) := by
  intro hf
  have h0 := x0.isLt
  have h1 := x1.isLt
  have h2 := x2.isLt
  refine decode_of_raw ?_ hf
  show decodeRaw (1342177288 + x0.toNat * 1048576 + x1.toNat * 8192 + x2.toNat * 64) 0 = _
  generalize hW : 1342177288 + x0.toNat * 1048576 + x1.toNat * 8192 + x2.toNat * 64 = w
  rw [decodeRaw_class10 _ (by simp only [fld]; omega)]
  have c0 : fld w 0 6 = 8 := by simp only [fld]; omega
  simp only [decode10, c0]
  rw [bits_eq w 20 x0 (by omega), bits_eq w 13 x1 (by omega), bits_eq w 6 x2 (by omega)]
theorem vsel (x0 : BitVec 7) (x1 : BitVec 7) (x2 : BitVec 7) : Statement (.vsel x0 x1 x2) := by
  intro hf
  have h0 := x0.isLt
  have h1 := x1.isLt
  have h2 := x2.isLt
  refine decode_of_raw ?_ hf
  show decodeRaw (1342177289 + x0.toNat * 1048576 + x1.toNat * 8192 + x2.toNat * 64) 0 = _
  generalize hW : 1342177289 + x0.toNat * 1048576 + x1.toNat * 8192 + x2.toNat * 64 = w
  rw [decodeRaw_class10 _ (by simp only [fld]; omega)]
  have c0 : fld w 0 6 = 9 := by simp only [fld]; omega
  simp only [decode10, c0]
  rw [bits_eq w 20 x0 (by omega), bits_eq w 13 x1 (by omega), bits_eq w 6 x2 (by omega)]
theorem vtrn (x0 : BitVec 7) (x1 : BitVec 7) : Statement (.vtrn x0 x1) := by
  intro hf
  have h0 := x0.isLt
  have h1 := x1.isLt
  refine decode_of_raw ?_ hf
  show decodeRaw (1342177290 + x0.toNat * 1048576 + x1.toNat * 8192) 0 = _
  generalize hW : 1342177290 + x0.toNat * 1048576 + x1.toNat * 8192 = w
  rw [decodeRaw_class10 _ (by simp only [fld]; omega)]
  have c0 : fld w 0 6 = 10 := by simp only [fld]; omega
  have r0 : fld w 6 7 = 0 := by simp only [fld]; omega
  simp only [decode10, c0, rsv_zero _ r0]
  rw [bits_eq w 20 x0 (by omega), bits_eq w 13 x1 (by omega)]
theorem vbcr (x0 : BitVec 7) (x1 : BitVec 7) (x2 : BitVec 7) : Statement (.vbcr x0 x1 x2) := by
  intro hf
  have h0 := x0.isLt
  have h1 := x1.isLt
  have h2 := x2.isLt
  refine decode_of_raw ?_ hf
  show decodeRaw (1342177291 + x0.toNat * 1048576 + x1.toNat * 8192 + x2.toNat * 64) 0 = _
  generalize hW : 1342177291 + x0.toNat * 1048576 + x1.toNat * 8192 + x2.toNat * 64 = w
  rw [decodeRaw_class10 _ (by simp only [fld]; omega)]
  have c0 : fld w 0 6 = 11 := by simp only [fld]; omega
  simp only [decode10, c0]
  rw [bits_eq w 20 x0 (by omega), bits_eq w 13 x1 (by omega), bits_eq w 6 x2 (by omega)]
theorem vshuf (x0 : BitVec 7) (x1 : BitVec 7) (x2 : BitVec 7) : Statement (.vshuf x0 x1 x2) := by
  intro hf
  have h0 := x0.isLt
  have h1 := x1.isLt
  have h2 := x2.isLt
  refine decode_of_raw ?_ hf
  show decodeRaw (1342177292 + x0.toNat * 1048576 + x1.toNat * 8192 + x2.toNat * 64) 0 = _
  generalize hW : 1342177292 + x0.toNat * 1048576 + x1.toNat * 8192 + x2.toNat * 64 = w
  rw [decodeRaw_class10 _ (by simp only [fld]; omega)]
  have c0 : fld w 0 6 = 12 := by simp only [fld]; omega
  simp only [decode10, c0]
  rw [bits_eq w 20 x0 (by omega), bits_eq w 13 x1 (by omega), bits_eq w 6 x2 (by omega)]
theorem vmov (x0 : BitVec 7) (x1 : BitVec 7) : Statement (.vmov x0 x1) := by
  intro hf
  have h0 := x0.isLt
  have h1 := x1.isLt
  refine decode_of_raw ?_ hf
  show decodeRaw (1342177293 + x0.toNat * 1048576 + x1.toNat * 8192) 0 = _
  generalize hW : 1342177293 + x0.toNat * 1048576 + x1.toNat * 8192 = w
  rw [decodeRaw_class10 _ (by simp only [fld]; omega)]
  have c0 : fld w 0 6 = 13 := by simp only [fld]; omega
  have r0 : fld w 6 7 = 0 := by simp only [fld]; omega
  simp only [decode10, c0, rsv_zero _ r0]
  rw [bits_eq w 20 x0 (by omega), bits_eq w 13 x1 (by omega)]
theorem vrot (x0 : BitVec 7) (x1 : BitVec 7) (x2 : BitVec 7) : Statement (.vrot x0 x1 x2) := by
  intro hf
  have h0 := x0.isLt
  have h1 := x1.isLt
  have h2 := x2.isLt
  refine decode_of_raw ?_ hf
  show decodeRaw (1342177294 + x0.toNat * 1048576 + x1.toNat * 8192 + x2.toNat * 64) 0 = _
  generalize hW : 1342177294 + x0.toNat * 1048576 + x1.toNat * 8192 + x2.toNat * 64 = w
  rw [decodeRaw_class10 _ (by simp only [fld]; omega)]
  have c0 : fld w 0 6 = 14 := by simp only [fld]; omega
  simp only [decode10, c0]
  rw [bits_eq w 20 x0 (by omega), bits_eq w 13 x1 (by omega), bits_eq w 6 x2 (by omega)]
theorem vpck (x0 : BitVec 7) (x1 : BitVec 7) (x2 : BitVec 7) : Statement (.vpck x0 x1 x2) := by
  intro hf
  have h0 := x0.isLt
  have h1 := x1.isLt
  have h2 := x2.isLt
  refine decode_of_raw ?_ hf
  show decodeRaw (1342177295 + x0.toNat * 1048576 + x1.toNat * 8192 + x2.toNat * 64) 0 = _
  generalize hW : 1342177295 + x0.toNat * 1048576 + x1.toNat * 8192 + x2.toNat * 64 = w
  rw [decodeRaw_class10 _ (by simp only [fld]; omega)]
  have c0 : fld w 0 6 = 15 := by simp only [fld]; omega
  simp only [decode10, c0]
  rw [bits_eq w 20 x0 (by omega), bits_eq w 13 x1 (by omega), bits_eq w 6 x2 (by omega)]
theorem vupk (x0 : BitVec 7) (x1 : BitVec 7) : Statement (.vupk x0 x1) := by
  intro hf
  have h0 := x0.isLt
  have h1 := x1.isLt
  refine decode_of_raw ?_ hf
  show decodeRaw (1342177296 + x0.toNat * 1048576 + x1.toNat * 8192) 0 = _
  generalize hW : 1342177296 + x0.toNat * 1048576 + x1.toNat * 8192 = w
  rw [decodeRaw_class10 _ (by simp only [fld]; omega)]
  have c0 : fld w 0 6 = 16 := by simp only [fld]; omega
  have r0 : fld w 6 7 = 0 := by simp only [fld]; omega
  simp only [decode10, c0, rsv_zero _ r0]
  rw [bits_eq w 20 x0 (by omega), bits_eq w 13 x1 (by omega)]
theorem viota (x0 : BitVec 7) : Statement (.viota x0) := by
  intro hf
  have h0 := x0.isLt
  refine decode_of_raw ?_ hf
  show decodeRaw (1342177297 + x0.toNat * 1048576) 0 = _
  generalize hW : 1342177297 + x0.toNat * 1048576 = w
  rw [decodeRaw_class10 _ (by simp only [fld]; omega)]
  have c0 : fld w 0 6 = 17 := by simp only [fld]; omega
  have r0 : fld w 6 14 = 0 := by simp only [fld]; omega
  simp only [decode10, c0, rsv_zero _ r0]
  rw [bits_eq w 20 x0 (by omega)]
theorem vget (x0 : BitVec 7) (x1 : BitVec 7) (x2 : BitVec 7) : Statement (.vget x0 x1 x2) := by
  intro hf
  have h0 := x0.isLt
  have h1 := x1.isLt
  have h2 := x2.isLt
  refine decode_of_raw ?_ hf
  show decodeRaw (1342177298 + x0.toNat * 1048576 + x1.toNat * 8192 + x2.toNat * 64) 0 = _
  generalize hW : 1342177298 + x0.toNat * 1048576 + x1.toNat * 8192 + x2.toNat * 64 = w
  rw [decodeRaw_class10 _ (by simp only [fld]; omega)]
  have c0 : fld w 0 6 = 18 := by simp only [fld]; omega
  simp only [decode10, c0]
  rw [bits_eq w 20 x0 (by omega), bits_eq w 13 x1 (by omega), bits_eq w 6 x2 (by omega)]
theorem vput (x0 : BitVec 7) (x1 : BitVec 7) (x2 : BitVec 7) : Statement (.vput x0 x1 x2) := by
  intro hf
  have h0 := x0.isLt
  have h1 := x1.isLt
  have h2 := x2.isLt
  refine decode_of_raw ?_ hf
  show decodeRaw (1342177299 + x0.toNat * 1048576 + x1.toNat * 8192 + x2.toNat * 64) 0 = _
  generalize hW : 1342177299 + x0.toNat * 1048576 + x1.toNat * 8192 + x2.toNat * 64 = w
  rw [decodeRaw_class10 _ (by simp only [fld]; omega)]
  have c0 : fld w 0 6 = 19 := by simp only [fld]; omega
  simp only [decode10, c0]
  rw [bits_eq w 20 x0 (by omega), bits_eq w 13 x1 (by omega), bits_eq w 6 x2 (by omega)]
theorem vsete (x0 : BitVec 7) (x1 : BitVec 7) : Statement (.vsete x0 x1) := by
  intro hf
  have h0 := x0.isLt
  have h1 := x1.isLt
  refine decode_of_raw ?_ hf
  show decodeRaw (1342177300 + x0.toNat * 1048576 + x1.toNat * 64) 0 = _
  generalize hW : 1342177300 + x0.toNat * 1048576 + x1.toNat * 64 = w
  rw [decodeRaw_class10 _ (by simp only [fld]; omega)]
  have c0 : fld w 0 6 = 20 := by simp only [fld]; omega
  have r0 : fld w 13 7 = 0 := by simp only [fld]; omega
  simp only [decode10, c0, rsv_zero _ r0]
  rw [bits_eq w 20 x0 (by omega), bits_eq w 6 x1 (by omega)]
theorem tld (x0 : BitVec 7) (x1 : BitVec 6) (x2 : BitVec 10) : Statement (.tld x0 x1 x2) := by
  intro hf
  have h0 := x0.isLt
  have h1 := x1.isLt
  have h2 := x2.isLt
  refine decode_of_raw ?_ hf
  show decodeRaw (1476395008 + x0.toNat * 1048576 + x1.toNat * 16384 + x2.toNat) 0 = _
  generalize hW : 1476395008 + x0.toNat * 1048576 + x1.toNat * 16384 + x2.toNat = w
  rw [decodeRaw_class11 _ (by simp only [fld]; omega)]
  have c0 : fld w 10 4 = 0 := by simp only [fld]; omega
  simp only [decode11, c0]
  rw [bits_eq w 20 x0 (by omega), bits_eq w 14 x1 (by omega), bits_eq w 0 x2 (by omega)]
theorem tst (x0 : BitVec 7) (x1 : BitVec 6) (x2 : BitVec 10) : Statement (.tst x0 x1 x2) := by
  intro hf
  have h0 := x0.isLt
  have h1 := x1.isLt
  have h2 := x2.isLt
  refine decode_of_raw ?_ hf
  show decodeRaw (1476396032 + x0.toNat * 1048576 + x1.toNat * 16384 + x2.toNat) 0 = _
  generalize hW : 1476396032 + x0.toNat * 1048576 + x1.toNat * 16384 + x2.toNat = w
  rw [decodeRaw_class11 _ (by simp only [fld]; omega)]
  have c0 : fld w 10 4 = 1 := by simp only [fld]; omega
  simp only [decode11, c0]
  rw [bits_eq w 20 x0 (by omega), bits_eq w 14 x1 (by omega), bits_eq w 0 x2 (by omega)]
theorem tlds (x0 : BitVec 7) (x1 : BitVec 6) (x2 : BitVec 10) : Statement (.tlds x0 x1 x2) := by
  intro hf
  have h0 := x0.isLt
  have h1 := x1.isLt
  have h2 := x2.isLt
  refine decode_of_raw ?_ hf
  show decodeRaw (1476397056 + x0.toNat * 1048576 + x1.toNat * 16384 + x2.toNat) 0 = _
  generalize hW : 1476397056 + x0.toNat * 1048576 + x1.toNat * 16384 + x2.toNat = w
  rw [decodeRaw_class11 _ (by simp only [fld]; omega)]
  have c0 : fld w 10 4 = 2 := by simp only [fld]; omega
  simp only [decode11, c0]
  rw [bits_eq w 20 x0 (by omega), bits_eq w 14 x1 (by omega), bits_eq w 0 x2 (by omega)]
theorem tsts (x0 : BitVec 7) (x1 : BitVec 6) (x2 : BitVec 10) : Statement (.tsts x0 x1 x2) := by
  intro hf
  have h0 := x0.isLt
  have h1 := x1.isLt
  have h2 := x2.isLt
  refine decode_of_raw ?_ hf
  show decodeRaw (1476398080 + x0.toNat * 1048576 + x1.toNat * 16384 + x2.toNat) 0 = _
  generalize hW : 1476398080 + x0.toNat * 1048576 + x1.toNat * 16384 + x2.toNat = w
  rw [decodeRaw_class11 _ (by simp only [fld]; omega)]
  have c0 : fld w 10 4 = 3 := by simp only [fld]; omega
  simp only [decode11, c0]
  rw [bits_eq w 20 x0 (by omega), bits_eq w 14 x1 (by omega), bits_eq w 0 x2 (by omega)]
theorem tstm (x0 : BitVec 7) (x1 : BitVec 6) (x2 : BitVec 6) : Statement (.tstm x0 x1 x2) := by
  intro hf
  have h0 := x0.isLt
  have h1 := x1.isLt
  have h2 := x2.isLt
  refine decode_of_raw ?_ hf
  show decodeRaw (1476399104 + x0.toNat * 1048576 + x1.toNat * 16384 + x2.toNat) 0 = _
  generalize hW : 1476399104 + x0.toNat * 1048576 + x1.toNat * 16384 + x2.toNat = w
  rw [decodeRaw_class11 _ (by simp only [fld]; omega)]
  have c0 : fld w 10 4 = 4 := by simp only [fld]; omega
  have r0 : fld w 6 4 = 0 := by simp only [fld]; omega
  simp only [decode11, c0, rsv_zero _ r0]
  rw [bits_eq w 20 x0 (by omega), bits_eq w 14 x1 (by omega), bits_eq w 0 x2 (by omega)]
theorem tlook (x0 : BitVec 7) (x1 : BitVec 6) : Statement (.tlook x0 x1) := by
  intro hf
  have h0 := x0.isLt
  have h1 := x1.isLt
  refine decode_of_raw ?_ hf
  show decodeRaw (1476400128 + x0.toNat * 1048576 + x1.toNat * 16384) 0 = _
  generalize hW : 1476400128 + x0.toNat * 1048576 + x1.toNat * 16384 = w
  rw [decodeRaw_class11 _ (by simp only [fld]; omega)]
  have c0 : fld w 10 4 = 5 := by simp only [fld]; omega
  have r0 : fld w 0 10 = 0 := by simp only [fld]; omega
  simp only [decode11, c0, rsv_zero _ r0]
  rw [bits_eq w 20 x0 (by omega), bits_eq w 14 x1 (by omega)]
theorem tins (x0 : BitVec 7) (x1 : BitVec 6) (x2 : BitVec 6) : Statement (.tins x0 x1 x2) := by
  intro hf
  have h0 := x0.isLt
  have h1 := x1.isLt
  have h2 := x2.isLt
  refine decode_of_raw ?_ hf
  show decodeRaw (1476401152 + x0.toNat * 1048576 + x1.toNat * 16384 + x2.toNat) 0 = _
  generalize hW : 1476401152 + x0.toNat * 1048576 + x1.toNat * 16384 + x2.toNat = w
  rw [decodeRaw_class11 _ (by simp only [fld]; omega)]
  have c0 : fld w 10 4 = 6 := by simp only [fld]; omega
  have r0 : fld w 6 4 = 0 := by simp only [fld]; omega
  simp only [decode11, c0, rsv_zero _ r0]
  rw [bits_eq w 20 x0 (by omega), bits_eq w 14 x1 (by omega), bits_eq w 0 x2 (by omega)]
theorem tevt (x0 : BitVec 7) (x1 : BitVec 6) : Statement (.tevt x0 x1) := by
  intro hf
  have h0 := x0.isLt
  have h1 := x1.isLt
  refine decode_of_raw ?_ hf
  show decodeRaw (1476402176 + x0.toNat * 1048576 + x1.toNat * 16384) 0 = _
  generalize hW : 1476402176 + x0.toNat * 1048576 + x1.toNat * 16384 = w
  rw [decodeRaw_class11 _ (by simp only [fld]; omega)]
  have c0 : fld w 10 4 = 7 := by simp only [fld]; omega
  have r0 : fld w 0 10 = 0 := by simp only [fld]; omega
  simp only [decode11, c0, rsv_zero _ r0]
  rw [bits_eq w 20 x0 (by omega), bits_eq w 14 x1 (by omega)]
theorem tagrd (x0 : BitVec 7) (x1 : BitVec 6) : Statement (.tagrd x0 x1) := by
  intro hf
  have h0 := x0.isLt
  have h1 := x1.isLt
  refine decode_of_raw ?_ hf
  show decodeRaw (1476403200 + x0.toNat * 1048576 + x1.toNat * 16384) 0 = _
  generalize hW : 1476403200 + x0.toNat * 1048576 + x1.toNat * 16384 = w
  rw [decodeRaw_class11 _ (by simp only [fld]; omega)]
  have c0 : fld w 10 4 = 8 := by simp only [fld]; omega
  have r0 : fld w 0 10 = 0 := by simp only [fld]; omega
  simp only [decode11, c0, rsv_zero _ r0]
  rw [bits_eq w 20 x0 (by omega), bits_eq w 14 x1 (by omega)]
theorem mma (x0 : BitVec 3) (x1 : BitVec 7) (x2 : BitVec 4) (x3 : BitVec 5) (x4 : BitVec 1) (x5 : BitVec 1) (x6 : BitVec 3) : Statement (.mma x0 x1 x2 x3 x4 x5 x6) := by
  intro hf
  have h0 := x0.isLt
  have h1 := x1.isLt
  have h2 := x2.isLt
  have h3 := x3.isLt
  have h4 := x4.isLt
  have h5 := x5.isLt
  have h6 := x6.isLt
  refine decode_of_raw ?_ hf
  show decodeRaw (1610612736 + x0.toNat * 2097152 + x1.toNat * 16384 + x2.toNat * 1024 + x3.toNat * 32 + x4.toNat * 16 + x5.toNat * 8 + x6.toNat) 0 = _
  generalize hW : 1610612736 + x0.toNat * 2097152 + x1.toNat * 16384 + x2.toNat * 1024 + x3.toNat * 32 + x4.toNat * 16 + x5.toNat * 8 + x6.toNat = w
  rw [decodeRaw_class12 _ (by simp only [fld]; omega)]
  have c0 : fld w 24 3 = 0 := by simp only [fld]; omega
  simp only [decode12, c0]
  rw [bits_eq w 21 x0 (by omega), bits_eq w 14 x1 (by omega), bits_eq w 10 x2 (by omega), bits_eq w 5 x3 (by omega), bits_eq w 4 x4 (by omega), bits_eq w 3 x5 (by omega), bits_eq w 0 x6 (by omega)]
theorem mldb (x0 : BitVec 7) (x1 : BitVec 4) (x2 : BitVec 5) (x3 : BitVec 1) (x4 : BitVec 1) : Statement (.mldb x0 x1 x2 x3 x4) := by
  intro hf
  have h0 := x0.isLt
  have h1 := x1.isLt
  have h2 := x2.isLt
  have h3 := x3.isLt
  have h4 := x4.isLt
  refine decode_of_raw ?_ hf
  show decodeRaw (1627389952 + x0.toNat * 16384 + x1.toNat * 1024 + x2.toNat * 32 + x3.toNat * 16 + x4.toNat * 8) 0 = _
  generalize hW : 1627389952 + x0.toNat * 16384 + x1.toNat * 1024 + x2.toNat * 32 + x3.toNat * 16 + x4.toNat * 8 = w
  rw [decodeRaw_class12 _ (by simp only [fld]; omega)]
  have c0 : fld w 24 3 = 1 := by simp only [fld]; omega
  have r0 : fld w 21 3 = 0 := by simp only [fld]; omega
  have r1 : fld w 0 3 = 0 := by simp only [fld]; omega
  simp only [decode12, c0, rsv_zero _ r0, rsv_zero _ r1]
  rw [bits_eq w 14 x0 (by omega), bits_eq w 10 x1 (by omega), bits_eq w 5 x2 (by omega), bits_eq w 4 x3 (by omega), bits_eq w 3 x4 (by omega)]
theorem mdrn (x0 : BitVec 3) (x1 : BitVec 7) (x2 : BitVec 3) (x3 : BitVec 5) : Statement (.mdrn x0 x1 x2 x3) := by
  intro hf
  have h0 := x0.isLt
  have h1 := x1.isLt
  have h2 := x2.isLt
  have h3 := x3.isLt
  refine decode_of_raw ?_ hf
  show decodeRaw (1644167168 + x0.toNat * 2097152 + x1.toNat * 16384 + x2.toNat * 2048 + x3.toNat * 32) 0 = _
  generalize hW : 1644167168 + x0.toNat * 2097152 + x1.toNat * 16384 + x2.toNat * 2048 + x3.toNat * 32 = w
  rw [decodeRaw_class12 _ (by simp only [fld]; omega)]
  have c0 : fld w 24 3 = 2 := by simp only [fld]; omega
  have r0 : fld w 10 1 = 0 := by simp only [fld]; omega
  have r1 : fld w 0 5 = 0 := by simp only [fld]; omega
  simp only [decode12, c0, rsv_zero _ r0, rsv_zero _ r1]
  rw [bits_eq w 21 x0 (by omega), bits_eq w 14 x1 (by omega), bits_eq w 11 x2 (by omega), bits_eq w 5 x3 (by omega)]
theorem mzero (x0 : BitVec 3) (x1 : BitVec 4) (x2 : BitVec 3) : Statement (.mzero x0 x1 x2) := by
  intro hf
  have h0 := x0.isLt
  have h1 := x1.isLt
  have h2 := x2.isLt
  refine decode_of_raw ?_ hf
  show decodeRaw (1660944384 + x0.toNat * 2097152 + x1.toNat * 8 + x2.toNat) 0 = _
  generalize hW : 1660944384 + x0.toNat * 2097152 + x1.toNat * 8 + x2.toNat = w
  rw [decodeRaw_class12 _ (by simp only [fld]; omega)]
  have c0 : fld w 24 3 = 3 := by simp only [fld]; omega
  have r0 : fld w 7 14 = 0 := by simp only [fld]; omega
  simp only [decode12, c0, rsv_zero _ r0]
  rw [bits_eq w 21 x0 (by omega), bits_eq w 3 x1 (by omega), bits_eq w 0 x2 (by omega)]
theorem mfmt (x0 : BitVec 4) (x1 : BitVec 6) : Statement (.mfmt x0 x1) := by
  intro hf
  have h0 := x0.isLt
  have h1 := x1.isLt
  refine decode_of_raw ?_ hf
  show decodeRaw (1677721600 + x0.toNat * 1048576 + x1.toNat * 16384) 0 = _
  generalize hW : 1677721600 + x0.toNat * 1048576 + x1.toNat * 16384 = w
  rw [decodeRaw_class12 _ (by simp only [fld]; omega)]
  have c0 : fld w 24 3 = 4 := by simp only [fld]; omega
  have r0 : fld w 0 14 = 0 := by simp only [fld]; omega
  simp only [decode12, c0, rsv_zero _ r0]
  rw [bits_eq w 20 x0 (by omega), bits_eq w 14 x1 (by omega)]
theorem mhst (x0 : BitVec 2) : Statement (.mhst x0) := by
  intro hf
  have h0 := x0.isLt
  refine decode_of_raw ?_ hf
  show decodeRaw (1694498816 + x0.toNat * 4194304) 0 = _
  generalize hW : 1694498816 + x0.toNat * 4194304 = w
  rw [decodeRaw_class12 _ (by simp only [fld]; omega)]
  have c0 : fld w 24 3 = 5 := by simp only [fld]; omega
  have r0 : fld w 0 22 = 0 := by simp only [fld]; omega
  simp only [decode12, c0, rsv_zero _ r0]
  rw [bits_eq w 22 x0 (by omega)]
theorem cpt (x0 : BitVec 6) (x1 : BitVec 6) (x2 : BitVec 4) (x3 : BitVec 1) (x4 : BitVec 1) : Statement (.cpt x0 x1 x2 x3 x4) := by
  intro hf
  have h0 := x0.isLt
  have h1 := x1.isLt
  have h2 := x2.isLt
  have h3 := x3.isLt
  have h4 := x4.isLt
  refine decode_of_raw ?_ hf
  show decodeRaw (1744830464 + x0.toNat * 262144 + x1.toNat * 4096 + x2.toNat * 256 + x3.toNat * 2 + x4.toNat) 0 = _
  generalize hW : 1744830464 + x0.toNat * 262144 + x1.toNat * 4096 + x2.toNat * 256 + x3.toNat * 2 + x4.toNat = w
  rw [decodeRaw_class13 _ (by simp only [fld]; omega)]
  have c0 : fld w 24 3 = 0 := by simp only [fld]; omega
  have r0 : fld w 2 6 = 0 := by simp only [fld]; omega
  simp only [decode13, c0, rsv_zero _ r0]
  rw [bits_eq w 18 x0 (by omega), bits_eq w 12 x1 (by omega), bits_eq w 8 x2 (by omega), bits_eq w 1 x3 (by omega), bits_eq w 0 x4 (by omega)]
theorem cpa (x0 : BitVec 6) (x1 : BitVec 6) (x2 : BitVec 4) (x3 : BitVec 1) (x4 : BitVec 1) : Statement (.cpa x0 x1 x2 x3 x4) := by
  intro hf
  have h0 := x0.isLt
  have h1 := x1.isLt
  have h2 := x2.isLt
  have h3 := x3.isLt
  have h4 := x4.isLt
  refine decode_of_raw ?_ hf
  show decodeRaw (1761607680 + x0.toNat * 262144 + x1.toNat * 4096 + x2.toNat * 256 + x3.toNat * 2 + x4.toNat) 0 = _
  generalize hW : 1761607680 + x0.toNat * 262144 + x1.toNat * 4096 + x2.toNat * 256 + x3.toNat * 2 + x4.toNat = w
  rw [decodeRaw_class13 _ (by simp only [fld]; omega)]
  have c0 : fld w 24 3 = 1 := by simp only [fld]; omega
  have r0 : fld w 2 6 = 0 := by simp only [fld]; omega
  simp only [decode13, c0, rsv_zero _ r0]
  rw [bits_eq w 18 x0 (by omega), bits_eq w 12 x1 (by omega), bits_eq w 8 x2 (by omega), bits_eq w 1 x3 (by omega), bits_eq w 0 x4 (by omega)]
theorem cpm (x0 : BitVec 6) (x1 : BitVec 6) (x2 : BitVec 4) (x3 : BitVec 1) : Statement (.cpm x0 x1 x2 x3) := by
  intro hf
  have h0 := x0.isLt
  have h1 := x1.isLt
  have h2 := x2.isLt
  have h3 := x3.isLt
  refine decode_of_raw ?_ hf
  show decodeRaw (1778384896 + x0.toNat * 262144 + x1.toNat * 4096 + x2.toNat * 256 + x3.toNat * 2) 0 = _
  generalize hW : 1778384896 + x0.toNat * 262144 + x1.toNat * 4096 + x2.toNat * 256 + x3.toNat * 2 = w
  rw [decodeRaw_class13 _ (by simp only [fld]; omega)]
  have c0 : fld w 24 3 = 2 := by simp only [fld]; omega
  have r0 : fld w 2 6 = 0 := by simp only [fld]; omega
  have r1 : fld w 0 1 = 0 := by simp only [fld]; omega
  simp only [decode13, c0, rsv_zero _ r0, rsv_zero _ r1]
  rw [bits_eq w 18 x0 (by omega), bits_eq w 12 x1 (by omega), bits_eq w 8 x2 (by omega), bits_eq w 1 x3 (by omega)]
theorem cpl (x0 : BitVec 6) (x1 : BitVec 6) (x2 : BitVec 12) : Statement (.cpl x0 x1 x2) := by
  intro hf
  have h0 := x0.isLt
  have h1 := x1.isLt
  have h2 := x2.isLt
  refine decode_of_raw ?_ hf
  show decodeRaw (1795162112 + x0.toNat * 262144 + x1.toNat * 4096 + x2.toNat) 0 = _
  generalize hW : 1795162112 + x0.toNat * 262144 + x1.toNat * 4096 + x2.toNat = w
  rw [decodeRaw_class13 _ (by simp only [fld]; omega)]
  have c0 : fld w 24 3 = 3 := by simp only [fld]; omega
  simp only [decode13, c0]
  rw [bits_eq w 18 x0 (by omega), bits_eq w 12 x1 (by omega), bits_eq w 0 x2 (by omega)]
theorem cpk (x0 : BitVec 6) (x1 : BitVec 6) (x2 : BitVec 4) (x3 : BitVec 1) (x4 : BitVec 1) : Statement (.cpk x0 x1 x2 x3 x4) := by
  intro hf
  have h0 := x0.isLt
  have h1 := x1.isLt
  have h2 := x2.isLt
  have h3 := x3.isLt
  have h4 := x4.isLt
  refine decode_of_raw ?_ hf
  show decodeRaw (1811939328 + x0.toNat * 262144 + x1.toNat * 4096 + x2.toNat * 256 + x3.toNat * 2 + x4.toNat) 0 = _
  generalize hW : 1811939328 + x0.toNat * 262144 + x1.toNat * 4096 + x2.toNat * 256 + x3.toNat * 2 + x4.toNat = w
  rw [decodeRaw_class13 _ (by simp only [fld]; omega)]
  have c0 : fld w 24 3 = 4 := by simp only [fld]; omega
  have r0 : fld w 2 6 = 0 := by simp only [fld]; omega
  simp only [decode13, c0, rsv_zero _ r0]
  rw [bits_eq w 18 x0 (by omega), bits_eq w 12 x1 (by omega), bits_eq w 8 x2 (by omega), bits_eq w 1 x3 (by omega), bits_eq w 0 x4 (by omega)]
theorem sbini (x0 : BitVec 6) (x1 : BitVec 4) : Statement (.sbini x0 x1) := by
  intro hf
  have h0 := x0.isLt
  have h1 := x1.isLt
  refine decode_of_raw ?_ hf
  show decodeRaw (1828716544 + x0.toNat * 262144 + x1.toNat * 256) 0 = _
  generalize hW : 1828716544 + x0.toNat * 262144 + x1.toNat * 256 = w
  rw [decodeRaw_class13 _ (by simp only [fld]; omega)]
  have c0 : fld w 24 3 = 5 := by simp only [fld]; omega
  have r0 : fld w 12 6 = 0 := by simp only [fld]; omega
  have r1 : fld w 0 8 = 0 := by simp only [fld]; omega
  simp only [decode13, c0, rsv_zero _ r0, rsv_zero _ r1]
  rw [bits_eq w 18 x0 (by omega), bits_eq w 8 x1 (by omega)]
theorem sbarr (x0 : BitVec 6) (x1 : BitVec 4) : Statement (.sbarr x0 x1) := by
  intro hf
  have h0 := x0.isLt
  have h1 := x1.isLt
  refine decode_of_raw ?_ hf
  show decodeRaw (1845493760 + x0.toNat * 262144 + x1.toNat * 256) 0 = _
  generalize hW : 1845493760 + x0.toNat * 262144 + x1.toNat * 256 = w
  rw [decodeRaw_class13 _ (by simp only [fld]; omega)]
  have c0 : fld w 24 3 = 6 := by simp only [fld]; omega
  have r0 : fld w 12 6 = 0 := by simp only [fld]; omega
  have r1 : fld w 0 8 = 0 := by simp only [fld]; omega
  simp only [decode13, c0, rsv_zero _ r0, rsv_zero _ r1]
  rw [bits_eq w 18 x0 (by omega), bits_eq w 8 x1 (by omega)]
theorem sbwt (x0 : BitVec 4) (x1 : BitVec 5) (x2 : BitVec 1) : Statement (.sbwt x0 x1 x2) := by
  intro hf
  have h0 := x0.isLt
  have h1 := x1.isLt
  have h2 := x2.isLt
  refine decode_of_raw ?_ hf
  show decodeRaw (1862270976 + x0.toNat * 256 + x1.toNat * 2 + x2.toNat) 0 = _
  generalize hW : 1862270976 + x0.toNat * 256 + x1.toNat * 2 + x2.toNat = w
  rw [decodeRaw_class13 _ (by simp only [fld]; omega)]
  have c0 : fld w 24 3 = 7 := by simp only [fld]; omega
  have r0 : fld w 12 12 = 0 := by simp only [fld]; omega
  have r1 : fld w 6 2 = 0 := by simp only [fld]; omega
  simp only [decode13, c0, rsv_zero _ r0, rsv_zero _ r1]
  rw [bits_eq w 8 x0 (by omega), bits_eq w 1 x1 (by omega), bits_eq w 0 x2 (by omega)]
theorem run (x0 : BitVec 2) (x1 : BitVec 10) (x2 : BitVec 8) : Statement (.run x0 x1 x2) := by
  intro hf
  have h0 := x0.isLt
  have h1 := x1.isLt
  have h2 := x2.isLt
  refine decode_of_raw ?_ hf
  show decodeRaw (1879048192 + x0.toNat * 2097152 + x1.toNat * 2048 + x2.toNat * 8) 0 = _
  generalize hW : 1879048192 + x0.toNat * 2097152 + x1.toNat * 2048 + x2.toNat * 8 = w
  rw [decodeRaw_class14 _ (by simp only [fld]; omega)]
  have c0 : fld w 23 4 = 0 := by simp only [fld]; omega
  have r0 : fld w 0 3 = 0 := by simp only [fld]; omega
  simp only [decode14, c0, rsv_zero _ r0]
  rw [bits_eq w 21 x0 (by omega), bits_eq w 11 x1 (by omega), bits_eq w 3 x2 (by omega)]
theorem runs (x0 : BitVec 2) (x1 : BitVec 10) (x2 : BitVec 8) (x3 : Word) : Statement (.runs x0 x1 x2 x3) := by
  intro hf
  have h0 := x0.isLt
  have h1 := x1.isLt
  have h2 := x2.isLt
  refine decode_of_raw ?_ hf
  show decodeRaw (1887436800 + x0.toNat * 2097152 + x1.toNat * 2048 + x2.toNat * 8) x3 = _
  generalize hW : 1887436800 + x0.toNat * 2097152 + x1.toNat * 2048 + x2.toNat * 8 = w
  rw [decodeRaw_class14 _ (by simp only [fld]; omega)]
  have c0 : fld w 23 4 = 1 := by simp only [fld]; omega
  have r0 : fld w 0 3 = 0 := by simp only [fld]; omega
  simp only [decode14, c0, rsv_zero _ r0]
  rw [bits_eq w 21 x0 (by omega), bits_eq w 11 x1 (by omega), bits_eq w 3 x2 (by omega)]
theorem loopb (x0 : BitVec 2) (x1 : BitVec 6) (x2 : BitVec 15) (x3 : Word) : Statement (.loopb x0 x1 x2 x3) := by
  intro hf
  have h0 := x0.isLt
  have h1 := x1.isLt
  have h2 := x2.isLt
  refine decode_of_raw ?_ hf
  show decodeRaw (1895825408 + x0.toNat * 2097152 + x1.toNat * 32768 + x2.toNat) x3 = _
  generalize hW : 1895825408 + x0.toNat * 2097152 + x1.toNat * 32768 + x2.toNat = w
  rw [decodeRaw_class14 _ (by simp only [fld]; omega)]
  have c0 : fld w 23 4 = 2 := by simp only [fld]; omega
  simp only [decode14, c0]
  rw [bits_eq w 21 x0 (by omega), bits_eq w 15 x1 (by omega), bits_eq w 0 x2 (by omega)]
theorem pace (x0 : BitVec 2) (x1 : BitVec 8) : Statement (.pace x0 x1) := by
  intro hf
  have h0 := x0.isLt
  have h1 := x1.isLt
  refine decode_of_raw ?_ hf
  show decodeRaw (1904214016 + x0.toNat * 2097152 + x1.toNat) 0 = _
  generalize hW : 1904214016 + x0.toNat * 2097152 + x1.toNat = w
  rw [decodeRaw_class14 _ (by simp only [fld]; omega)]
  have c0 : fld w 23 4 = 3 := by simp only [fld]; omega
  have r0 : fld w 8 13 = 0 := by simp only [fld]; omega
  simp only [decode14, c0, rsv_zero _ r0]
  rw [bits_eq w 21 x0 (by omega), bits_eq w 0 x1 (by omega)]
theorem sigt (x0 : BitVec 5) : Statement (.sigt x0) := by
  intro hf
  have h0 := x0.isLt
  refine decode_of_raw ?_ hf
  show decodeRaw (1912602624 + x0.toNat) 0 = _
  generalize hW : 1912602624 + x0.toNat = w
  rw [decodeRaw_class14 _ (by simp only [fld]; omega)]
  have c0 : fld w 23 4 = 4 := by simp only [fld]; omega
  have r0 : fld w 5 18 = 0 := by simp only [fld]; omega
  simp only [decode14, c0, rsv_zero _ r0]
  rw [bits_eq w 0 x0 (by omega)]
theorem waitt (x0 : BitVec 5) (x1 : BitVec 5) : Statement (.waitt x0 x1) := by
  intro hf
  have h0 := x0.isLt
  have h1 := x1.isLt
  refine decode_of_raw ?_ hf
  show decodeRaw (1920991232 + x0.toNat * 32 + x1.toNat) 0 = _
  generalize hW : 1920991232 + x0.toNat * 32 + x1.toNat = w
  rw [decodeRaw_class14 _ (by simp only [fld]; omega)]
  have c0 : fld w 23 4 = 5 := by simp only [fld]; omega
  have r0 : fld w 10 13 = 0 := by simp only [fld]; omega
  simp only [decode14, c0, rsv_zero _ r0]
  rw [bits_eq w 5 x0 (by omega), bits_eq w 0 x1 (by omega)]
theorem guard (x0 : BitVec 2) (x1 : BitVec 4) (x2 : BitVec 1) (x3 : BitVec 5) (x4 : BitVec 1) (x5 : BitVec 5) (x6 : BitVec 1) : Statement (.guard x0 x1 x2 x3 x4 x5 x6) := by
  intro hf
  have h0 := x0.isLt
  have h1 := x1.isLt
  have h2 := x2.isLt
  have h3 := x3.isLt
  have h4 := x4.isLt
  have h5 := x5.isLt
  have h6 := x6.isLt
  refine decode_of_raw ?_ hf
  show decodeRaw (1929379840 + x0.toNat * 2097152 + x1.toNat * 131072 + x2.toNat * 65536 + x3.toNat * 2048 + x4.toNat * 1024 + x5.toNat * 32 + x6.toNat * 16) 0 = _
  generalize hW : 1929379840 + x0.toNat * 2097152 + x1.toNat * 131072 + x2.toNat * 65536 + x3.toNat * 2048 + x4.toNat * 1024 + x5.toNat * 32 + x6.toNat * 16 = w
  rw [decodeRaw_class14 _ (by simp only [fld]; omega)]
  have c0 : fld w 23 4 = 6 := by simp only [fld]; omega
  have r0 : fld w 0 4 = 0 := by simp only [fld]; omega
  simp only [decode14, c0, rsv_zero _ r0]
  rw [bits_eq w 21 x0 (by omega), bits_eq w 17 x1 (by omega), bits_eq w 16 x2 (by omega), bits_eq w 11 x3 (by omega), bits_eq w 10 x4 (by omega), bits_eq w 5 x5 (by omega), bits_eq w 4 x6 (by omega)]
theorem pset (x0 : BitVec 4) (x1 : BitVec 6) : Statement (.pset x0 x1) := by
  intro hf
  have h0 := x0.isLt
  have h1 := x1.isLt
  refine decode_of_raw ?_ hf
  show decodeRaw (1937768448 + x0.toNat * 131072 + x1.toNat * 2048) 0 = _
  generalize hW : 1937768448 + x0.toNat * 131072 + x1.toNat * 2048 = w
  rw [decodeRaw_class14 _ (by simp only [fld]; omega)]
  have c0 : fld w 23 4 = 7 := by simp only [fld]; omega
  have r0 : fld w 21 2 = 0 := by simp only [fld]; omega
  have r1 : fld w 0 11 = 0 := by simp only [fld]; omega
  simp only [decode14, c0, rsv_zero _ r0, rsv_zero _ r1]
  rw [bits_eq w 17 x0 (by omega), bits_eq w 11 x1 (by omega)]
theorem pinv (x0 : BitVec 4) : Statement (.pinv x0) := by
  intro hf
  have h0 := x0.isLt
  refine decode_of_raw ?_ hf
  show decodeRaw (1946157056 + x0.toNat * 131072) 0 = _
  generalize hW : 1946157056 + x0.toNat * 131072 = w
  rw [decodeRaw_class14 _ (by simp only [fld]; omega)]
  have c0 : fld w 23 4 = 8 := by simp only [fld]; omega
  have r0 : fld w 21 2 = 0 := by simp only [fld]; omega
  have r1 : fld w 0 17 = 0 := by simp only [fld]; omega
  simp only [decode14, c0, rsv_zero _ r0, rsv_zero _ r1]
  rw [bits_eq w 17 x0 (by omega)]
theorem qdrn (x0 : BitVec 2) (x1 : BitVec 5) : Statement (.qdrn x0 x1) := by
  intro hf
  have h0 := x0.isLt
  have h1 := x1.isLt
  refine decode_of_raw ?_ hf
  show decodeRaw (1954545664 + x0.toNat * 2097152 + x1.toNat) 0 = _
  generalize hW : 1954545664 + x0.toNat * 2097152 + x1.toNat = w
  rw [decodeRaw_class14 _ (by simp only [fld]; omega)]
  have c0 : fld w 23 4 = 9 := by simp only [fld]; omega
  have r0 : fld w 5 16 = 0 := by simp only [fld]; omega
  simp only [decode14, c0, rsv_zero _ r0]
  rw [bits_eq w 21 x0 (by omega), bits_eq w 0 x1 (by omega)]
theorem qseq (x0 : BitVec 2) (x1 : BitVec 6) (x2 : BitVec 1) : Statement (.qseq x0 x1 x2) := by
  intro hf
  have h0 := x0.isLt
  have h1 := x1.isLt
  have h2 := x2.isLt
  refine decode_of_raw ?_ hf
  show decodeRaw (1962934272 + x0.toNat * 2097152 + x1.toNat * 32768 + x2.toNat * 16384) 0 = _
  generalize hW : 1962934272 + x0.toNat * 2097152 + x1.toNat * 32768 + x2.toNat * 16384 = w
  rw [decodeRaw_class14 _ (by simp only [fld]; omega)]
  have c0 : fld w 23 4 = 10 := by simp only [fld]; omega
  have r0 : fld w 0 14 = 0 := by simp only [fld]; omega
  simp only [decode14, c0, rsv_zero _ r0]
  rw [bits_eq w 21 x0 (by omega), bits_eq w 15 x1 (by omega), bits_eq w 14 x2 (by omega)]
theorem tblw (x0 : BitVec 2) (x1 : BitVec 6) (x2 : BitVec 6) : Statement (.tblw x0 x1 x2) := by
  intro hf
  have h0 := x0.isLt
  have h1 := x1.isLt
  have h2 := x2.isLt
  refine decode_of_raw ?_ hf
  show decodeRaw (1971322880 + x0.toNat * 2097152 + x1.toNat * 32768 + x2.toNat * 512) 0 = _
  generalize hW : 1971322880 + x0.toNat * 2097152 + x1.toNat * 32768 + x2.toNat * 512 = w
  rw [decodeRaw_class14 _ (by simp only [fld]; omega)]
  have c0 : fld w 23 4 = 11 := by simp only [fld]; omega
  have r0 : fld w 0 9 = 0 := by simp only [fld]; omega
  simp only [decode14, c0, rsv_zero _ r0]
  rw [bits_eq w 21 x0 (by omega), bits_eq w 15 x1 (by omega), bits_eq w 9 x2 (by omega)]
theorem lsend (x0 : BitVec 2) (x1 : BitVec 6) : Statement (.lsend x0 x1) := by
  intro hf
  have h0 := x0.isLt
  have h1 := x1.isLt
  refine decode_of_raw ?_ hf
  show decodeRaw (2013265920 + x0.toNat * 2097152 + x1.toNat * 32768) 0 = _
  generalize hW : 2013265920 + x0.toNat * 2097152 + x1.toNat * 32768 = w
  rw [decodeRaw_class15 _ (by simp only [fld]; omega)]
  have c0 : fld w 23 4 = 0 := by simp only [fld]; omega
  have r0 : fld w 0 15 = 0 := by simp only [fld]; omega
  simp only [decode15, c0, rsv_zero _ r0]
  rw [bits_eq w 21 x0 (by omega), bits_eq w 15 x1 (by omega)]
theorem lrecv (x0 : BitVec 2) (x1 : BitVec 6) : Statement (.lrecv x0 x1) := by
  intro hf
  have h0 := x0.isLt
  have h1 := x1.isLt
  refine decode_of_raw ?_ hf
  show decodeRaw (2021654528 + x0.toNat * 2097152 + x1.toNat * 32768) 0 = _
  generalize hW : 2021654528 + x0.toNat * 2097152 + x1.toNat * 32768 = w
  rw [decodeRaw_class15 _ (by simp only [fld]; omega)]
  have c0 : fld w 23 4 = 1 := by simp only [fld]; omega
  have r0 : fld w 0 15 = 0 := by simp only [fld]; omega
  simp only [decode15, c0, rsv_zero _ r0]
  rw [bits_eq w 21 x0 (by omega), bits_eq w 15 x1 (by omega)]
theorem bar (x0 : BitVec 3) : Statement (.bar x0) := by
  intro hf
  have h0 := x0.isLt
  refine decode_of_raw ?_ hf
  show decodeRaw (2030043136 + x0.toNat * 1048576) 0 = _
  generalize hW : 2030043136 + x0.toNat * 1048576 = w
  rw [decodeRaw_class15 _ (by simp only [fld]; omega)]
  have c0 : fld w 23 4 = 2 := by simp only [fld]; omega
  have r0 : fld w 0 20 = 0 := by simp only [fld]; omega
  simp only [decode15, c0, rsv_zero _ r0]
  rw [bits_eq w 20 x0 (by omega)]
theorem barw (x0 : BitVec 3) (x1 : BitVec 5) : Statement (.barw x0 x1) := by
  intro hf
  have h0 := x0.isLt
  have h1 := x1.isLt
  refine decode_of_raw ?_ hf
  show decodeRaw (2038431744 + x0.toNat * 1048576 + x1.toNat) 0 = _
  generalize hW : 2038431744 + x0.toNat * 1048576 + x1.toNat = w
  rw [decodeRaw_class15 _ (by simp only [fld]; omega)]
  have c0 : fld w 23 4 = 3 := by simp only [fld]; omega
  have r0 : fld w 5 15 = 0 := by simp only [fld]; omega
  simp only [decode15, c0, rsv_zero _ r0]
  rw [bits_eq w 20 x0 (by omega), bits_eq w 0 x1 (by omega)]
theorem chwr (x0 : BitVec 8) (x1 : BitVec 6) : Statement (.chwr x0 x1) := by
  intro hf
  have h0 := x0.isLt
  have h1 := x1.isLt
  refine decode_of_raw ?_ hf
  show decodeRaw (2046820352 + x0.toNat * 32768 + x1.toNat * 512) 0 = _
  generalize hW : 2046820352 + x0.toNat * 32768 + x1.toNat * 512 = w
  rw [decodeRaw_class15 _ (by simp only [fld]; omega)]
  have c0 : fld w 23 4 = 4 := by simp only [fld]; omega
  have r0 : fld w 0 9 = 0 := by simp only [fld]; omega
  simp only [decode15, c0, rsv_zero _ r0]
  rw [bits_eq w 15 x0 (by omega), bits_eq w 9 x1 (by omega)]
theorem chrd (x0 : BitVec 8) (x1 : BitVec 6) (x2 : BitVec 4) : Statement (.chrd x0 x1 x2) := by
  intro hf
  have h0 := x0.isLt
  have h1 := x1.isLt
  have h2 := x2.isLt
  refine decode_of_raw ?_ hf
  show decodeRaw (2055208960 + x0.toNat * 32768 + x1.toNat * 512 + x2.toNat * 32) 0 = _
  generalize hW : 2055208960 + x0.toNat * 32768 + x1.toNat * 512 + x2.toNat * 32 = w
  rw [decodeRaw_class15 _ (by simp only [fld]; omega)]
  have c0 : fld w 23 4 = 5 := by simp only [fld]; omega
  have r0 : fld w 0 5 = 0 := by simp only [fld]; omega
  simp only [decode15, c0, rsv_zero _ r0]
  rw [bits_eq w 15 x0 (by omega), bits_eq w 9 x1 (by omega), bits_eq w 5 x2 (by omega)]
theorem chpop (x0 : BitVec 8) : Statement (.chpop x0) := by
  intro hf
  have h0 := x0.isLt
  refine decode_of_raw ?_ hf
  show decodeRaw (2063597568 + x0.toNat * 32768) 0 = _
  generalize hW : 2063597568 + x0.toNat * 32768 = w
  rw [decodeRaw_class15 _ (by simp only [fld]; omega)]
  have c0 : fld w 23 4 = 6 := by simp only [fld]; omega
  have r0 : fld w 0 15 = 0 := by simp only [fld]; omega
  simp only [decode15, c0, rsv_zero _ r0]
  rw [bits_eq w 15 x0 (by omega)]
theorem nodeq (x0 : BitVec 6) : Statement (.nodeq x0) := by
  intro hf
  have h0 := x0.isLt
  refine decode_of_raw ?_ hf
  show decodeRaw (2071986176 + x0.toNat * 131072) 0 = _
  generalize hW : 2071986176 + x0.toNat * 131072 = w
  rw [decodeRaw_class15 _ (by simp only [fld]; omega)]
  have c0 : fld w 23 4 = 7 := by simp only [fld]; omega
  have r0 : fld w 0 17 = 0 := by simp only [fld]; omega
  simp only [decode15, c0, rsv_zero _ r0]
  rw [bits_eq w 17 x0 (by omega)]
theorem glnch (x0 : BitVec 6) : Statement (.glnch x0) := by
  intro hf
  have h0 := x0.isLt
  refine decode_of_raw ?_ hf
  show decodeRaw (2080374784 + x0.toNat * 131072) 0 = _
  generalize hW : 2080374784 + x0.toNat * 131072 = w
  rw [decodeRaw_class15 _ (by simp only [fld]; omega)]
  have c0 : fld w 23 4 = 8 := by simp only [fld]; omega
  have r0 : fld w 0 17 = 0 := by simp only [fld]; omega
  simp only [decode15, c0, rsv_zero _ r0]
  rw [bits_eq w 17 x0 (by omega)]
theorem timedCopyPerform (x0 : Nat) : Statement (.timedCopyPerform x0) := ⟨rfl, rfl⟩
theorem multicastPerform (x0 : Nat) : Statement (.multicastPerform x0) := ⟨rfl, rfl⟩
theorem cplPerform (x0 : Nat) : Statement (.cplPerform x0) := ⟨rfl, rfl⟩
theorem sequenceStampPerform (x0 : Nat) : Statement (.sequenceStampPerform x0) := ⟨rfl, rfl⟩
theorem barrierRelease (x0 : Nat) : Statement (.barrierRelease x0) := ⟨rfl, rfl⟩
theorem tlbWalkComplete (x0 : Nat) (x1 : Nat) (x2 : Nat) : Statement (.tlbWalkComplete x0 x1 x2) := ⟨rfl, rfl⟩
theorem tlbInvalidate (x0 : Nat) (x1 : Nat) : Statement (.tlbInvalidate x0 x1) := ⟨rfl, rfl⟩
theorem nodeReady (x0 : Nat) (x1 : Nat) : Statement (.nodeReady x0 x1) := ⟨rfl, rfl⟩
theorem gangLaunch (x0 : Nat) (x1 : Nat) : Statement (.gangLaunch x0 x1) := ⟨rfl, rfl⟩
theorem powerStateChange (x0 : Bool) (x1 : Nat) : Statement (.powerStateChange x0 x1) := ⟨rfl, rfl⟩
theorem thrrsn (x0 : DWord) : Statement (.thrrsn x0) := ⟨rfl, rfl⟩
theorem enlo (x0 : Nat) : Statement (.enlo x0) := ⟨rfl, rfl⟩
theorem errinj (x0 : DWord) : Statement (.errinj x0) := ⟨rfl, rfl⟩
theorem undoa (x0 : DWord) : Statement (.undoa x0) := ⟨rfl, rfl⟩
theorem errcnt (x0 : Nat) (x1 : DWord) : Statement (.errcnt x0 x1) := ⟨rfl, rfl⟩
theorem quota (x0 : DWord) : Statement (.quota x0) := ⟨rfl, rfl⟩
theorem powercap (x0 : DWord) : Statement (.powercap x0) := ⟨rfl, rfl⟩
theorem resetreq (x0 : DWord) : Statement (.resetreq x0) := ⟨rfl, rfl⟩
theorem fwctl (x0 : DWord) : Statement (.fwctl x0) := ⟨rfl, rfl⟩
theorem hopen (x0 : Nat) (x1 : DWord) : Statement (.hopen x0 x1) := ⟨rfl, rfl⟩
theorem hflags (x0 : Nat) (x1 : DWord) : Statement (.hflags x0 x1) := ⟨rfl, rfl⟩
theorem submit (x0 : Nat) (x1 : DWord) : Statement (.submit x0 x1) := ⟨rfl, rfl⟩
theorem kill (x0 : Nat) (x1 : DWord) : Statement (.kill x0 x1) := ⟨rfl, rfl⟩
theorem hcmdMap (x0 : Nat) (x1 : Nat) : Statement (.hcmdMap x0 x1) := ⟨rfl, rfl⟩
theorem hcmdUnmap (x0 : Nat) (x1 : Nat) : Statement (.hcmdUnmap x0 x1) := ⟨rfl, rfl⟩
theorem hcmdAllocateMap (x0 : Nat) (x1 : Nat) : Statement (.hcmdAllocateMap x0 x1) := ⟨rfl, rfl⟩
theorem hcmdRegisterKey (x0 : Nat) (x1 : Nat) : Statement (.hcmdRegisterKey x0 x1) := ⟨rfl, rfl⟩
theorem registerWrite (x0 : Nat) (x1 : DWord) : Statement (.registerWrite x0 x1) := ⟨rfl, rfl⟩
theorem hostMemoryAccess (x0 : Nat) (x1 : Nat) (x2 : Bool) (x3 : Nat) : Statement (.hostMemoryAccess x0 x1 x2 x3) := ⟨rfl, rfl⟩
theorem linkTraining (x0 : Nat) (x1 : Nat) (x2 : Nat) : Statement (.linkTraining x0 x1 x2) := ⟨rfl, rfl⟩
theorem flitReceive (x0 : Nat) (x1 : Nat × Nat) (x2 : Nat) (x3 : Nat) (x4 : Nat) (x5 : Nat) (x6 : Nat) (x7 : Bool) : Statement (.flitReceive x0 x1 x2 x3 x4 x5 x6 x7) := ⟨rfl, rfl⟩
theorem routeDown (x0 : Nat) : Statement (.routeDown x0) := ⟨rfl, rfl⟩
theorem ptmExchange (x0 : Nat) : Statement (.ptmExchange x0) := ⟨rfl, rfl⟩
theorem stampGloballyVisible (x0 : Nat × Nat) : Statement (.stampGloballyVisible x0) := ⟨rfl, rfl⟩
theorem routingTableWrite (x0 : Nat) (x1 : Nat) : Statement (.routingTableWrite x0 x1) := ⟨rfl, rfl⟩
theorem ret : Statement (.ret) := by
  intro hf
  refine decode_of_raw ?_ hf
  show decodeRaw (444596224) 0 = _
  rfl
theorem endi : Statement (.endi) := by
  intro hf
  refine decode_of_raw ?_ hf
  show decodeRaw (486539264) 0 = _
  rfl
theorem kend : Statement (.kend) := by
  intro hf
  refine decode_of_raw ?_ hf
  show decodeRaw (494927872) 0 = _
  rfl
theorem fenceAcq : Statement (.fenceAcq) := by
  intro hf
  refine decode_of_raw ?_ hf
  show decodeRaw (536897536) 0 = _
  rfl
theorem fenceRel : Statement (.fenceRel) := by
  intro hf
  refine decode_of_raw ?_ hf
  show decodeRaw (536897537) 0 = _
  rfl
theorem fenceFull : Statement (.fenceFull) := by
  intro hf
  refine decode_of_raw ?_ hf
  show decodeRaw (536897538) 0 = _
  rfl
theorem fenceAlias : Statement (.fenceAlias) := by
  intro hf
  refine decode_of_raw ?_ hf
  show decodeRaw (536897539) 0 = _
  rfl
theorem rabort : Statement (.rabort) := by
  intro hf
  refine decode_of_raw ?_ hf
  show decodeRaw (855638016) 0 = _
  rfl
theorem tret : Statement (.tret) := by
  intro hf
  refine decode_of_raw ?_ hf
  show decodeRaw (981467136) 0 = _
  rfl
theorem haltg : Statement (.haltg) := by
  intro hf
  refine decode_of_raw ?_ hf
  show decodeRaw (1015021568) 0 = _
  rfl
theorem heldBundleIssue : Statement (.heldBundleIssue) := ⟨rfl, rfl⟩
theorem waitEnd : Statement (.waitEnd) := ⟨rfl, rfl⟩
theorem waitexp : Statement (.waitexp) := ⟨rfl, rfl⟩
theorem queueEntryStart : Statement (.queueEntryStart) := ⟨rfl, rfl⟩
theorem entryCompletion : Statement (.entryCompletion) := ⟨rfl, rfl⟩
theorem untimedResultLand : Statement (.untimedResultLand) := ⟨rfl, rfl⟩
theorem instantStart : Statement (.instantStart) := ⟨rfl, rfl⟩
theorem instantCommit : Statement (.instantCommit) := ⟨rfl, rfl⟩
theorem swapComplete : Statement (.swapComplete) := ⟨rfl, rfl⟩
theorem preemptResume : Statement (.preemptResume) := ⟨rfl, rfl⟩
theorem stagedWriteApply : Statement (.stagedWriteApply) := ⟨rfl, rfl⟩
theorem recoveryRegionOpen : Statement (.recoveryRegionOpen) := ⟨rfl, rfl⟩
theorem recoveryRegionClose : Statement (.recoveryRegionClose) := ⟨rfl, rfl⟩
theorem freeze : Statement (.freeze) := ⟨rfl, rfl⟩
theorem regionStop : Statement (.regionStop) := ⟨rfl, rfl⟩
theorem rollbackRestart : Statement (.rollbackRestart) := ⟨rfl, rfl⟩
theorem nodeRequeue : Statement (.nodeRequeue) := ⟨rfl, rfl⟩
theorem killDrainComplete : Statement (.killDrainComplete) := ⟨rfl, rfl⟩
theorem killDrainTimeout : Statement (.killDrainTimeout) := ⟨rfl, rfl⟩
theorem heartbeatMissed : Statement (.heartbeatMissed) := ⟨rfl, rfl⟩
theorem quantumExpiry : Statement (.quantumExpiry) := ⟨rfl, rfl⟩
theorem graphCheck : Statement (.graphCheck) := ⟨rfl, rfl⟩
theorem nodeCompletion : Statement (.nodeCompletion) := ⟨rfl, rfl⟩
theorem coalescingWindowClose : Statement (.coalescingWindowClose) := ⟨rfl, rfl⟩
theorem powerDeadlineExpiry : Statement (.powerDeadlineExpiry) := ⟨rfl, rfl⟩
theorem twilightWindowEnd : Statement (.twilightWindowEnd) := ⟨rfl, rfl⟩
theorem energyUpdate : Statement (.energyUpdate) := ⟨rfl, rfl⟩
theorem pwrack : Statement (.pwrack) := ⟨rfl, rfl⟩
theorem firmwareHeartbeat : Statement (.firmwareHeartbeat) := ⟨rfl, rfl⟩
theorem updateHeartbeatTimeout : Statement (.updateHeartbeatTimeout) := ⟨rfl, rfl⟩
theorem getMeasurements : Statement (.getMeasurements) := ⟨rfl, rfl⟩
theorem dawn : Statement (.dawn) := ⟨rfl, rfl⟩
theorem updateSignatureCheck : Statement (.updateSignatureCheck) := ⟨rfl, rfl⟩

end Laws.RoundTrip
end Sys2Proof
end

