-- ==== Sys2Proof/Laws/Plan.lean ====
section
/-! SUPPORT. What a meaning's plan does to the state, said once: an issue by the control core, a dequeue by an engine, a trap, a
hold, and the shared shapes of plans. -/

namespace Sys2Proof.Machine

/-- An update of the acting core, an entry into an agenda, or the use of free values. -/
def Act.isLocal (s : State) : Act → Prop
  | .core id _ => id = s.cur
  | .reg ctx (.sched _ _) => ctx = s.ctx
  | .pkg (.later _ _) => True
  | .pkg (.takeFree _) => True
  | _ => False
/-- The updates of cores in a list, its entries into agendas, and the free values it uses. -/
def coreActs : List Act → List CAct
  | [] => []
  | .core _ a :: l => a :: coreActs l
  | _ :: l => coreActs l
def schedActs : List Act → List (Key × Item)
  | [] => []
  | .reg _ (.sched k it) :: l => (k, it) :: schedActs l
  | _ :: l => schedActs l
def laterActs : List Act → List (Nat × GItem)
  | [] => []
  | .pkg (.later n g) :: l => (n, g) :: laterActs l
  | _ :: l => laterActs l
def freeActs : List Act → Nat
  | [] => 0
  | .pkg (.takeFree n) :: l => n + freeActs l
  | _ :: l => freeActs l
/-- The core after the updates of a list. -/
def Core.after (c : Core) (l : List Act) : Core := (coreActs l).foldl CAct.apply c

theorem coreActs_append (l m : List Act) : coreActs (l ++ m) = coreActs l ++ coreActs m := by
  induction l with
  | nil => rfl
  | cons a l ih => cases a <;> simp [coreActs, ih]
theorem schedActs_append (l m : List Act) : schedActs (l ++ m) = schedActs l ++ schedActs m := by
  induction l with
  | nil => rfl
  | cons a l ih =>
    cases a with
    | reg ctx a => cases a <;> simp [schedActs, ih]
    | _ => simp [schedActs, ih]
theorem laterActs_append (l m : List Act) : laterActs (l ++ m) = laterActs l ++ laterActs m := by
  induction l with
  | nil => rfl
  | cons a l ih =>
    cases a with
    | pkg a => cases a <;> simp [laterActs, ih]
    | _ => simp [laterActs, ih]
theorem freeActs_append (l m : List Act) : freeActs (l ++ m) = freeActs l + freeActs m := by
  induction l with
  | nil => simp [freeActs]
  | cons a l ih =>
    cases a with
    | pkg a => cases a <;> simp [freeActs, ih, Nat.add_assoc]
    | _ => simp [freeActs, ih]
theorem Core.after_append (c : Core) (l m : List Act) : c.after (l ++ m) = (c.after l).after m := by
  simp [Core.after, coreActs_append]

theorem Local.refl (s : State) : Local s s [] := ⟨rfl, fun _ _ => rfl, fun _ _ => rfl, rfl⟩
theorem Local.cur {s t : State} {ev gs n} (h : Local s t ev gs n) : t.cur = s.cur := by rw [h.rest]
theorem Local.ctx {s t : State} {ev gs n} (h : Local s t ev gs n) : t.ctx = s.ctx := by unfold State.ctx; rw [h.cur]
theorem Local.mem {s t : State} {ev gs n} (h : Local s t ev gs n) : t.mem = s.mem := by rw [h.rest]
theorem Local.actor {s t : State} {ev gs n} (h : Local s t ev gs n) : t.actor = s.actor := by rw [h.rest]
theorem Local.word {s t : State} {ev gs n} (h : Local s t ev gs n) : t.word = s.word := by rw [h.rest]
theorem Local.byte {s t : State} {ev gs n} (h : Local s t ev gs n) (key : Nat) : t.byte key = s.byte key := by
  unfold State.byte; rw [h.mem]
/-- One local change after another. -/
theorem Local.trans {s t u : State} {e1 e2 g1 g2 n1 n2} (h1 : Local s t e1 g1 n1) (h2 : Local t u e2 g2 n2) :
    Local s u (e1 ++ e2) (g1 ++ g2) (n1 + n2) := by
  refine ⟨?_, fun id hid => ?_, fun ctx hctx => ?_, ?_⟩
  · have h := h2.rest
    rw [h1.rest] at h
    simp only [laterWith, List.foldl_append, Nat.add_assoc] at *
    exact h
  · rw [h2.cores id (by rw [h1.cur]; exact hid), h1.cores id hid]
  · rw [h2.regions ctx (by rw [h1.ctx]; exact hctx), h1.regions ctx hctx]
  · have h := h2.region
    rw [h1.ctx, h1.region] at h
    rw [h]
    simp only [agendaWith, List.foldl_append]

/-- One local update. -/
theorem apply_local {s : State} {a : Act} (h : a.isLocal s) :
    Local s (Act.apply s a) (schedActs [a]) (laterActs [a]) (freeActs [a]) ∧ (Act.apply s a).cc = s.cc.after [a] := by
  cases a with
  | core id a =>
    have hid : id = s.cur := h
    subst hid
    exact ⟨⟨rfl, fun id hid => Act.core_core_other s a hid, fun _ _ => rfl, rfl⟩, Act.core_core_same s s.cur a⟩
  | reg ctx a =>
    cases a <;> first | exact h.elim | skip
    rename_i k it
    have hctx : ctx = s.ctx := h
    subst hctx
    exact ⟨⟨rfl, fun _ _ => rfl, fun ctx hctx => Act.reg_region_other s _ hctx, Act.reg_region_same s s.ctx _⟩, rfl⟩
  | pkg a => cases a <;> first | exact h.elim | exact ⟨⟨rfl, fun _ _ => rfl, fun _ _ => rfl, rfl⟩, rfl⟩
  | restore id c => exact h.elim

theorem Act.isLocal_of {s t : State} {a : Act} (hc : t.cur = s.cur) (h : a.isLocal s) : a.isLocal t := by
  cases a with
  | core id a => exact (show id = s.cur from h).trans hc.symm
  | reg ctx a =>
    cases a <;> first | exact h.elim | skip
    have hctx : ctx = s.ctx := h
    show ctx = t.ctx
    rw [hctx]; unfold State.ctx; rw [hc]
  | pkg a => cases a <;> exact h
  | restore id c => exact h.elim

theorem schedActs_cons (a : Act) (l : List Act) : schedActs (a :: l) = schedActs [a] ++ schedActs l := schedActs_append [a] l
theorem laterActs_cons (a : Act) (l : List Act) : laterActs (a :: l) = laterActs [a] ++ laterActs l := laterActs_append [a] l
theorem freeActs_cons (a : Act) (l : List Act) : freeActs (a :: l) = freeActs [a] + freeActs l := freeActs_append [a] l

/-- Local updates, applied: the acting core takes the updates of cores, and the agendas the entries. -/
theorem applyAll_local (l : List Act) : ∀ {s : State}, (∀ a ∈ l, a.isLocal s) →
    Local s (s.applyAll l) (schedActs l) (laterActs l) (freeActs l) ∧ (s.applyAll l).cc = s.cc.after l := by
  induction l with
  | nil => intro s _; exact ⟨Local.refl s, rfl⟩
  | cons a l ih =>
    intro s h
    obtain ⟨h1, c1⟩ := apply_local (h a List.mem_cons_self)
    obtain ⟨h2, c2⟩ := ih fun b hb => Act.isLocal_of h1.cur (h b (List.mem_cons_of_mem _ hb))
    rw [State.applyAll_cons, schedActs_cons, laterActs_cons, freeActs_cons]
    refine ⟨h1.trans h2, ?_⟩
    rw [c2, c1, ← Core.after_append]; rfl

/-- The updates that retire a bundle change the core's stream and, in a segment, its running signature. -/
theorem retire_local (s : State) : ∀ a ∈ retire s, a.isLocal s := by
  intro a ha
  unfold retire at ha
  simp only [List.mem_append] at ha
  rcases ha with ha | ha
  · simp only [State.upd, List.mem_cons, List.not_mem_nil, or_false] at ha
    rcases ha with h | h | h | h | h | h <;> subst h <;> rfl
  · split at ha
    · simp only [State.upd, List.mem_singleton] at ha; subst ha; rfl
    · exact absurd ha List.not_mem_nil
theorem retire_quiet (s : State) : schedActs (retire s) = [] ∧ laterActs (retire s) = [] ∧ freeActs (retire s) = 0 := by
  unfold retire
  simp only [schedActs_append, laterActs_append, freeActs_append, State.upd, schedActs, laterActs, freeActs, List.nil_append, Nat.zero_add]
  split <;> exact ⟨rfl, rfl, rfl⟩
/-- The updates that retire a bundle, with the values they write. -/
theorem retire_eq (s : State) : ∃ ls p n, retire s =
    [s.upd (.loopsOld s.cc.loops), s.upd (.loops ls), s.upd (.pc p), s.upd (.nextAt n), s.upd (.held false), s.upd (.xfer 0)] ++
      if s.inSeg && s.cc.xfer ≠ 3 then [s.upd (.crc (bundleBytes s.word))] else [] := ⟨_, _, _, rfl⟩
theorem streamed_six (s : State) (c : Core) (o l : List LoopRun) (p n : Nat) :
    c.after [s.upd (.loopsOld o), s.upd (.loops l), s.upd (.pc p), s.upd (.nextAt n), s.upd (.held false), s.upd (.xfer 0)] =
      { c with loopsOld := o, loops := l, pc := p, nextAt := n, held := false, missed := [], xfer := 0 } := by
  simp only [Core.after, coreActs, State.upd, List.foldl, CAct.apply_loopsOld, CAct.apply_loops, CAct.apply_pc, CAct.apply_nextAt,
    CAct.apply_held, CAct.apply_xfer, Bool.false_eq_true, if_false]
theorem streamed_crc (s : State) (c : Core) (l : List Nat) :
    c.after [s.upd (.crc l)] = { c with seg := c.seg.map fun g => { g with crc := BitVec.ofNat 32 (crcBytes g.crc.toNat l) } } := by
  simp only [Core.after, coreActs, State.upd, List.foldl, CAct.apply_crc]
theorem Core.after_nil (c : Core) : c.after [] = c := by simp only [Core.after, coreActs, List.foldl]
theorem retire_core (s : State) (c : Core) :
    c.after (retire s) = c.streamed (c.after (retire s)) ∧ (c.after (retire s)).seg.map Seg.unsigned = c.seg.map Seg.unsigned ∧
      (c.after (retire s)).held = false ∧ (c.after (retire s)).missed = [] := by
  obtain ⟨ls, p, n, h⟩ := retire_eq s
  rw [h, Core.after_append, streamed_six]
  split
  · rw [streamed_crc]
    simp only [Core.streamed, true_and, and_true]
    cases c.seg <;> rfl
  · rw [Core.after_nil]
    simp only [Core.streamed, and_self]

theorem retire_next (s : State) :
    ((s.cc.after (retire s)).loops, (s.cc.after (retire s)).pc) =
      ((loopsAfter (s.cc.leave s.rr.fwAt) s.cc.issPc s.cc.npc s.cc.loops).1, (loopsAfter (s.cc.leave s.rr.fwAt) s.cc.issPc s.cc.npc s.cc.loops).2.1) ∧
    (s.cc.after (retire s)).nextAt = s.cyc + s.cc.ncost + (loopsAfter (s.cc.leave s.rr.fwAt) s.cc.issPc s.cc.npc s.cc.loops).2.2 * s.cc.divisor 0 := by
  have h : retire s = [s.upd (.loopsOld s.cc.loops), s.upd (.loops (loopsAfter (s.cc.leave s.rr.fwAt) s.cc.issPc s.cc.npc s.cc.loops).1),
      s.upd (.pc (loopsAfter (s.cc.leave s.rr.fwAt) s.cc.issPc s.cc.npc s.cc.loops).2.1),
      s.upd (.nextAt (s.cyc + s.cc.ncost + (loopsAfter (s.cc.leave s.rr.fwAt) s.cc.issPc s.cc.npc s.cc.loops).2.2 * s.cc.divisor 0)),
      s.upd (.held false), s.upd (.xfer 0)] ++ if s.inSeg && s.cc.xfer ≠ 3 then [s.upd (.crc (bundleBytes s.word))] else [] := rfl
  rw [h, Core.after_append, streamed_six]
  split
  · rw [streamed_crc]; simp only [and_self]
  · rw [Core.after_nil]; simp only [and_self]

/-- THE ISSUE OF A WORD whose plan is local updates. -/
theorem resolve_acts {s : State} (hc : s.actor = .control) {l : List Act} (hl : ∀ a ∈ l, a.isLocal s) :
    ∃ t, resolve s (.acts l) = .next t ∧ Issued s t (s.cc.after l) (schedActs l) (laterActs l) (freeActs l) := by
  refine ⟨_, rfl, ?_⟩
  simp only [Plan.run, hc]
  rw [State.applyAll_append]
  obtain ⟨h1, c1⟩ := applyAll_local l hl
  obtain ⟨h2, c2⟩ := applyAll_local (retire (s.applyAll l)) (retire_local _)
  obtain ⟨r1, r2, r3⟩ := retire_core (s.applyAll l) (s.applyAll l).cc
  obtain ⟨n1, n2⟩ := retire_next (s.applyAll l)
  obtain ⟨q1, q2, q3⟩ := retire_quiet (s.applyAll l)
  have hloc : Local s ((s.applyAll l).applyAll (retire (s.applyAll l))) (schedActs l) (laterActs l) (freeActs l) := by
    have h := h1.trans h2
    rw [q1, q2, q3, List.append_nil, List.append_nil, Nat.add_zero] at h
    exact h
  have hcyc : (s.applyAll l).cyc = s.cyc := by
    unfold State.cyc State.rr; rw [h1.ctx, h1.region]
  have hfw : (s.applyAll l).rr.fwAt = (s.region s.ctx).fwAt := by
    unfold State.rr; rw [h1.ctx, h1.region]
  refine ⟨hloc, ?_, ?_, ?_, ?_, ?_, hloc.byte, fun id off hid => ?_⟩
  · rw [c2, c1] at *; exact r1
  · rw [c2]; rw [hfw, c1] at n1; rw [c1]; exact n1
  · rw [c2]; rw [hfw, hcyc, c1] at n2; rw [c1]; exact n2
  · rw [c2]; rw [c1] at *; exact r2
  · rw [c2]; rw [c1] at *; exact r3
  · unfold State.spadByte; rw [hloc.cores id hid]

/-- A DEQUEUE whose plan is local updates. -/
theorem resolve_dequeue {s : State} {e : Nat} (hc : s.actor = .engine e) {l : List Act} (hl : ∀ a ∈ l, a.isLocal s) :
    ∃ t, resolve s (.acts l) = .next t ∧ Dequeued s t e (s.cc.after l) (schedActs l) (laterActs l) (freeActs l) := by
  refine ⟨_, rfl, ?_⟩
  simp only [Plan.run, hc]
  rw [State.applyAll_append]
  obtain ⟨h1, c1⟩ := applyAll_local l hl
  have hr : ∀ a ∈ retireStep (s.applyAll l) e, a.isLocal (s.applyAll l) := by
    intro a ha
    simp only [retireStep, State.upd, List.mem_cons, List.not_mem_nil, or_false] at ha
    rcases ha with h | h <;> subst h <;> rfl
  obtain ⟨h2, c2⟩ := applyAll_local _ hr
  have hloc : Local s ((s.applyAll l).applyAll (retireStep (s.applyAll l) e)) (schedActs l) (laterActs l) (freeActs l) := by
    have h := h1.trans h2
    rw [show schedActs (retireStep (s.applyAll l) e) = [] from rfl, show laterActs (retireStep (s.applyAll l) e) = [] from rfl,
      show freeActs (retireStep (s.applyAll l) e) = 0 from rfl, List.append_nil, List.append_nil, Nat.add_zero] at h
    exact h
  refine ⟨hloc, ?_, hloc.byte, fun id off hid => ?_⟩
  · rw [c2, c1]
    simp only [retireStep, Core.after, coreActs, State.upd, List.foldl, CAct.apply_segBuf, CAct.apply_eng, Core.setEng]
    rw [c1]
    simp only [Core.after]
    split
    · rfl
    · split <;> rfl
  · unfold State.spadByte; rw [hloc.cores id hid]

/-- A TRAP of the control core. -/
theorem resolve_trap {s : State} (hc : s.actor = .control) (f : FaultInfo) :
    ∃ t, resolve s (.trap f) = .next t ∧ Trapped s t f := by
  refine ⟨_, rfl, ?_⟩
  simp only [Plan.run, hc, State.applyAll_cons, State.applyAll_nil, State.upd]
  refine ⟨?_, fun id hid => ?_, fun ctx hctx => ?_, ?_, fun key => ?_⟩
  · show ((Act.apply (Act.apply _ (.core s.cur (.trapped true))) (.core s.cur (.pc s.cc.issPc))).core s.cur) = _
    rw [Act.core_core_same, Act.core_core_same, Act.reg_core]
    rfl
  · rw [Act.core_core_other _ _ hid, Act.core_core_other _ _ hid, Act.reg_core]
  · rw [Act.core_region, Act.core_region, Act.reg_region_other _ _ hctx]
  · rw [Act.core_region, Act.core_region, Act.reg_region_same]
  · unfold State.byte; rw [Act.core_mem, Act.core_mem, Act.reg_mem]

/-- An update of a core changes nothing but the cores. -/
theorem Act.core_rest (s : State) (id : Nat) (a : CAct) :
    Act.apply s (.core id a) = { s with cores := SMap.set {} s.cores id (CAct.apply (s.core id) a) } := rfl
/-- A HOLD by the control core that asks for nothing. -/
theorem resolve_hold {s : State} (hc : s.actor = .control) : ∃ t, resolve s (.hold []) = .next t ∧ Held s t := by
  refine ⟨_, rfl, ?_⟩
  simp only [Plan.run, hc, List.nil_append, State.applyAll_cons, State.applyAll_nil, State.upd]
  refine ⟨?_, fun id hid => ?_, ?_⟩
  · simp only [Act.core_rest]
  · rw [Act.core_core_other _ _ hid, Act.core_core_other _ _ hid, Act.core_core_other _ _ hid]
  · unfold State.cc
    simp only [Act.core_cur]
    rw [Act.core_core_same, Act.core_core_same, Act.core_core_same]
    simp only [CAct.apply_held, CAct.apply_pc, CAct.apply_nextAt, if_true]

/-- What a scalar result is where its tags agree, its clock is present and no source carries an error (R53). -/
theorem State.scalar_ok {s : State} {srcs : List Nat} {d L grp : Nat} {v : DWord} {fl : Nat} {tg : Tag}
    (hg : s.cc.common (srcs.map fun r => (s.cc.reg r).tag) = some tg) (hp : s.cc.present tg = true)
    (hb : (srcs.any fun r => (s.cc.reg r).bad) = false) :
    s.scalar srcs d L grp v fl = .acts [s.lands L grp (.reg d v tg false :: if fl = 0 then [] else [.orFlags fl])] := by
  unfold State.scalar
  simp only [hg, hp, hb]
  rfl
/-- A landing is one entry in the agenda. -/
theorem State.lands_local (s : State) (n grp : Nat) (l : List CAct) : (s.lands n grp l).isLocal s := rfl
theorem schedActs_lands (s : State) (n grp : Nat) (l : List CAct) (m : List Act) :
    schedActs (s.lands n grp l :: m) = (s.key (s.cyc + n * s.mul) grp, .land s.cur l) :: schedActs m := rfl
theorem coreActs_lands (s : State) (n grp : Nat) (l : List CAct) (m : List Act) : coreActs (s.lands n grp l :: m) = coreActs m := rfl

/-- Work whose condition holds goes on (R47). -/
@[simp] theorem State.unless_true (s : State) (cause obj : Nat) (p : Plan) : s.unless true cause obj p = p := rfl
@[simp] theorem State.holdFirst_true (s : State) (p : Plan) : s.holdFirst true p = p := rfl
/-- Outside a segment an untimed word goes on (R65). -/
theorem State.notTimed_ok {s : State} (h : s.inSeg = false) (p : Plan) : s.notTimed p = p := by simp [State.notTimed, h]

/-- A step that executes normally: its results, the bits it changes, and its occupancy (R111, R112, R129, R142). -/
theorem engineStep_ok {s : State} {i : Instr} {p : EStep} {body : Tag → List Act} {e : Nat} {tg : Tag} (h : Runs s p e tg) :
    engineStep s i p body = .acts (body tg ++ p.bits s (e + 1) ++ p.always ++ [s.stepDone p.occ p.land 0]) := by
  obtain ⟨ha, hr, ht, hp, hb, hl, hm, h1, h4, h2, h3⟩ := h
  have h3' : ¬ (p.rdDst = true ∧ (p.dst.map s.cc.rowsErr).getD false = true) := fun ⟨x, y⟩ => by rw [h3 x] at y; exact Bool.noConfusion y
  unfold engineStep
  simp only [ha, hr, State.unless_true, ht, hb, hl, hp, Bool.not_true, Bool.false_eq_true, if_false, hm, h1, h4, h2, false_or, h3',
    State.holdFirst, Option.isNone_none, Bool.or_true, Bool.false_and]

/-! ## One instruction -/

/-- The updates of a list are local, checked one by one. -/
theorem all_local {s : State} {l : List Act}
    (h : (l.all fun a => match a with
      | .core id _ => decide (id = s.cur)
      | .reg c (.sched _ _) => decide (c = s.ctx)
      | .pkg (.later _ _) => true
      | .pkg (.takeFree _) => true
      | _ => false) = true) : ∀ a ∈ l, a.isLocal s := by
  intro a ha
  have h := List.all_eq_true.mp h a ha
  cases a with
  | core id a => exact (of_decide_eq_true h : id = s.cur)
  | reg c a => cases a <;> first | exact (of_decide_eq_true h : c = s.ctx) | exact absurd h Bool.false_ne_true
  | pkg a => cases a <;> first | exact trivial | exact absurd h Bool.false_ne_true
  | restore id c => exact absurd h Bool.false_ne_true
/-- A word whose meaning is a list of local updates issues. -/
theorem exec_issues {i : Instr} {s : State} (l : List Act) (hc : s.actor = .control) (he : exec i s = resolve s (.acts l))
    (hl : ∀ a ∈ l, a.isLocal s) :
    ∃ t, exec i s = .next t ∧ Issued s t (s.cc.after l) (schedActs l) (laterActs l) (freeActs l) := he ▸ resolve_acts hc hl
/-- A step whose meaning is a list of local updates dequeues. -/
theorem exec_dequeues {i : Instr} {s : State} {e : Nat} (l : List Act) (hc : s.actor = .engine e)
    (he : exec i s = resolve s (.acts l)) (hl : ∀ a ∈ l, a.isLocal s) :
    ∃ t, exec i s = .next t ∧ Dequeued s t e (s.cc.after l) (schedActs l) (laterActs l) (freeActs l) := he ▸ resolve_dequeue hc hl
/-- A word whose meaning is a trap stops the stream. -/
theorem exec_traps {i : Instr} {s : State} (f : FaultInfo) (hc : s.actor = .control) (he : exec i s = resolve s (.trap f)) :
    ∃ t, exec i s = .next t ∧ Trapped s t f := he ▸ resolve_trap hc f
/-- A word whose meaning is a hold holds its bundle. -/
theorem exec_holds {i : Instr} {s : State} (hc : s.actor = .control) (he : exec i s = resolve s (.hold [])) :
    ∃ t, exec i s = .next t ∧ Held s t := he ▸ resolve_hold hc
/-- A jump or branch, and a CALL or RET, go on at their target. -/
theorem loopsAfter_jump (iss next : Nat) (ls : List LoopRun) : (loopsAfter 1 iss next ls).2 = (next, 0) := by
  induction ls with
  | nil => rfl
  | cons l ls ih =>
    simp only [loopsAfter, show ¬ 2 ≤ 1 by decide, if_false, if_true]
    split
    · rfl
    · exact ih
/-- A CALL, a RET and a TRET leave the loops as they are (R71, R217). -/
theorem loopsAfter_stays {x : Nat} (hx : 2 ≤ x) (iss next : Nat) (ls : List LoopRun) : loopsAfter x iss next ls = (ls, next, 0) := by
  cases ls with
  | nil => rfl
  | cons l ls => simp only [loopsAfter, hx, if_true]
theorem loopsAfter_call (iss next : Nat) (ls : List LoopRun) : (loopsAfter 2 iss next ls).2 = (next, 0) := by
  rw [loopsAfter_stays (by decide)]

end Sys2Proof.Machine
end

