-- ==== Sys2Proof/Tests/Slice0.lean ====
section
/-! SUPPORT. Tests: an ill-formed term for each check of the field limits, words of every class written out from the spec's
encodings, single steps and arithmetic on the spec's worked examples, and for every statement a state that meets its hypotheses. -/

namespace Sys2Proof.Tests

open Sys2Proof.Machine Sys2Proof.Claim

/-! ## Field limits (R38, R41 and the entries of the words) -/

/-- A term for each limit of the words of classes 3 to 7, each past it by one where it is a bound. -/
def illFormedControl : List Instr :=
  [.idle 0, .loop 6 1 1, .loop 0 1 0, .loops 6 1 1, .loops 0 1 0, .segb 0 1, .nexts 1 0 0, .ckdef 0 64 1 2, .when 64 1 2, .when 1 64 2,
   .whenT 96 1 2, .whenT 1 96 2, .merge 64 1 2, .merge 1 64 2, .mergeT 96 1 2, .mergeT 1 96 2, .dlyi 64 1 1, .dlyr 64 1, .dlyw 64 1,
   .cktst 64 1, .ckstat 64 1, .rpresvS 3 2, .rpresvT 3 2, .rpresvT 3 96]
/-- A term for each limit of the words of classes 8 to 10. -/
def illFormedVector : List Instr :=
  [.vadd 96 0 0 0, .vadd 0 96 0 0, .vsub 96 0 0 0, .vsub 0 96 0 0, .vadds 96 0 0 0, .vadds 0 96 0 0, .vaddsu 96 0 0 0, .vaddsu 0 96 0 0,
   .vmul 96 0 0 0, .vmul 0 96 0 0, .vmulh 96 0 0 0, .vmulh 0 96 0 0, .vmin 96 0 0 0, .vmin 0 96 0 0, .vmax 96 0 0 0, .vmax 0 96 0 0,
   .vminu 96 0 0 0, .vminu 0 96 0 0, .vmaxu 96 0 0 0, .vmaxu 0 96 0 0, .vand 96 0 0 0, .vand 0 96 0 0, .vor 96 0 0 0, .vor 0 96 0 0,
   .vxor 96 0 0 0, .vxor 0 96 0 0, .vshl 96 0 0 0, .vshl 0 96 0 0, .vshr 96 0 0 0, .vshr 0 96 0 0, .vsra 96 0 0 0, .vsra 0 96 0 0]
def illFormedFloat : List Instr :=
  [.vfadd 96 0 0 0, .vfadd 0 96 0 0, .vfadd 0 0 0 3, .vfsub 96 0 0 0, .vfsub 0 96 0 0, .vfsub 0 0 0 3, .vfmul 96 0 0 0, .vfmul 0 96 0 0,
   .vfmul 0 0 0 3, .vfma 96 0 0 0, .vfma 0 96 0 0, .vfma 0 0 0 3, .vfmin 96 0 0 0, .vfmin 0 96 0 0, .vfmin 0 0 0 3, .vfmax 96 0 0 0,
   .vfmax 0 96 0 0, .vfmax 0 0 0 3, .vfabs 96 0 0, .vfabs 0 96 0, .vfabs 0 0 3, .vfneg 96 0 0, .vfneg 0 96 0, .vfneg 0 0 3] ++
  [.vfrcp 96 0 0, .vfrcp 0 96 0, .vfrcp 0 0 3, .vfrsq 96 0 0, .vfrsq 0 96 0, .vfrsq 0 0 3, .vfexp2 96 0 0, .vfexp2 0 96 0, .vfexp2 0 0 3,
   .vflog2 96 0 0, .vflog2 0 96 0, .vflog2 0 0 3, .vfrsum 96 0 0, .vfrsum 0 96 0, .vfrsum 0 0 3, .vfrmax 96 0 0, .vfrmax 0 96 0,
   .vfrmax 0 0 3, .vfscl 96 0 0 0, .vfscl 0 96 0 0, .vfscl 0 0 0 3, .vfcpy 96 0 0 0, .vfcpy 0 96 0 0, .vfcpy 0 0 0 3]
def illFormedData : List Instr :=
  [.vcvt 96 0 0 0 0, .vcvt 0 96 0 0 0, .vcvt 0 0 9 0 0, .vcvt 0 0 10 0 0, .vcvt 0 0 12 0 0, .vexp 96 0 0, .vexp 0 96 0, .vmxs 96 0,
   .vmxs 0 96, .vcmpeq 96 0 0, .vcmpeq 0 96 0, .vcmplt 96 0 0, .vcmplt 0 96 0, .vcmple 96 0 0, .vcmple 0 96 0, .vfcmpeq 96 0 0,
   .vfcmpeq 0 96 0, .vfcmplt 96 0 0, .vfcmplt 0 96 0, .vfcmple 96 0 0, .vfcmple 0 96 0, .vsel 96 0 0, .vsel 0 96 0, .vtrn 96 0, .vtrn 0 96] ++
  [.vbcr 96 0 96, .vbcr 0 96 96, .vbcr 0 0 95, .vshuf 96 0 0, .vshuf 0 96 0, .vmov 96 0, .vmov 0 96, .vrot 96 0 96, .vrot 0 96 96,
   .vrot 0 0 95, .vpck 96 0 0, .vpck 0 96 0, .vupk 96 0, .vupk 0 96, .viota 96, .vget 64 0 96, .vget 0 96 96, .vget 0 0 95, .vput 96 0 96,
   .vput 0 64 96, .vput 0 0 95, .vsete 96 0, .vsete 0 2]
/-- A term for each limit of the words of classes 11 to 15. -/
def illFormedEngine : List Instr :=
  [.tld 96 0 0, .tst 96 0 0, .tlds 96 0 0, .tsts 96 0 0, .tstm 96 0 0, .tlook 64 0, .tins 64 0 0, .tevt 64 0, .tagrd 64 0,
   .mma 0 96 0 0 0 0 0, .mldb 96 0 0 0 0, .mdrn 0 96 0 0, .run 3 0 0, .runs 3 0 0 0, .qseq 3 0 0, .qseq 0 0 1, .qseq 1 0 1, .tblw 3 0 0]
theorem test_illFormed : ∀ l ∈ [illFormedControl, illFormedVector, illFormedFloat, illFormedData, illFormedEngine],
    ∀ i ∈ l, i.wellFormed = false := by decide
/-- A word that breaks a limit, or sets a reserved bit, or names a reserved code, stands for nothing (R41). -/
theorem test_illegalWords : ∀ w ∈ [0x80000020, 0xA8004112, 0x9F800000, 0xBE000000, 0xC6000000, 0x8DA9CBAD],
    decodeTableWord 32 w = none := by decide

/-! ## Words of every class (R30 to R41), E set -/

/-- Words of class 0, from its rows of the opcode table. -/
def wordsRegister : List (Nat × Instr) :=
  [(0x85A9EC00, .add 0x2D 0x13 0x36), (0x85A9EC01, .sub 0x2D 0x13 0x36), (0x85A9EC02, .mul 0x2D 0x13 0x36),
   (0x85A9EC03, .mulh 0x2D 0x13 0x36), (0x85A9EC04, .mulhu 0x2D 0x13 0x36), (0x85A9EC05, .div 0x2D 0x13 0x36),
   (0x85A9EC06, .divu 0x2D 0x13 0x36), (0x85A9EC07, .rem 0x2D 0x13 0x36), (0x85A9EC08, .remu 0x2D 0x13 0x36),
   (0x85A9EC09, .andS 0x2D 0x13 0x36), (0x85A9EC0A, .orS 0x2D 0x13 0x36), (0x85A9EC0B, .xorS 0x2D 0x13 0x36),
   (0x85A9EC0C, .andn 0x2D 0x13 0x36), (0x85A9EC0D, .shl 0x2D 0x13 0x36), (0x85A9EC0E, .shr 0x2D 0x13 0x36),
   (0x85A9EC0F, .sra 0x2D 0x13 0x36), (0x85A9EC10, .rot 0x2D 0x13 0x36), (0x85A9EC11, .min 0x2D 0x13 0x36)] ++
  [(0x85A9EC12, .max 0x2D 0x13 0x36), (0x85A9EC13, .minu 0x2D 0x13 0x36), (0x85A9EC14, .maxu 0x2D 0x13 0x36),
   (0x85A9EC15, .seq 0x2D 0x13 0x36), (0x85A9EC16, .slt 0x2D 0x13 0x36), (0x85A9EC17, .sltu 0x2D 0x13 0x36),
   (0x85A9EC18, .sel 0x2D 0x13 0x36), (0x85A98019, .clz 0x2D 0x13), (0x85A9801A, .ctz 0x2D 0x13),
   (0x85A9801B, .popc 0x2D 0x13), (0x85A9EC1C, .addsat 0x2D 0x13 0x36), (0x85A9EC1D, .subsat 0x2D 0x13 0x36),
   (0x85A9EC1E, .bext 0x2D 0x13 0x36), (0x85A9EC1F, .bins 0x2D 0x13 0x36)]
theorem test_wordsRegister : ∀ p ∈ wordsRegister, decodeTableWord 32 p.1 = some p.2 := by decide
/-- Words of class 1, from its rows of the opcode table. -/
def wordsImmediate : List (Nat × Instr) :=
  [(0x8DA98B6D, .addi 0x2D 0x13 0xB6D), (0x8DA99B6D, .andi 0x2D 0x13 0xB6D), (0x8DA9AB6D, .ori 0x2D 0x13 0xB6D),
   (0x8DA9BB6D, .xori 0x2D 0x13 0xB6D), (0x8DA9C036, .shli 0x2D 0x13 0x36), (0x8DA9D036, .shri 0x2D 0x13 0x36),
   (0x8DA9E036, .srai 0x2D 0x13 0x36), (0x8DA9FB6D, .slti 0x2D 0x13 0xB6D)]
theorem test_wordsImmediate : ∀ p ∈ wordsImmediate, decodeTableWord 32 p.1 = some p.2 := by decide
/-- Words of class 2, from its rows of the opcode table. -/
def wordsUpper : List (Nat × Instr) :=
  [(0x95A5B6D3, .movi 0x2D 0x5B6D3), (0x95ADB6D3, .insh 0x2D 0x5B6D3), (0x95B016D5, .inst 0x2D 0x16D5),
   (0x95BDB6D3, .movf 0x2D 0x5B6D3)]
theorem test_wordsUpper : ∀ p ∈ wordsUpper, decodeTableWord 32 p.1 = some p.2 := by decide
/-- Words of class 3, from its rows of the opcode table. -/
def wordsControl : List (Nat × Instr) :=
  [(0x9800B6D3, .idle 0xB6D3), (0x988016D5, .jmp 0x16D5), (0x995A16D5, .bnz 0x2D 0x16D5),
   (0x99DA16D5, .bz 0x2D 0x16D5), (0x9A0016D5, .call 0x16D5), (0x9A800000, .ret),
   (0x9B4B6DA7, .loop 4 0xB6D 0xA7), (0x9BC4C0A7, .loops 4 0x13 0xA7), (0x9C05B6D3, .segb 5 0xB6D3),
   (0x9C800000, .sege 0), (0x9D000000, .endi), (0x9D800000, .kend),
   (0x9E5ADB6D, .nexts 0x2D 0xD 0xB6D), (0x9EDA9CB3, .waits 0x5A9CB3)]
theorem test_wordsControl : ∀ p ∈ wordsControl, decodeTableWord 32 p.1 = some p.2 := by decide
/-- Words of class 4, from its rows of the opcode table. -/
def wordsMemory : List (Nat × Instr) :=
  [(0xA5A985B3, .ldb 0x2D 0x13 0x5B3), (0xA5A98DB3, .ldbu 0x2D 0x13 0x5B3), (0xA5A995B3, .ldh 0x2D 0x13 0x5B3),
   (0xA5A99DB3, .ldhu 0x2D 0x13 0x5B3), (0xA5A9A5B3, .ldw 0x2D 0x13 0x5B3), (0xA5A9ADB3, .ldwu 0x2D 0x13 0x5B3),
   (0xA5A9B5B3, .ldd 0x2D 0x13 0x5B3), (0xA5A9BDB3, .stb 0x2D 0x13 0x5B3), (0xA5A9C5B3, .sth 0x2D 0x13 0x5B3),
   (0xA5A9CDB3, .stw 0x2D 0x13 0x5B3), (0xA5A9D5B3, .std 0x2D 0x13 0x5B3), (0xA5A0580D, .lwait 0x2D 0xD),
   (0xA5A9E6C0, .aadd 0x2D 0x13 0x36), (0xA5A9E6C1, .aand 0x2D 0x13 0x36), (0xA5A9E6C2, .aor 0x2D 0x13 0x36),
   (0xA5A9E6C3, .axor 0x2D 0x13 0x36), (0xA5A9E6C4, .amin 0x2D 0x13 0x36), (0xA5A9E6C5, .amax 0x2D 0x13 0x36)] ++
  [(0xA5A9E6C6, .aminu 0x2D 0x13 0x36), (0xA5A9E6C7, .amaxu 0x2D 0x13 0x36), (0xA5A9E6C8, .aswap 0x2D 0x13 0x36),
   (0xA5A9E6C9, .acas 0x2D 0x13 0x36), (0xA016E26A, .afadd 0x2D 0x13), (0xA016E26B, .acell 0x2D 0x13),
   (0xA5A9E00C, .acrd 0x2D 0x13), (0xA5A9E6CD, .acflg 0x2D 0x13 0x36), (0xA0006800, .fenceAcq),
   (0xA0006801, .fenceRel), (0xA0006802, .fenceFull), (0xA0006803, .fenceAlias),
   (0xA5A9F6D3, .mwait 0x2D 0x13 0x36 0x13), (0xA016F80D, .qwait 0x2D 0xD)]
theorem test_wordsMemory : ∀ p ∈ wordsMemory, decodeTableWord 32 p.1 = some p.2 := by decide
/-- Words of class 5, from its rows of the opcode table. -/
def wordsStream : List (Nat × Instr) :=
  [(0xA81693D6, .ckdef 0x2D 0x13 0xD 6), (0xA88000B6, .ckneg 0xB 6), (0xA91693D0, .when 0x2D 0x13 0xD),
   (0xA95693D0, .whenT 0x2D 0x13 0xD), (0xA99693D0, .merge 0x2D 0x13 0xD), (0xA9D693D0, .mergeT 0x2D 0x13 0xD),
   (0xAA002D6D, .dlyi 0x2D 6 0xD), (0xAA968006, .dlyr 0x2D 6), (0xAB002D06, .dlyw 0x2D 6),
   (0xAB968060, .cktst 0x2D 6), (0xAC168060, .ckstat 0x2D 6)]
theorem test_wordsStream : ∀ p ∈ wordsStream, decodeTableWord 32 p.1 = some p.2 := by decide
/-- Words of class 6, from its rows of the opcode table. -/
def wordsRecovery : List (Nat × Instr) :=
  [(0xB0000013, .rbegin 0x13), (0xB0A76800, .rpresvS 0x13 0x2D), (0xB1139A00, .rpresvT 0x13 0x4D),
   (0xB1DA9800, .rpresvM 0x2D 0x13), (0xB2538000, .rpresvC 0xA7), (0xB2800013, .rend 0x13),
   (0xB3000000, .rabort), (0xB3DA0000, .rpol 0x2D), (0xB4538000, .safept 0xA7)]
theorem test_wordsRecovery : ∀ p ∈ wordsRecovery, decodeTableWord 32 p.1 = some p.2 := by decide
/-- Words of class 7, from its rows of the opcode table. -/
def wordsSystem : List (Nat × Instr) :=
  [(0xB85A0B6D, .csrr 0x2D 0xB6D), (0xB8DA0B6D, .csrw 0x2D 0xB6D), (0xB95A0B6D, .csrs 0x2D 0xB6D),
   (0xB9DA0B6D, .csrc 0x2D 0xB6D), (0xBA00B6D3, .trap 0xB6D3), (0xBA800000, .tret),
   (0xBB00B6D3, .brk 0xB6D3), (0xBB800002, .fidel 2), (0xBC000013, .clkdiv 2 3),
   (0xBC800000, .haltg), (0xBD5A0000, .killc 0x2D), (0xBDDA9800, .tlblk 0x2D 0x13)]
theorem test_wordsSystem : ∀ p ∈ wordsSystem, decodeTableWord 32 p.1 = some p.2 := by decide
/-- Words of class 8, from its rows of the opcode table. -/
def wordsInteger : List (Nat × Instr) :=
  [(0xC2D26D82, .vadd 0x2D 0x13 0x36 2), (0xC2D26D86, .vsub 0x2D 0x13 0x36 2), (0xC2D26D8A, .vadds 0x2D 0x13 0x36 2),
   (0xC2D26D8E, .vaddsu 0x2D 0x13 0x36 2), (0xC2D26D92, .vmul 0x2D 0x13 0x36 2), (0xC2D26D96, .vmulh 0x2D 0x13 0x36 2),
   (0xC2D26D9A, .vmin 0x2D 0x13 0x36 2), (0xC2D26D9E, .vmax 0x2D 0x13 0x36 2), (0xC2D26DA2, .vminu 0x2D 0x13 0x36 2),
   (0xC2D26DA6, .vmaxu 0x2D 0x13 0x36 2), (0xC2D26DAA, .vand 0x2D 0x13 0x36 2), (0xC2D26DAE, .vor 0x2D 0x13 0x36 2),
   (0xC2D26DB2, .vxor 0x2D 0x13 0x36 2), (0xC2D26DB6, .vshl 0x2D 0x13 0x36 2), (0xC2D26DBA, .vshr 0x2D 0x13 0x36 2),
   (0xC2D26DBE, .vsra 0x2D 0x13 0x36 2)]
theorem test_wordsInteger : ∀ p ∈ wordsInteger, decodeTableWord 32 p.1 = some p.2 := by decide
/-- Words of class 9, from its rows of the opcode table. -/
def wordsFloat : List (Nat × Instr) :=
  [(0xCAD26D82, .vfadd 0x2D 0x13 0x36 2), (0xCAD26D86, .vfsub 0x2D 0x13 0x36 2), (0xCAD26D8A, .vfmul 0x2D 0x13 0x36 2),
   (0xCAD26D8E, .vfma 0x2D 0x13 0x36 2), (0xCAD26D92, .vfmin 0x2D 0x13 0x36 2), (0xCAD26D96, .vfmax 0x2D 0x13 0x36 2),
   (0xCAD2601A, .vfabs 0x2D 0x13 2), (0xCAD2601E, .vfneg 0x2D 0x13 2), (0xCAD26022, .vfrcp 0x2D 0x13 2),
   (0xCAD26026, .vfrsq 0x2D 0x13 2), (0xCAD2602A, .vfexp2 0x2D 0x13 2), (0xCAD2602E, .vflog2 0x2D 0x13 2),
   (0xCAD26032, .vfrsum 0x2D 0x13 2), (0xCAD26036, .vfrmax 0x2D 0x13 2), (0xCAD26DBA, .vfscl 0x2D 0x13 0x36 2),
   (0xCAD26DBE, .vfcpy 0x2D 0x13 0x36 2)]
theorem test_wordsFloat : ∀ p ∈ wordsFloat, decodeTableWord 32 p.1 = some p.2 := by decide
/-- Words of class 10, from its rows of the opcode table. -/
def wordsData : List (Nat × Instr) :=
  [(0xD2D27740, .vcvt 0x2D 0x13 0xB 2 1), (0xD2D26201, .vexp 0x2D 0x13 0), (0xD2D26002, .vmxs 0x2D 0x13),
   (0xD2D26D83, .vcmpeq 0x2D 0x13 0x36), (0xD2D26D84, .vcmplt 0x2D 0x13 0x36), (0xD2D26D85, .vcmple 0x2D 0x13 0x36),
   (0xD2D26D86, .vfcmpeq 0x2D 0x13 0x36), (0xD2D26D87, .vfcmplt 0x2D 0x13 0x36), (0xD2D26D88, .vfcmple 0x2D 0x13 0x36),
   (0xD2D26D89, .vsel 0x2D 0x13 0x36), (0xD2D2600A, .vtrn 0x2D 0x13), (0xD2D27B4B, .vbcr 0x2D 0x13 0x6D),
   (0xD2D26D8C, .vshuf 0x2D 0x13 0x36), (0xD2D2600D, .vmov 0x2D 0x13), (0xD2D27E4E, .vrot 0x2D 0x13 0x79),
   (0xD2D26D8F, .vpck 0x2D 0x13 0x36), (0xD2D26010, .vupk 0x2D 0x13), (0xD2D00011, .viota 0x2D)] ++
  [(0xD2D278D2, .vget 0x2D 0x13 0x63), (0xD2D27F93, .vput 0x2D 0x13 0x7E), (0xD2D00054, .vsete 0x2D 1)]
theorem test_wordsData : ∀ p ∈ wordsData, decodeTableWord 32 p.1 = some p.2 := by decide
/-- Words of class 11, from its rows of the opcode table. -/
def wordsTile : List (Nat × Instr) :=
  [(0xDAD4C2D9, .tld 0x2D 0x13 0x2D9), (0xDAD4C6D9, .tst 0x2D 0x13 0x2D9), (0xDAD4CAD9, .tlds 0x2D 0x13 0x2D9),
   (0xDAD4CED9, .tsts 0x2D 0x13 0x2D9), (0xDAD4D036, .tstm 0x2D 0x13 0x36), (0xDAD4D400, .tlook 0x2D 0x13),
   (0xDAD4D836, .tins 0x2D 0x13 0x36), (0xDAD4DC00, .tevt 0x2D 0x13), (0xDAD4E000, .tagrd 0x2D 0x13)]
theorem test_wordsTile : ∀ p ∈ wordsTile, decodeTableWord 32 p.1 = some p.2 := by decide
/-- Words of class 12, from its rows of the opcode table. -/
def wordsMatrix : List (Nat × Instr) :=
  [(0xE0A4F675, .mma 5 0x13 0xD 0x13 1 0 5), (0xE10B5B58, .mldb 0x2D 6 0x1A 1 1), (0xE2A4F260, .mdrn 5 0x13 6 0x13),
   (0xE3A00036, .mzero 5 6 6), (0xE4B4C000, .mfmt 0xB 0x13), (0xE5800000, .mhst 2)]
theorem test_wordsMatrix : ∀ p ∈ wordsMatrix, decodeTableWord 32 p.1 = some p.2 := by decide
/-- Words of class 13, from its rows of the opcode table. -/
def wordsCopy : List (Nat × Instr) :=
  [(0xE8B53D03, .cpt 0x2D 0x13 0xD 1 1), (0xE9B53D03, .cpa 0x2D 0x13 0xD 1 1), (0xEAB53D02, .cpm 0x2D 0x13 0xD 1),
   (0xEBB53B6D, .cpl 0x2D 0x13 0xB6D), (0xECB53D03, .cpk 0x2D 0x13 0xD 1 1), (0xEDB40600, .sbini 0x2D 6),
   (0xEEB40600, .sbarr 0x2D 6), (0xEF000B1A, .sbwt 0xB 0xD 0)]
theorem test_wordsCopy : ∀ p ∈ wordsCopy, decodeTableWord 32 p.1 = some p.2 := by decide
/-- Words of class 14, from its rows of the opcode table. -/
def wordsQueue : List (Nat × Instr) :=
  [(0xF056CD38, .run 2 0x2D9 0xA7), (0xF0D6CD38, .runs 2 0x2D9 0xA7 0), (0xF149DB6D, .loopb 2 0x13 0x5B6D 0),
   (0xF1C000A7, .pace 2 0xA7), (0xF2000013, .sigt 0x13), (0xF280026D, .waitt 0x13 0xD),
   (0xF34C9F50, .guard 2 6 0 0x13 1 0x1A 1), (0xF3969800, .pset 0xB 0x13), (0xF4160000, .pinv 0xB),
   (0xF4C0000D, .qdrn 2 0xD), (0xF549C000, .qseq 2 0x13 1), (0xF5C9EC00, .tblw 2 0x13 0x36)]
theorem test_wordsQueue : ∀ p ∈ wordsQueue, decodeTableWord 32 p.1 = some p.2 := by decide
/-- Words of class 15, from its rows of the opcode table. -/
def wordsFabric : List (Nat × Instr) :=
  [(0xF8498000, .lsend 2 0x13), (0xF8C98000, .lrecv 2 0x13), (0xF9500000, .bar 5),
   (0xF9D0000D, .barw 5 0xD), (0xFA53A600, .chwr 0xA7 0x13), (0xFAD3A7A0, .chrd 0xA7 0x13 0xD),
   (0xFB538000, .chpop 0xA7), (0xFBDA0000, .nodeq 0x2D), (0xFC5A0000, .glnch 0x2D)]
theorem test_wordsFabric : ∀ p ∈ wordsFabric, decodeTableWord 32 p.1 = some p.2 := by decide

/-- Words that the spec's examples write out bit by bit, beside those of the statement ExampleWordsDecode. -/
def exampleWordsMore : List (Nat × Instr) :=
  [(0xD0304240, .vcvt 3 2 1 0 1), (0xE0004C34, .mma 0 1 3 1 1 0 4), (0xE2028020, .mdrn 0 10 0 1), (0xA121F08C, .mwait 9 3 4 12),
   (0xE8105202, .cpt 4 5 2 1 0), (0xEF000201, .sbwt 2 0 1), (0xF0000010, .run 0 0 2), (0, .add 0 0 0), (0x80000000, .add 0 0 0)]
theorem test_exampleWordsMore : ∀ p ∈ exampleWordsMore, decodeTableWord 32 p.1 = some p.2 := by decide
/-- A literal is the second word: SEGE, RUNS and LOOPB of 64 bits. -/
theorem test_literals : ∀ p ∈ [((0x12345678 * 2 ^ 32 + 0x9C800000, .sege 0x12345678) : Nat × Instr),
    (0x78 * 2 ^ 32 + 0xF0D16DB8, .runs 2 0x22D 0xB7 0x78), (0x00A0140A * 2 ^ 32 + 0xF1668003, .loopb 3 0x0D 3 0x00A0140A)],
    decodeTableWord 64 p.1 = some p.2 := by decide

/-! ## The spec's worked numbers -/

/-- R95: of an E2M1 block, 7.0 converts to 6.0 and 5.0 to 4.0. R98: the E2M3 subnormal 3 becomes 0b0_0101_100, the INT4 -8 -8.0. -/
theorem test_e2m1 : (convert 3 0 true (.fin false 7 0)).1 = 7 ∧ (convert 3 0 true (.fin false 5 0)).1 = 6 := by decide
theorem test_expand : expandE4M3 9 3 = 0x2C ∧ expandE4M3 11 8 = 0xD0 := by decide
/-- R119: 2^3.0 is 8.0 with no flag. -/
theorem test_exp2 : convert 6 0 false (exp2V false 3 0) = (0x41000000, 0) := by decide
/-- R100, R101: the four-term sum is 16,455 units of 2^-6. -/
theorem test_fourTerms : commandSum 14 [(.fin false 256 0, 8, false), (.fin false 9 (-3), 0, false), (.fin false 1 (-9), -6, false),
    (.fin true 1 (-9), -6, false)] = (0, 16455, -6, false) := by decide
/-- R102, R104, R110: it is accumulated at exponent -29, drains to FP32 0x43808E00 exactly, and counts in bin 17. -/
theorem test_fourTermsLand : accumulate {} 0 16455 (-6) 25 (fun _ => 0) = { spec := 0, exp := 0x3E3, win := 0x002023800000 } := by decide
theorem test_fourTermsDrain : drainElem { spec := 0, exp := 0x3E3, win := 0x002023800000 } 6 0 false = (0x43808E00, 0) ∧
    binOf (.fin false 16455 (-6)) = 17 := by decide

/-! ## Small states -/

/-- A machine of one running region, context 1, with one core, which acts. -/
def demo (c : Core := {}) (r : Region := {}) (a : Actor := .control) : State :=
  { State.reset with cores := [(2048, c)], regions := [(1, { r with phase := .run, ctx := 1 })], cur := 2048, actor := a, todo := [], inputs := [] }
/-- Its core or its region after an outcome. -/
def coreAfter : Host.Outcome State Fault Refusal → Core
  | .next t => t.core 2048
  | _ => {}
def regionAfter : Host.Outcome State Fault Refusal → Region
  | .next t => t.region 1
  | _ => {}
/-- What the first thing due after an outcome lands. -/
def lands (o : Host.Outcome State Fault Refusal) : List CAct :=
  match (regionAfter o).agenda with
  | (_, .land _ l) :: _ => l
  | _ => []
/-- The hypotheses that name a word's sources, a step that executes and a copy word's sources, as conditions that can be decided. -/
theorem sources_iff {s : State} {l : List Nat} {tg : Tag} : Sources s l tg ↔
    s.actor = .control ∧ s.cc.common (l.map fun r => (s.cc.reg r).tag) = some tg ∧ s.cc.present tg = true ∧
      (l.any fun r => (s.cc.reg r).bad) = false := ⟨fun ⟨a, b, c, d⟩ => ⟨a, b, c, d⟩, fun ⟨a, b, c, d⟩ => ⟨a, b, c, d⟩⟩
theorem runs_iff {s : State} {p : EStep} {e : Nat} {tg : Tag} : Runs s p e tg ↔
    (s.actor = .engine e ∧ p.ready = true ∧ s.cc.common (p.allTags s.cc) = some tg ∧ s.cc.present tg = true) ∧
      p.blockedBy s.cc = none ∧ p.legal = true ∧ p.bad = false ∧ (p.reads.any s.cc.rowsErr) = false ∧
      (p.sides.any fun t => s.cc.sideErr t ≠ 0) = false ∧
      (p.scal.any fun r => (s.cc.reg r).bad) = false ∧ (p.rdDst = true → (p.dst.map s.cc.rowsErr).getD false = false) :=
  ⟨fun h => ⟨⟨h.actor, h.ready, h.tags, h.present⟩, h.bits, h.legal, h.marks, h.tiles, h.sides, h.scalars, h.dest⟩,
   fun ⟨⟨a, b, c, d⟩, e, f, g, h, i, j, k⟩ => ⟨a, b, c, d, e, f, g, h, i, j, k⟩⟩
theorem idles_iff {s : State} {p : EStep} {tg : Tag} : Idles s p tg ↔
    s.actor = .engine 0 ∧ p.ready = true ∧ s.cc.common (p.allTags s.cc) = some tg ∧ s.cc.present tg = false ∧ p.legal = true :=
  ⟨fun ⟨a, b, c, d, e⟩ => ⟨a, b, c, d, e⟩, fun ⟨a, b, c, d, e⟩ => ⟨a, b, c, d, e⟩⟩
theorem copySources_iff {s : State} {a b : BitVec 6} {tg : Tag} : CopySources s a b tg ↔
    s.actor = .engine 2 ∧ s.cc.common [s.tag a.toNat, s.tag b.toNat] = some tg ∧ s.cc.present tg = true ∧
      s.bad a.toNat = false ∧ s.bad b.toNat = false := ⟨fun ⟨a, b, c, d⟩ => ⟨a, b, c, d⟩, fun ⟨a, b, c, d⟩ => ⟨a, b, c, d⟩⟩
/-- Scalars s1, s2, ... with values and tag k0. -/
def scalars (l : List DWord) : SMap Reg := (List.range l.length).map fun n => (n + 1, ⟨l.getD n 0, 0, false⟩)

/-! ## Single steps -/

theorem test_add_wraps : lands (exec (.add 3 1 2) (demo { regs := scalars [0xFFFFFFFFFFFFFFFF, 2] })) = [.reg 3 1 0 false] := by decide
theorem test_mulh_signed : lands (exec (.mulh 3 1 2) (demo { regs := scalars [0xFFFFFFFFFFFFFFFF, 2] })) =
    [.reg 3 0xFFFFFFFFFFFFFFFF 0 false] := by decide
/-- R58: the most negative number divided by -1 is itself; a remainder by 0 is the dividend. -/
theorem test_div_corner : lands (exec (.div 3 1 2) (demo { regs := scalars [0x8000000000000000, 0xFFFFFFFFFFFFFFFF] })) =
    [.reg 3 0x8000000000000000 0 false] := by decide
theorem test_rem_zero : lands (exec (.rem 3 1 2) (demo { regs := scalars [7] })) = [.reg 3 7 0 false] := by decide
theorem test_addsat : lands (exec (.addsat 1 1 2) (demo { regs := scalars [0x7FFFFFFFFFFFFFFF, 1] })) =
    [.reg 1 0x7FFFFFFFFFFFFFFF 0 false, .orFlags 4] := by decide
/-- R63: INST s1, 0x1000 sets bit 63 of s1 and keeps bits [50:0]. -/
theorem test_inst : lands (exec (.inst 1 0x1000) (demo { regs := scalars [0x0007FFFFFFFFFFFF] })) = [.reg 1 0x8007FFFFFFFFFFFF 0 false] := by decide
/-- R66: IDLE 3 at stamp 5 places the next bundle at stamp 8. -/
theorem test_idle : (coreAfter (exec (.idle 3) (demo {} { cyc := 5 }))).nextAt = 8 := by decide
/-- R79: WAITS 120 places it at stamp 120. -/
theorem test_waits : (coreAfter (exec (.waits 120) (demo {} { cyc := 9 }))).nextAt = 120 := by decide
/-- R14, the worked instant: CKDEF k3, k1, s5, 0 defines k3 present where bit 0 of s5 is 1; DLYR reads its committed value. -/
theorem test_ckdef : lands (exec (.ckdef 0 5 1 3) (demo { regs := [(5, ⟨1, 1, false⟩)], clocks := [(1, ⟨true, true, 0, 0, false, false⟩)] })) =
    [.clock 3 ⟨true, true, 1, 0, false, false⟩] := by decide
theorem test_dlyr : lands (exec (.dlyr 10 2) (demo { delays := [(2, ⟨7, 9, true, 3⟩)], clocks := [(3, ⟨true, true, 1, 0, false, false⟩)] })) =
    [.reg 10 7 3 false] := by decide
/-- R217: outside the handler TRET raises TRETX. -/
theorem test_tret : ((regionAfter (exec .tret (demo))).fault.map fun w => w.first.code) = some TRETX := by decide
/-- R204: HALTG in user mode raises PRIV. -/
theorem test_haltg_user : ((regionAfter (exec .haltg (demo))).fault.map fun w => w.first.code) = some PRIV := by decide

/-- The first step after reset is Dawn, and what withFetchWord places is the very next instruction (assumptions 1). -/
theorem test_fetch_jmp : (match step (State.reset.withFetchWord 32 0x98800234) with
    | .next t => some (t.core 2048).pc | _ => none) = some 0x234 := by decide


/-! ## A state for every statement's hypotheses, clause by clause -/

/-- Two scalars on clocks k1 and k2, which disagree. -/
def mixed : SMap Reg := [(1, ⟨1, 1, false⟩), (2, ⟨2, 2, false⟩), (3, ⟨3, 3, false⟩), (63, ⟨0, 2, false⟩)]
/-- Clocks k1 to k3: k1 and k2 present with k2 on k1, k3 its partner and absent. -/
def clocks3 : SMap Clock :=
  [(1, ⟨true, true, 0, 0, false, false⟩), (2, ⟨true, true, 1, 3, true, false⟩), (3, ⟨true, false, 1, 2, true, true⟩)]
/-- A segment of 4 cycles opened at 0. -/
def seg4 : Option Seg := some ⟨0, 4, 1, 0xFFFFFFFF, 0⟩
theorem witness_ScalarResultsLand : scalarTable (demo).val (.subsat 63 0 63) = some ⟨[0, 63], 63, 1, 0, 0⟩ ∧ Sources (demo) [0, 63] 0 := by
  simp only [sources_iff]; decide
theorem witness_DivisionsLand :
    let s := demo { regs := mixed, clocks := clocks3 }
    let busy := fun g => demo { regs := mixed, clocks := clocks3, divFree := 18, seg := g }
    let tags := fun (s : State) (l : List Nat) => s.cc.common (l.map fun r => (s.cc.reg r).tag)
    (divideTable s.val (.rem 1 4 5) = some ⟨[4, 5], 1, 18, 0, 0⟩ ∧ s.actor = .control ∧ s.cc.divFree ≤ s.cyc ∧ Sources s [4, 5] 0) ∧
      (divideTable s.val (.div 1 3 0) = some ⟨[3, 0], 1, 18, BitVec.allOnes 64, 0⟩ ∧ tags s [3, 0] = some 3 ∧ s.cc.present 3 = false) ∧
      (divideTable s.val (.divu 1 1 2) = some ⟨[1, 2], 1, 18, 0, 0⟩ ∧ tags s [1, 2] = none) ∧
      ((busy none).cyc < (busy none).cc.divFree ∧ (busy none).inSeg = false) ∧
      ((busy seg4).cyc < (busy seg4).cc.divFree ∧ tags (busy seg4) [4, 5] = some 0 ∧ (busy seg4).inSeg = true) := by
  simp only [sources_iff]; decide
theorem witness_ScalarClockRules :
    let s := demo { regs := mixed, clocks := clocks3 }
    let t := demo { regs := [(1, ⟨1, 0, true⟩)] }
    let tags := fun (s : State) (l : List Nat) => s.cc.common (l.map fun r => (s.cc.reg r).tag)
    (scalarTable s.val (.add 3 1 2) = some ⟨[1, 2], 3, 1, 3, 0⟩ ∧ s.actor = .control ∧ tags s [1, 2] = none) ∧
      (scalarTable s.val (.add 4 3 0) = some ⟨[3, 0], 4, 1, 3, 0⟩ ∧ tags s [3, 0] = some 3 ∧ s.cc.present 3 = false) ∧
      (scalarTable t.val (.addi 4 1 0) = some ⟨[1], 4, 1, 1, 0⟩ ∧ tags t [1] = some 0 ∧ t.cc.present 0 = true ∧
        ([1].any fun r => (t.cc.reg r).bad) = true) := by decide
theorem witness_TransfersReachTheirTargets :
    let s := demo { regs := scalars [1] } { segs := [(64, 2, 1), (80, 2, 1)] }
    s.actor = .control ∧ maySteer s 1 ∧ maySteer s 63 ∧ s.inSeg = false ∧ s.val 1 ≠ 0 ∧ s.val 2 = 0 ∧ maySteer s 2 ∧
      (0 : BitVec 12).toNat + (2 : BitVec 5).toNat ≤ s.rr.segs.length := by unfold maySteer; decide
theorem witness_ControlWordsTrap :
    let s := demo { regs := mixed, clocks := clocks3 } { segs := [(64, 2, 1)] }
    let t := demo { seg := seg4 } { segs := [(64, 2, 1)] }
    s.actor = .control ∧ ¬ (s.tag 2 = 0 ∨ s.tag 2 = 1) ∧ ¬ (s.tag 63 = 0 ∨ s.tag 63 = 1) ∧ (0 : BitVec 12).toNat + (1 : BitVec 5).toNat ≤ s.rr.segs.length ∧
      (t.inSeg = true ∧ t.tag 1 = 0 ∧ t.tag 63 = 0 ∧ (0 : BitVec 12).toNat + (1 : BitVec 5).toNat ≤ t.rr.segs.length) ∧
      s.rr.segs.length < (0 : BitVec 12).toNat + (2 : BitVec 5).toNat := by decide
theorem witness_IdleAndWaits :
    let s := demo {} { cyc := 7 }
    s.actor = .control ∧ s.inSeg = false ∧ s.cyc < s.rr.ibase + (8 : BitVec 23).toNat ∧ s.rr.ibase + (7 : BitVec 23).toNat ≤ s.cyc := by decide
theorem witness_LoopsOpen :
    let s := demo
    let t := demo { loops := [⟨5, 0, 9, 2, 0, 9⟩] }
    s.actor = .control ∧ maySteer s 1 ∧ s.inSeg = false ∧ mayLoop s 5 (bodyEnd s.rr.code s.cc.npc 1) ∧
      ¬ mayLoop t 5 (bodyEnd t.rr.code t.cc.npc 1) := by unfold maySteer mayLoop; decide
/-- The signature of a SEGE alone in its segment, with its literal (R75). -/
def segeCrc (lit : Word) : Nat := crcBytes 0xFFFFFFFF (wordBytes ((demo).rawOf (.sege lit)).toNat) ^^^ 0xFFFFFFFF
theorem witness_SegmentsOpenAndClose :
    let s := demo { seg := seg4 } { cyc := 3 }
    let t := demo { seg := seg4 } { cyc := 2 }
    let lit := BitVec.ofNat 32 (crcBytes 0xFFFFFFFF (wordBytes 0x1C800000) ^^^ 0xFFFFFFFF)
    ((demo).inSeg = false ∧ (0 : BitVec 3).toNat + 1 = (demo).cc.divisor 0 ∧ (1 : BitVec 3).toNat + 1 ≠ (demo).cc.divisor 0 ∧ (demo).cc.seg = none) ∧
      (s.cc.seg = some ⟨0, 4, 1, 0xFFFFFFFF, 0⟩ ∧ s.cc.segBuf = [] ∧ s.cyc - 0 + 1 = 4 ∧ segeCrc lit = lit.toNat ∧ segeCrc 0 ≠ (0 : Word).toNat) ∧
      (t.cc.seg = some ⟨0, 4, 1, 0xFFFFFFFF, 0⟩ ∧ t.cyc - 0 + 1 ≠ 4) := by decide
theorem witness_InstantsEnd :
    let s := demo { levels := [⟨0, 0, 0, 0, 0, 0, 0, ⟨0, 0, [], [], [], [], [], [], [], none⟩⟩] }
    (demo).actor = .control ∧ (demo).inSeg = false ∧ (demo).cc.levels = [] ∧ s.cc.levels ≠ [] := by decide

/-- A page of 64 KiB at address 0 with every right, and a locked copy of it. -/
def page (locked : Bool) : TlbEnt := ⟨0, 65536, 1, 0xCA04000000000000, locked⟩
/-- The scratchpad addresses of offset 0 and of a neighbour core's offset 8, and one that is misaligned. -/
def own : DWord := 0x8000000000000000
/-- An untimed load of s5 that memory has not served. -/
def load5 : Untimed :=
  ⟨0, 5, 0, 8, false, 8, [⟨0, [8, 9, 10, 11, 12, 13, 14, 15], 2, none⟩], [], 0, 0, 0, none, 0, 0⟩
/-- Sixteen of them. -/
def loads16 : List Untimed := List.replicate 16 load5
theorem witness_LoadsIssue :
    let c : Core := { regs := scalars [own, own + 1, 8], tlb := [page false] }
    let s := demo c
    let full := demo { c with untimed := loads16 }
    let t := demo { c with seg := seg4 }
    (loadTable (.ldd 3 1 1) = some ⟨3, 1, 1, 8, false⟩ ∧ Sources s [1] 0 ∧ decodeAddr s.rr s.vidx (address s 1 1 8) = .sp 2048 8 false ∧ 8 % 8 = 0) ∧
      (Sources s [2] 0 ∧ decodeAddr s.rr s.vidx (address s 2 0 8) = .sp 2048 1 false ∧ 1 % 8 ≠ 0) ∧
      (Sources s [3] 0 ∧ decodeAddr s.rr s.vidx (address s 3 0 8) = .global 8 ∧ s.inSeg = false ∧ s.cc.untimed.length < 16 ∧
        s.translate 8 8 {} = .ok [8, 9, 10, 11, 12, 13, 14, 15] [page false]) ∧
      (Sources full [3] 0 ∧ decodeAddr full.rr full.vidx (address full 3 0 8) = .global 8 ∧ full.inSeg = false ∧ 16 ≤ full.cc.untimed.length) ∧
      (Sources t [3] 0 ∧ decodeAddr t.rr t.vidx (address t 3 0 8) = .global 8 ∧ t.inSeg = true) := by
  simp only [sources_iff]; decide
theorem witness_LoadsIssueFar :
    let s := demo { regs := scalars [0x8100000000100000] } { w := 2 }
    Sources s [1] 0 ∧ decodeAddr s.rr s.vidx (address s 1 0 1) = .sp 2049 0 true := by simp only [sources_iff]; decide
theorem witness_StoresIssue :
    let s := demo { regs := scalars [own, own + 0x4FFF8, 8], tlb := [page false] }
    (storeTable (.std 3 1 0) = some (3, 1, 0, 8) ∧ Sources s [3, 1] 0 ∧ decodeAddr s.rr s.vidx (address s 1 0 8) = .sp 2048 0 false ∧
      writeBarred (s.core 2048) s.cc.mode 0 8 = false ∧ 0 % 8 = 0) ∧
      (Sources s [3, 2] 0 ∧ decodeAddr s.rr s.vidx (address s 2 0 8) = .sp 2048 0x4FFF8 false ∧ writeBarred (s.core 2048) s.cc.mode 0x4FFF8 8 = true) ∧
      (Sources s [1, 3] 0 ∧ decodeAddr s.rr s.vidx (address s 3 0 8) = .global 8 ∧
        s.translate 8 8 { write := true, locked := s.inSeg } = .ok [8, 9, 10, 11, 12, 13, 14, 15] [page false] ∧ stageRoom s.cc = true) := by
  simp only [sources_iff]; decide
theorem witness_AtomicsIssue :
    let s := demo { regs := scalars [own + 16, 5, 16], tlb := [page false] }
    let keys := (List.range 16).map (16 + ·)
    (amoTable (.acas 4 1 2) = some ⟨9, 4, 1, 2, 8, [4, 1, 2]⟩ ∧ Sources s [4, 1, 2] 0 ∧ decodeAddr s.rr s.vidx (s.val 1) = .sp 2048 16 false ∧
      writeBarred (s.core 2048) s.cc.mode 16 8 = false ∧ 16 % 8 = 0) ∧
      (amoTable (.acflg 4 3 2) = some ⟨13, 4, 3, 2, 16, [3, 2]⟩ ∧ Sources s [3, 2] 0 ∧ decodeAddr s.rr s.vidx (s.val 3) = .global 16 ∧
        s.inSeg = false ∧ s.cc.untimed.length < 16 ∧ 16 % 16 = 0 ∧
        s.translate 16 16 { write := true, cell := decide (10 ≤ 13), amo := some 13 } = .ok keys [page false]) ∧
      (amoTable (.acell 3 2) = some ⟨11, 0, 3, 2, 16, [3, 2]⟩ ∧
        s.translate 16 16 { write := true, locked := s.inSeg, cell := true, amo := some 11 } = .ok keys [page false] ∧ stageRoom s.cc = true) := by
  simp only [sources_iff]; decide
theorem witness_FencesAndWaits :
    let s := demo { regs := scalars [own + 8, 1, 8], tlb := [page false], untimed := [load5] }
    (s.actor = .control ∧ s.inSeg = false ∧ (s.cc.untimed.filter fun u => 6 = 0 ∨ u.d = 6) = [] ∧ (s.cc.untimed.filter fun u => 5 = 0 ∨ u.d = 5) ≠ [] ∧
      (s.cc.untimed.filter fun u => 0 = 0 ∨ u.d = 0) ≠ []) ∧
      (Sources s [1, 2] 0 ∧ decodeAddr s.rr s.vidx (s.val 1) = .sp 2048 8 false ∧ 8 % 8 = 0) ∧
      (Sources s [3, 2] 0 ∧ decodeAddr s.rr s.vidx (s.val 3) = .global 8 ∧ s.translate 8 8 {} = .ok [8, 9, 10, 11, 12, 13, 14, 15] [page false]) := by
  simp only [sources_iff]; decide
/-- A graph of two nodes: node 0 writes channel 0, which node 1 reads; graph 1 of handle 0. -/
def node (ctx : Nat) (succs : List Nat) : Node :=
  ⟨0x1000, 0, 0, 1, 1, 1, 0, succs, 0, 0, 0, 1, 0, 0, 0, 0, 0, false, 0, .running ctx, false, 0, false, false, 0, 0⟩
def pair (vals : List ChVal) : Graph := ⟨1, 0, 0, 0, 0, 0, 0, true, [node 2 [], node 1 []], [⟨1, 4, 0, 1, vals⟩], 0⟩
/-- The demo machine as node nd of that graph, its peer in context 2. -/
def inGraph (nd : Nat) (vals : List ChVal) (c : Core := {}) (r : Region := {}) : State :=
  { demo c { r with gid := 1, node := nd } with
    graphs := [{ pair vals with nodes := if nd = 1 then [node 2 [], node 1 []] else [node 1 [], node 2 []] }]
    regions := [(1, { r with phase := .run, ctx := 1, gid := 1, node := nd }), (2, { phase := .run, ctx := 2, gid := 1, node := 1 - nd, between := false })], dtAcc := 9000000 }
theorem witness_ChannelWaits :
    let s := inGraph 1 []
    let u := { s with dtAcc := 0 }
    (s.actor = .control ∧ maySteer s 1 ∧ s.inSeg = false ∧ s.readsCh 0 = true ∧ s.qwaitMet 1 0 = false) ∧
      (u.qwaitMet 1 0 = true ∧ u.readsCh 0 = true) ∧ (demo).readsCh 0 = false ∧ (inGraph 0 []).readsCh 0 = false := by unfold maySteer; decide
/-- A core with clocks k1 to k3 of clocks3, s1 on k1, s2 on k2, s3 on k3; and one whose k4 and k5 are
absent with their parent k2. A tile that a word may read. -/
def timedCore : Core := { regs := [(1, ⟨1, 1, false⟩), (2, ⟨2, 2, false⟩), (3, ⟨3, 3, false⟩)], clocks := clocks3 }
def restCore : Core :=
  { regs := [(2, ⟨2, 4, false⟩), (3, ⟨3, 5, false⟩)]
    clocks := [(2, ⟨true, false, 1, 0, false, false⟩), (4, ⟨true, false, 2, 5, true, false⟩), (5, ⟨true, false, 2, 4, true, true⟩)] }
abbrev full (s : State) (t : Nat) : Prop := s.cc.coupling t = 0 ∨ s.cc.tfull t = true
theorem witness_ValuesChangeTheirClock :
    let s := demo timedCore
    let u := demo restCore
    s.actor = .control ∧ ((2 : BitVec 4) ≠ 0 ∧ isPresent s 2 ∧ Claim.fits s (s.tag 1) (sourceClock s 2) ∧ s.bad 1 = false) ∧
      ((3 : BitVec 4) ≠ 0 ∧ isDefined s 3 ∧ ¬ isPresent s 3 ∧ Claim.fits s (s.tag 1) (sourceClock s 3)) ∧ ¬ Claim.fits s (s.tag 3) (sourceClock s 2) ∧
      (merges s (s.tag 2) (s.tag 3) 2 ∧ isPresent s (s.cc.clock 2).parent ∧ s.bad 2 = false ∧ s.bad 3 = false) ∧
      (merges u (u.tag 2) (u.tag 3) 4 ∧ ¬ isPresent u (u.cc.clock 4).parent) ∧
      (2 ≤ (2 : BitVec 4).toNat ∧ ¬ merges s (s.tag 3) (s.tag 3) 2) ∧ (1 : BitVec 4).toNat < 2 := by
  simp only [merges, Claim.fits, isPresent, isDefined, sourceClock]; decide
/-- As timedCore, with tile t1 full, on clock k1 and coupled to CP, t2 empty, on k3 and coupled to CP, t4 on k2. -/
def tiledCore : Core :=
  { timedCore with tileTag := [(1, 1), (2, 3), (4, 2)], tileFull := [(1, true)], csrs := [(0x019, 0x3C)] }
theorem witness_TilesChangeTheirClock :
    let s := demo tiledCore
    (isPresent s 2 ∧ Claim.fits s (s.cc.ttag 1) (sourceClock s 2) ∧ readable s 1 ∧ writable s 2) ∧
      (merges s (s.cc.ttag 4) (s.cc.ttag 5) 2 ∧ isPresent s (s.cc.clock 2).parent ∧ readable s 4 ∧ readable s 5) ∧
      (isPresent s 2 ∧ ¬ (full s 2 ∧ writable s 5) ∧ s.inSeg = false ∧ isPresent s (s.cc.clock 3).parent ∧ ¬ (full s 4 ∧ full s 2)) := by
  simp only [merges, Claim.fits, isPresent, isDefined, sourceClock, readable, writable]; decide
theorem witness_TilesKeepTheirClock :
    let s := demo tiledCore
    (isDefined s 3 ∧ ¬ isPresent s 3 ∧ Claim.fits s (s.cc.ttag 1) (sourceClock s 3)) ∧
      (¬ Claim.fits s (s.cc.ttag 4) (sourceClock s 2) ∧ full s 4 ∧ writable s 5) ∧
      (¬ merges s (s.cc.ttag 1) (s.cc.ttag 5) 2 ∧ full s 1 ∧ full s 5) := by
  simp only [merges, Claim.fits, isPresent, isDefined, sourceClock, writable]; decide
theorem witness_TilesChangeTheirClockInSegments :
    let s := demo { tiledCore with seg := seg4, tileTag := [(4, 2)] }
    let u := demo { restCore with tileTag := [(4, 4)] }
    (isPresent s 2 ∧ Claim.fits s (s.cc.ttag 2) (sourceClock s 2) ∧ s.inSeg = true ∧ ¬ full s 2) ∧
      (Claim.fits s (s.cc.ttag 5) (sourceClock s 2) ∧ full s 5 ∧ ¬ writable s 1) ∧
      (merges s (s.cc.ttag 2) (s.cc.ttag 5) 2 ∧ isPresent s (s.cc.clock 2).parent ∧ ¬ full s 2) ∧
      (merges s (s.cc.ttag 4) (s.cc.ttag 2) 2 ∧ full s 4 ∧ ¬ full s 2) ∧
      (merges u (u.cc.ttag 4) (u.cc.ttag 5) 4 ∧ ¬ isPresent u (u.cc.clock 4).parent) := by
  simp only [merges, Claim.fits, isPresent, isDefined, sourceClock, writable]; decide
theorem witness_ClocksAreDefined :
    let s := demo timedCore
    let t := demo { timedCore with clocks := [(1, ⟨true, true, 0, 0, false, false⟩), (2, ⟨true, true, 1, 0, false, false⟩)] }
    s.actor = .control ∧ (1 : BitVec 4).toNat < 2 ∧ (2 ≤ (2 : BitVec 4).toNat ∧ isDefined s 2) ∧
      (2 ≤ (4 : BitVec 4).toNat ∧ isDefined s 1 ∧ ¬ isDefined s 4 ∧ Claim.fits s (s.tag 1) 1 ∧ s.bad 1 = false) ∧
      (isDefined t 2 ∧ ¬ isDefined t 15 ∧ (t.cc.clock 2).neg = false ∧ (t.cc.clock 2).pv = false) := by
  simp only [Claim.fits, isDefined]; decide
theorem witness_DelaysAndClockReads :
    let s := demo { timedCore with delays := [(0, ⟨7, 0, false, 2⟩), (15, ⟨7, 0, false, 9⟩)] }
    Claim.fits s (s.tag 1) 1 ∧ s.bad 1 = false ∧ isPresent s (SMap.get {} s.cc.delays 0).clk ∧ Claim.fits s (s.tag 2) (SMap.get {} s.cc.delays 0).clk ∧
      s.bad 2 = false ∧ ¬ isDefined s (SMap.get {} s.cc.delays 15).clk := by
  simp only [Claim.fits, isPresent, isDefined]; decide

/-- A level opened at cycle 0, restarting at word 40, and the arena of 4 KiB at offset 0x40000. -/
def level0 : Level := ⟨40, 1, 2, 3, 0, 0, 2, ⟨7, 1, [], [(3, ⟨true, true⟩)], [], [], [(5, 6)], [], [], none⟩⟩
def arena : SMap DWord := [(0x062, 0x4000040000)]
/-- Four open levels. -/
def levels4 : List Level := [level0, level0, level0, level0]
theorem witness_RendezvousWords :
    let s := demo { levels := [level0] }
    let t := demo { csrs := [(0x062, 0x40000050000)] }
    (demo { seg := seg4 }).inSeg = true ∧ s.actor = .control ∧ s.inSeg = false ∧ s.cc.levels.length < 4 ∧
      ¬ (s.cc.levels = [] ∧ arenaBarred s = true) ∧ s.cc.levels ≠ [] ∧ 4 ≤ (demo { levels := levels4 }).cc.levels.length ∧
      t.cc.levels = [] ∧ arenaBarred t = true := by decide
theorem witness_PreservingPlacesRecords :
    let s := demo { levels := [level0], csrs := arena }
    let t := demo { levels := [level0] }
    let all := (List.range (63 + 1 - 0)).map (0 + ·)
    (∃ bad, preserveTable s (.rpresvS 0 63) = some (1, all, bad) ∧ (unpreserved s 1 all).any bad = false) ∧ s.cc.levels ≠ [] ∧
      s.cc.undoTop + recordsSize 1 (runsOf (unpreserved s 1 all)) ≤ s.cc.arena.2 ∧
      t.cc.arena.2 < t.cc.undoTop + recordsSize 1 (runsOf (unpreserved t 1 all)) ∧ runsOf (unpreserved t 1 all) ≠ [] :=
  ⟨⟨_, rfl, by decide⟩, by decide⟩
theorem witness_PreservingReadsItsItems :
    let s := demo { levels := [level0], regs := [(2, ⟨0, 0, true⟩)] }
    (∃ bad, preserveTable s (.rpresvS 2 3) = some (1, [2, 3], bad) ∧ (unpreserved s 1 [2, 3]).any bad = true) ∧
      (∃ b, preserveTable s (.rpresvC 0x81) = some (3, [0, 7], b)) ∧ (∃ b, preserveTable s (.rpresvT 95 95) = some (2, [95], b)) ∧
      (demo).cc.levels = [] := ⟨⟨_, rfl, by decide⟩, ⟨_, rfl⟩, ⟨_, rfl⟩, rfl⟩
theorem witness_PreservedRanges :
    let s := demo { levels := [level0], csrs := arena, regs := scalars [own + 64, 128, 1, own + 0x4FFC0, 0x8100000000000040] }
    let t := demo { levels := [level0], undo := List.replicate 8 ⟨1, 4, 64, 64, 0, 0⟩ }
    let off := fun n => (s.val n).toNat % 2 ^ 56
    (s.cc.levels ≠ [] ∧ s.bad 1 = false ∧ s.bad 2 = false) ∧ ((s.val 5).toNat / 2 ^ 56 ≠ 0x80 ∧ s.bad 5 = false) ∧
      ((s.val 1).toNat / 2 ^ 56 = 0x80 ∧ off 1 < 0x50000 ∧ off 1 % 64 = 0 ∧ (s.val 2).toNat % 64 = 0 ∧ off 1 + (s.val 2).toNat ≤ 0x50000 ∧
        (s.cc.undo.filter fun r => r.kind = 4 ∧ r.level = 1).length < 8 ∧ s.cc.undoTop + 64 ≤ s.cc.arena.2) ∧
      ((s.val 3).toNat % 64 ≠ 0 ∧ s.bad 3 = false) ∧ (off 4 < 0x50000 ∧ off 4 % 64 = 0 ∧ 0x50000 < off 4 + (s.val 2).toNat) ∧
      (t.cc.levels.length = 1 ∧ 8 ≤ (t.cc.undo.filter fun r => r.kind = 4 ∧ r.level = 1).length) ∧
      (demo { levels := [level0] }).cc.arena.2 < (demo { levels := [level0] }).cc.undoTop + 64 := by decide
theorem witness_LimitsSafePointsAndAborts :
    let s := demo { levels := [level0] } { live := [⟨0, 0, 0, []⟩] }
    s.actor = .control ∧ maySteer s 0 ∧ s.inSeg = false ∧ (0 : BitVec 8).toNat < s.rr.live.length ∧ s.rr.live.length ≤ (1 : BitVec 8).toNat ∧
      s.cc.levels ≠ [] ∧ (demo).cc.levels = [] := by unfold maySteer; decide
theorem witness_LevelsOpenAndClose :
    let s := demo { levels := [level0], kendPend := true }
    let t := demo { levels := [level0, level0] }
    2048 ∈ s.live s.rr ∧ (s.core 2048).levels.length = 1 ∧ (s.core 2048).kendPend = true ∧ (t.core 2048).kendPend = false ∧
      2049 ∉ s.live s.rr := by decide

theorem witness_CsrReadsLand :
    let s := demo { mode := .system }
    csrValue s 0x17F = some 0 ∧ ¬ (systemCsr 0x17F ∧ s.cc.mode = .user) ∧ csrValue s 0x050 = some 0 ∧ ¬ (systemCsr 0x050 ∧ s.cc.mode = .user) ∧
      csrValue s 0x180 = none ∧ systemCsr 0x070 ∧ (demo).cc.mode = .user := by unfold systemCsr; decide
theorem witness_CsrWritesIssue :
    let s := demo { regs := [(1, ⟨1, 2, false⟩)], clocks := clocks3 }
    csrWord (.csrs 1 0x010) = some (1, 0x010, 1) ∧ csrValue s 0x010 ≠ none ∧ ¬ (systemWriteCsr 0x010 ∧ s.cc.mode = .user) ∧ maySteer s 2 ∧
      ¬ (s.tag 1 = 0 ∨ s.tag 1 = 1) ∧ csrValue s 0xFFF = none ∧ systemWriteCsr 0x036 ∧ s.cc.mode = .user := by
  unfold systemWriteCsr systemCsr maySteer; decide
theorem witness_CsrWritesLand : (0x014, 0xFFFFFFFF) ∈ rwBits ∧ (0x070, 0xFF) ∈ rwBits ∧ 2 ≤ 2 := by decide
theorem witness_SpecialRegisterEvents : (0 : Nat) < 63 ∧ (demo { levels := [level0] }).cc.levels ≠ [] ∧ (demo).cc.levels = [] := by decide
theorem witness_HandlersReturn :
    let s := demo { inHandler := true, csrs := [(0x051, 7), (0x052, 0x1FFF)] } { frz := 48, cyc := 100 }
    let t := demo { inHandler := true, csrs := [(0x051, 8)] }
    s.actor = .control ∧ (demo).cc.inHandler = false ∧ (t.cc.inHandler = true ∧ t.inSeg = false ∧ (t.cc.csr 0x051).toNat / 8 ≠ 0) ∧
      (s.cc.inHandler = true ∧ s.inSeg = false ∧ (s.cc.csr 0x051).toNat / 8 = 0 ∧ (s.cc.csr 0x051).toNat / 4 % 2 = 1) ∧
      ((demo { inHandler := true }).cc.csr 0x051).toNat / 4 % 2 = 0 ∧ 2048 ∈ s.live s.rr := by decide
theorem witness_HandlersResumeTheRegion :
    let s := demo { inHandler := true, csrs := [(0x051, 7), (0x052, 0x1FFF)] } { frz := 48, cyc := 100 }
    s.actor = .control ∧ s.cc.inHandler = true ∧ s.inSeg = false ∧ (s.cc.csr 0x051).toNat / 8 = 0 ∧ 2048 ∈ s.live s.rr ∧
      (1 ≠ s.cur ∧ 1 ∉ s.live s.rr) := by decide
theorem witness_PrivilegedWords :
    let s := demo { mode := .system, regs := scalars [1, 0, 65536, 131072], tlb := [page false] }
    let t := demo { mode := .system, regs := scalars [0, 65536], tlb := List.replicate 64 (page true) }
    ((demo).cc.mode = .user ∧ s.cc.mode = .system ∧ s.inSeg = false ∧ s.cc.inHandler = false ∧
      (demo { mode := .system, inHandler := true }).cc.inHandler = true ∧ Sources s [1] 0 ∧ Sources s [2, 3] 0 ∧ (s.val 2).toNat = 0 ∧
      0 < (s.val 3).toNat ∧ 0 + (s.val 3).toNat ≤ 2 ^ 52) ∧ (∃ l, tryLock s.cc 1 0 65536 = .done l) ∧
      (∃ va, tryLock s.cc 1 65536 65536 = .walk va) ∧ t.cc.mode = .system ∧ tryLock t.cc 1 65536 65536 = .full :=
  ⟨by simp only [sources_iff]; decide, ⟨_, rfl⟩, ⟨_, rfl⟩, by decide⟩
/-- VCTL for FP32 sources in 8-bit elements, every row enabled. -/
def vector : SMap DWord := [(0x018, 0xFFFF), (0x01C, 0x6000)]
/-- An engine whose queue is full. -/
def fullQueue : List QEntry := List.replicate 32 ⟨0, 0, 1, 0, none, none, none, false, 0, none, false⟩
theorem witness_EngineWordsArePlaced :
    let s := demo { mx := { queue := fullQueue } }
    let t := demo { vx := { queue := fullQueue }, seg := seg4 }
    let u := demo { mx := { queue := fullQueue }, seg := seg4, regs := mixed }
    (engineOf (.mma 0 1 2 3 0 0 0) = some 0 ∧ engineOf (.vadd 1 2 3 0) = some 1 ∧ engineOf (.cpt 1 2 3 0 0) = some 2 ∧
      engineOf (.mfmt 0 2) = some 0) ∧ ((demo).actor = .control ∧ ((demo).cc.eng 0).queue.length < 32) ∧
      (32 ≤ (s.cc.eng 0).queue.length ∧ s.inSeg = false) ∧
      (32 ≤ (t.cc.eng 1).queue.length ∧ t.inSeg = true) ∧ (¬ (u.tag 2 = 0 ∨ u.tag 2 = 1) ∧ u.inSeg = true) ∧
      (u.tag 1 = 1 ∧ 32 ≤ (u.cc.eng 0).queue.length) := by decide
theorem witness_PlainTags : (∀ r, (demo).tag r = 0) ∧ ∀ x, (demo).cc.ttag x = 0 ∧ (demo).cc.atag x = 0 ∧ (demo).cc.btag x = 0 :=
  ⟨fun r => by simp [demo, State.tag, State.cc, State.core, Core.reg, SMap.get], fun _ => ⟨rfl, rfl, rfl⟩⟩
theorem witness_VectorStepsDequeue :
    let s := demo { csrs := (0x018, 0xFFFF) :: [(0x019, 0x28), (0x01C, 0x6000)], tileFull := [(1, true)] } {} (.engine 1)
    vecTable (s.cc.csr 0x01C) (.vadd 2 1 97 0) = some ⟨[1], some 97, 2, false, 2, true, false⟩ ∧
      vecTable (s.cc.csr 0x01C) (.vcvt 2 1 6 0 0) = some ⟨[1], none, 2, false, 3, true, false⟩ ∧
      Runs s (Vec.step ⟨[1], some 97, 2, false, 2, true, false⟩) 1 0 ∧ Runs s (Vec.step ⟨[1], none, 2, false, 3, true, false⟩) 1 0 := by
  simp only [runs_iff]; decide
/-- A step that an entry of a queue takes, the entry timed. -/
def timedVx : Engine := { queue := [⟨0, 0, 1, 0, none, none, none, true, 0, none, false⟩], running := true }
theorem witness_VectorStepChecks :
    let x : Vec := ⟨[1], some 2, 3, false, 2, true, false⟩
    let s := demo { tileTag := [(1, 1), (2, 2)], clocks := clocks3 } {} (.engine 1)
    let t := demo { tileTag := [(1, 3)], clocks := clocks3 } {} (.engine 1)
    vecTable (s.cc.csr 0x01C) (.vadd 3 1 2 0) = some x ∧ s.actor = .engine 1 ∧
      (s.cc.common (x.step.allTags s.cc) = none ∧ x.step.blockedBy s.cc = none ∧ s.rr.phase ≠ .stopping) ∧
      (t.cc.common (x.step.allTags t.cc) = some 3 ∧ t.cc.present 3 = false ∧ x.legal = true) := by decide
theorem witness_VectorStepHolds :
    let x : Vec := ⟨[1], some 2, 3, false, 2, true, false⟩
    let u := demo { csrs := [(0x019, 0x8)] } {} (.engine 1)
    let w := demo { csrs := [(0x019, 0x8)], vx := timedVx } {} (.engine 1)
    let v := demo { csrs := [(0x01C, 0x6000)] } {} (.engine 1)
    let y : Vec := ⟨[1], some 2, 3, false, 2, false, false⟩
    (x.step.blockedBy u.cc = some 1 ∧ u.cc.common (x.step.allTags u.cc) = some 0 ∧ u.cc.present 0 = true ∧ u.timed = false) ∧
      (x.step.blockedBy w.cc = some 1 ∧ w.cc.common (x.step.allTags w.cc) = some 0 ∧ w.cc.present 0 = true ∧ w.timed = true ∧
        x.legal = true ∧ w.rr.phase ≠ .stopping) ∧
      (vecTable (v.cc.csr 0x01C) (.vpck 3 1 2) = some y ∧ v.cc.common (y.step.allTags v.cc) = some 0 ∧ v.cc.present 0 = true ∧
        y.step.blockedBy v.cc = none ∧ y.legal = false) := by decide
theorem witness_WholeTileAndElementSteps :
    let s := demo { regs := scalars [0xFF], csrs := vector } {} (.engine 1)
    Runs s { reads := [1], sides := [1], dst := some 2, occ := 18, land := 25, fullAt := 25, readEnd := 8 } 1 0 ∧
      Runs s { reads := [1], scal := tbScalar (some 97), dst := some 2, occ := 18, land := 25, fullAt := 25, readEnd := 8 } 1 0 ∧
      Runs s { scal := 5 :: tbScalar (some 97), dst := some 2, rdDst := true, land := 17 } 1 0 := by simp only [runs_iff]; decide
theorem witness_ElementReadSteps :
    let s := demo { regs := scalars [0xFF], csrs := vector } {} (.engine 1)
    let t := demo { regs := scalars [0x10], csrs := vector } {} (.engine 1)
    (Runs s { reads := [1], scal := tbScalar (some 97), land := 17, readEnd := 15 } 1 0 ∧ (broadcast s (some 97)).toNat % 16 = 15) ∧
      (Runs t { reads := [1], scal := tbScalar (some 97), land := 2, readEnd := 0 } 1 0 ∧ (broadcast t (some 97)).toNat % 16 = 0) := by
  simp only [runs_iff]; decide
theorem witness_IntegerElements :
    (15 : Nat) < 16 ∧ (∀ a b : BitVec 16, ∃ v f, integerTable a b (.vadds 3 1 98 1) = some (3, 1, 98, 1, v, f)) ∧
      integerTable (32767 : BitVec 16) 1 (.vadds 3 1 98 1) = some (3, 1, 98, 1, 32767, 4) ∧
      integerTable (32766 : BitVec 16) 1 (.vadds 3 1 98 1) = some (3, 1, 98, 1, 32767, 0) :=
  ⟨by decide, fun _ _ => ⟨_, _, rfl⟩, rfl, rfl⟩
theorem witness_SignAndMoveElements : (15 : Nat) < 16 ∧ (2 : BitVec 2) ≠ 3 ∧ (127 : Nat) < 2048 / 16 := by decide
/-- Format entries: 0 INT8, 1 E4M3 with BF16 drains at F2. -/
def formats : SMap Word := [(1, 0x11460000)]
theorem witness_MmaDequeues :
    let s := demo { fmt := formats, regs := [(57, ⟨0x100FFFFFFFF, 0, false⟩)] } { fidmax := 3 } (.engine 0)
    Runs s (mmaStep s 0 1 2 0 1 1) 0 0 ∧ Runs s (mmaStep s 7 95 15 1 0 0) 0 0 ∧ entryWord s 0 / 2 ^ 28 % 16 = 0 := by
  simp only [runs_iff]; decide +kernel
/-- MX with every tile, accumulator and slot it may name on the absent clock k3. -/
def idleMx : State :=
  demo { fmt := formats, clocks := clocks3, tileTag := [(1, 3), (2, 3)], accTag := [(0, 3)], slotTag := [(2, 3)] } {} (.engine 0)
theorem witness_MatrixStepsIdle :
    let s := idleMx
    Idles s (mmaStep s 0 1 2 0 0 0) 3 ∧ Idles s { reads := [2], sides := [2], legal := true, occ := 16, land := 18, always := [s.upd (.pendSlot 3 18)] } 3 ∧
      Idles s { tags := [s.cc.atag 0, s.cc.ttag 2], dst := some 2, legal := true, ready := true, obj := 0, land := 24, fullAt := 19 } 3 ∧
      Idles s { scal := [], tags := [3], legal := true, occ := 1, land := 6, always := [s.upd (.pendAcc 0 6)] } 3 := by
  simp only [idles_iff]; decide +kernel
theorem witness_IntegerSumsLand :
    let sums : List (Nat × Nat × Int × Int × Bool × Nat) := [(0, 0, 140737488355327, 0, false, 0), (255, 0, -1, 0, false, 0)]
    (∀ q ∈ sums, q.1 < 256 ∧ q.2.1 = 0 ∧ q.2.2.2.2.1 = false) ∧ (sums.map Prod.fst).Nodup ∧ 1 < 256 ∧ 1 ∉ sums.map Prod.fst := by decide
theorem witness_MatrixStepsDequeue :
    let s := demo { fmt := formats } {} (.engine 0)
    entryOf s 1 = some 1 ∧
      Runs s { reads := [2], sides := [2], legal := true, occ := 16, land := 18, always := [s.upd (.pendSlot 3 18)] } 0 0 ∧
      Runs s { reads := [2], legal := true, occ := 16, land := 18, always := [s.upd (.pendSlot 3 18)] } 0 0 := by
  simp only [runs_iff]; decide +kernel
theorem witness_DrainAndMaskStepsDequeue :
    let s := demo { fmt := formats } {} (.engine 0)
    Runs s { tags := [s.cc.atag 0, s.cc.ttag 2], dst := some 2, legal := true, ready := true, obj := 0, land := 24, fullAt := 19 } 0 0 ∧
      Runs s { scal := maskSource 0, tags := [0], legal := true, occ := 1, land := 6, always := [s.upd (.pendAcc 0 6)] } 0 0 ∧
      Runs s { scal := [0], legal := decide ((s.val 0).toNat % 1024 = 0), occ := 1, land := 1 } 0 0 ∧ (s.tag 0 = 0 ∨ s.tag 0 = 1) := by
  simp only [runs_iff]; decide +kernel
theorem witness_MidleDequeues : Runs (demo { fmt := formats } {} (.engine 0)) { occ := 1, land := 24 } 0 0 := by
  simp only [runs_iff]; decide +kernel
theorem witness_TileLoadsIssue :
    let s := demo { regs := scalars [own + 0x4F000, own + 8, own + 0x4F040, own + 0x4EF00] }
    let at_ := fun n => decodeAddr s.rr s.vidx (s.val n + BitVec.ofNat 64 ((0 : BitVec 10).toNat * 64))
    (Sources s [1] 0 ∧ at_ 1 = .sp 2048 0x4F000 false ∧ writable s 95 ∧ 0x4F000 % 64 = 0 ∧ 0x4F000 + 4096 ≤ 0x50000) ∧
      (at_ 4 = .sp 2048 0x4EF00 false ∧ 0x4EF00 % 64 = 0 ∧ 0x4EF00 + 4352 ≤ 0x50000) ∧ (at_ 2 = .sp 2048 8 false ∧ 8 % 64 ≠ 0) ∧
      (at_ 3 = .sp 2048 0x4F040 false ∧ 0x50000 < 0x4F040 + 4096) := by simp only [sources_iff, writable]; decide
/-- Tile t7 full and coupled to the copy path, as its destination tiles must not be. -/
def coupled7 : SMap DWord := [(0x019, 0xC000)]
theorem witness_TileLoadsHold :
    let s := fun g => demo { regs := scalars [own], csrs := coupled7, tileFull := [(7, true)], seg := g }
    Sources (s none) [1] 0 ∧ ¬ writable (s none) 7 ∧ (s none).inSeg = false ∧ Sources (s seg4) [1] 0 ∧ ¬ writable (s seg4) 7 ∧
      (s seg4).inSeg = true ∧ decodeAddr (s seg4).rr (s seg4).vidx ((s seg4).val 1 + BitVec.ofNat 64 ((0 : BitVec 10).toNat * 64)) = .sp 2048 0 false := by
  simp only [sources_iff, writable]; decide
/-- A store of a whole tile with its sidecar. -/
def store7 (s : State) : TileStore :=
  ⟨7, [1], s.val 1 + BitVec.ofNat 64 ((0 : BitVec 10).toNat * 64), 0, 256, List.range 16, 256, true, true, true⟩
theorem witness_TileStoresIssue :
    let s := demo { regs := scalars [own + 0x4EF00, 0x2010000FFFF], mode := .system }
    let x := store7 s
    let tags := s.cc.common (s.cc.ttag x.t :: x.srcs.map fun r => (s.cc.reg r).tag)
    (tileStore s (.tsts 7 1 0) = some x ∧ tags = some 0 ∧ s.cc.present 0 = true ∧
      (x.srcs.any fun r => (s.cc.reg r).bad) = false ∧ decodeAddr s.rr s.vidx x.addr = .sp 2048 0x4EF00 false ∧ s.cc.coupling x.t = 0) ∧
      (∀ r ∈ x.rows, 0x4EF00 + 256 * r + 0 + 256 ≤ 0x50000 ∧ writeBarred s.cc s.cc.mode (0x4EF00 + 256 * r + 0) 256 = false) ∧
      (0x4EF00 % 64 = 0 ∧ 0x4EF00 + 4352 ≤ 0x50000 ∧ writeBarred s.cc s.cc.mode (0x4EF00 + 4096) 256 = false) ∧
      ((x.rows.any fun r => marked (s.cc.rowErr x.t r) x.start x.n) || (x.sidecar && s.cc.sideErr x.t ≠ 0)) = false := by decide
theorem witness_TileStoresCheck :
    let s := demo { regs := scalars [own, 0x2010000FFFF], sideBad := [(7, 1)] }
    let t := demo { regs := scalars [own], csrs := coupled7 }
    ((tileStore s (.tstm 7 1 2)).map TileStore.legal = some true ∧ (tileStore s (.tstm 7 1 1)).map TileStore.legal = some false) ∧
      (tileStore s (.tsts 7 1 0) = some (store7 s) ∧ (store7 s).sidecar = true ∧ s.cc.sideErr 7 ≠ 0) ∧
      (tileStore t (.tsts 7 1 0) = some (store7 t) ∧ ¬ full t 7 ∧ t.inSeg = false ∧
        decodeAddr t.rr t.vidx (store7 t).addr = .sp 2048 0 false) := by decide
theorem witness_TagTableWordsIssue : tagTable (demo) (.tins 1 2 3) = some (6, 1, [2, 3], 0, 0) ∧ Sources (demo) [2, 3] 0 := by
  simp only [sources_iff]; decide
/-- One valid entry of key 5 at the top of the tag table, and a table of 256 valid ones. -/
def oneTag : Core := { tagTab := [(255, ⟨true, false, 9, 5⟩)] }
def fullTags : Core := { tagTab := (List.range 256).map fun i => (i, ⟨true, false, 0, BitVec.ofNat 48 i⟩) }
theorem witness_TagTableActs :
    let ent := fun i => SMap.get ({} : TagEnt) oneTag.tagTab i
    (255 < 256 ∧ (ent 255).valid = true ∧ (ent 255).key = (5 : DWord).setWidth 48 ∧ (ent 0).valid = false) ∧
      (∀ i, i < 256 → (ent i).valid = true → i = 255) ∧ (ent 255).key ≠ (6 : DWord).setWidth 48 ∧
      (∀ i, i < 256 → (SMap.get ({} : TagEnt) fullTags.tagTab i).valid = true) ∧
        ∀ i, i < 256 → ¬ (SMap.get ({} : TagEnt) fullTags.tagTab i).key = (999 : DWord).setWidth 48 := by decide +kernel
/-- A page of HBM for timed copies, and CP at the head of a map at offset 0 that s1 names. -/
def timedPage : TlbEnt := ⟨0, 65536, 1, 0xEA04000000000000, true⟩
def copying (spad : SMap Byte) (r : Region := {}) (e : TlbEnt := timedPage) : State :=
  demo { regs := scalars [own, 0, own + 0x100], spad := spad, tlb := [e] } r (.engine 2)
/-- A map of one byte at address 0, and one whose target is core (9, 0), with their bytes. -/
def oneByte : TMap :=
  { gbase := 0, fmt := 0, conv := 0, ndim := 1, flags := 0, target := 0, tgx := 0, tgy := 0, loff := 0, lpitch := 0, stampa := 0, sbase := 0
    dims := ⟨1, 0, 1, 1, 0, 0, 0⟩ :: List.replicate 9 ⟨0, 0, 0, 0, 0, 0, 0⟩, res := 0 }
def farByte : TMap := { oneByte with target := 1, tgx := 9 }
def oneByteMap : SMap Byte := [(9, 1), (40, 1), (52, 1), (54, 1)]
def farByteMap : SMap Byte := [(9, 1), (11, 1), (12, 9), (40, 1), (52, 1), (54, 1)]
/-- What a copy word of CP reads at offset 0, as a condition that can be decided. -/
theorem mapRead_zero {s : State} {a : BitVec 6} {m : TMap}
    (h : decodeAddr s.rr s.vidx (s.val a.toNat) = .sp s.cur 0 false ∧ s.cc.inArena 0 256 = false ∧ s.cc.spErr 0 256 = false ∧
      m = tmapOf (s.cc.spNat 0 256) ∧ m.legal false = true) : mapRead s a false m :=
  ⟨0, h.1, by decide, by decide, h.2.1, h.2.2.1, h.2.2.2.1, h.2.2.2.2⟩
theorem reads_oneByte : CopySources (copying oneByteMap) 1 2 0 ∧ mapRead (copying oneByteMap) 1 false oneByte :=
  ⟨by simp only [copySources_iff]; decide +kernel, mapRead_zero (by decide +kernel)⟩
theorem witness_TimedCopiesBegin :
    let s := copying oneByteMap
    let t := copying farByteMap
    CopySources s 1 2 0 ∧ mapRead s 1 ((0 : BitVec 1) = 1) oneByte ∧
      (targetOf s oneByte = some .global ∧ (∃ ms, loadOrStore s oneByte false .global true (s.val 2).toNat = .ok ms ∧ firstBarred s ms = none) ∧
        s.rr.links = [] ∧ s.hbmUse = []) ∧ mapRead t 1 false farByte ∧ targetOf t farByte = none ∧ t.rr.phase ≠ .stopping :=
  ⟨reads_oneByte.1, reads_oneByte.2, ⟨by decide +kernel, ⟨[⟨.elem [.gm 0] 0, [.sp 2048 0], 0, 8⟩], by decide +kernel⟩, by decide +kernel⟩,
    mapRead_zero (by decide +kernel), by decide +kernel⟩
/-- CP with s2 naming the core itself in its cluster. -/
def multicasting : State := { copying oneByteMap with cores := [(2048, { (copying oneByteMap).core 2048 with regs := scalars [own, 1] })] }
theorem witness_LocalCopiesBegin :
    let s := demo { regs := scalars [own, 0x4FFC0 + own, own + 1], mode := .system } {} (.engine 2)
    (CopySources s 1 2 0 ∧ decodeAddr s.rr s.vidx (s.val 1) = .sp 2048 0 false ∧ decodeAddr s.rr s.vidx (s.val 2) = .sp 2048 0x4FFC0 false ∧
      0 + 64 ≤ 0x50000 ∧ 0x4FFC0 + 64 ≤ 0x50000 ∧ 0 % 64 = 0 ∧ 0x4FFC0 % 64 = 0 ∧ writeBarred s.cc s.cc.mode 0 64 = false) ∧
      (CopySources s 3 1 0 ∧ decodeAddr s.rr s.vidx (s.val 3) = .sp 2048 1 false ∧ 1 % 64 ≠ 0 ∧ writeBarred s.cc s.cc.mode 1 64 = false ∧
        s.rr.phase ≠ .stopping) := by simp only [copySources_iff]; decide
theorem witness_MulticastCopiesBegin :
    let v := multicasting
    let us := [0]
    (CopySources v 1 2 0 ∧ mapRead v 1 false oneByte) ∧ (oneByte.target = 0 ∧ us ≠ [] ∧ us.length ≤ 12 ∧
        ((List.range 16).filter fun k => (v.val 2).getLsbD k).map (v.rr.inCluster v.vidx) = us.map some ∧ v.hbmUse = []) ∧
      ∃ ms, us.foldr (fun u rest => match loadMoves v oneByte .global true 0 (coreId v.ctx u)
          (oneByte.loff + fld ((v.core (coreId v.ctx u)).csr 0x024).toNat 0 19) with
        | .ok x => (match rest with | .ok y => MvRes.ok (x ++ y) | z => z)
        | z => z) (MvRes.ok []) = .ok ms ∧ firstBarred v ms = none :=
  ⟨⟨by simp only [copySources_iff]; decide +kernel, mapRead_zero (by decide +kernel)⟩, by decide +kernel,
    [⟨.elem [.gm 0] 0, [.sp 2048 0], 0, 8⟩], by decide +kernel⟩
theorem witness_UntimedCopiesBegin :
    let s := copying oneByteMap
    CopySources s 1 2 0 ∧ mapRead s 1 ((0 : BitVec 1) = 1) oneByte ∧ targetOf s oneByte = some .global ∧
      (∃ ms, loadOrStore s oneByte false .global false (s.val 2).toNat = .ok ms ∧ firstBarred s ms = none) ∧
      (∃ ms, loadOrStore s oneByte false .global false 0 = .ok ms) ∧ ∃ st, stampLocs s (BitVec.ofNat 64 oneByte.stampa) = .ok st :=
  ⟨reads_oneByte.1, reads_oneByte.2, by decide +kernel, ⟨[⟨.elem [.gm 0] 0, [.sp 2048 0], 0, 8⟩], by decide +kernel⟩,
    ⟨[⟨.elem [.gm 0] 0, [.sp 2048 0], 0, 8⟩], by decide +kernel⟩, (List.range 8).map .gm, by decide +kernel⟩
theorem witness_WindowPoints : oneByte.ndim ≤ oneByte.dims.length ∧ (0 : Nat) < oneByte.ndim := by decide
/-- A copy of one byte that lands at offset 7, in flight. -/
def inFlight (late : Bool) (rec_ : Option Nat) : Copy :=
  { serial := 9, core := 2048, seq := 1, since := 0, outside := false, paid := false, readsS := false, moves := []
    vals := [⟨spLocs 2048 7 1, 0, 8, 0xA5, false, 0⟩], credits := [], sb := 0, stampTo := (List.range 8).map fun j => .gm (0 + j)
    stampVal := 1, pages := [], nodeRec := rec_, late := late, timed := true }
theorem witness_CopiesPerform :
    let s := demo {} { copies := [inFlight false none] }
    let t := demo {} { copies := [inFlight true (some 0x1000)] }
    (s.rr.copy s.cur 9 = some (inFlight false none) ∧ (inFlight false none).late = false) ∧
      t.rr.copy t.cur 9 = some (inFlight true (some 0x1000)) ∧ (inFlight true (some 0x1000)).late = true ∧ 0 + 8 ≤ 2 ^ 52 := by decide
theorem witness_NoRecords (id : Nat) : ((demo {} { copies := [inFlight false none] }).core id).undo = [] := by
  by_cases e : 2048 = id <;> simp [demo, State.core, SMap.get, e]

theorem witness_EntriesAreQueued :
    let s := demo {} { cyc := 8 }
    let t := demo { mx := { queue := fullQueue } }
    let u := demo { mx := { queue := fullQueue }, seg := seg4 }
    let fits := fun c : BitVec 8 => (255 : BitVec 10).toNat + c.toNat + 1 ≤ tableSize 0
    (s.actor = .control ∧ (s.cc.eng 0).queue.length < 32 ∧ fits 0 ∧ s.cyc - s.rr.ibase ≤ (8 : Word).toNat ∧
      (7 : Word).toNat < s.cyc - s.rr.ibase ∧ ¬ fits 1) ∧ (32 ≤ (t.cc.eng 0).queue.length ∧ t.inSeg = false) ∧
      32 ≤ (u.cc.eng 0).queue.length ∧ u.inSeg = true := by decide
theorem witness_LoopEntriesAreQueued :
    let s := demo { regs := scalars [0x000FF, 0x1FFFF] }
    let t := demo { vx := { queue := fullQueue } }
    let size := fun e n => (s.val n).toNat / 2 ^ (18 * e) % 1024 + ((s.val n).toNat / 2 ^ (18 * e + 10) % 256 + 1)
    (s.actor = .control ∧ maySteer s 1 ∧ ∀ e ∈ namedEngines 3, (s.cc.eng e).queue.length < 32 ∧ size e 1 ≤ tableSize e) ∧
      (maySteer s 2 ∧ ∃ e ∈ namedEngines 0, tableSize e < size e 2) ∧
      t.inSeg = false ∧ ∃ e ∈ namedEngines 3, 32 ≤ (t.cc.eng e).queue.length := by unfold maySteer; decide
theorem witness_QueueSettingsLand :
    let s := demo { regs := scalars [255, 256] }
    s.actor = .control ∧ Sources s [1] 0 ∧ maySteer s 1 ∧ maySteer s 2 ∧ (s.val 1).toNat % 1024 < tableSize 0 ∧
      tableSize 0 ≤ (s.val 2).toNat % 1024 := by simp only [sources_iff, maySteer]; decide
theorem witness_TokensAndBarriers :
    let s := demo { tokens := [(31, 1)], mx := { queue := fullQueue } }
    let t := demo { seg := seg4 }
    (s.actor = .control ∧ s.inSeg = false ∧ SMap.get 0 s.cc.tokens 31 ≠ 0 ∧ SMap.get 0 s.cc.tokens 0 = 0) ∧
      (∀ e ∈ namedEngines 1, drained s.cc e = true) ∧ (∃ e ∈ namedEngines 3, drained s.cc e = false) ∧ Sources s [1] 0 ∧
      ((SMap.get {} s.cc.bars 15).phase = decide ((0 : BitVec 1) = 1) ∧ (SMap.get {} s.cc.bars 15).phase ≠ decide ((1 : BitVec 1) = 1)) ∧
      t.inSeg = true ∧ (SMap.get {} t.cc.bars 15).phase ≠ decide ((1 : BitVec 1) = 1) := by simp only [sources_iff]; decide
theorem witness_CreditsApplyTogether :
    let b : StageBar := ⟨10, 4, false⟩
    b.expected.toNat + [6].sum < 4294967296 ∧ (0 < [6].sum ∧ b.delivered.toNat + [6].sum = b.expected.toNat) ∧ b.delivered.toNat + [5].sum < b.expected.toNat ∧
      (0 < [5, 2].sum ∧ b.delivered ≤ b.expected ∧ b.expected.toNat < b.delivered.toNat + [5, 2].sum) := by decide
theorem witness_NeighbourLinks :
    let s := demo { regs := [(2, ⟨0, 2, false⟩)], clocks := clocks3, inboxW := [7] } { w := 2, h := 1 }
    let t := demo { seg := seg4 }
    (s.actor = .control ∧ maySteer s 1 ∧ neighbour s 1 = some 1 ∧ neighbour s 0 = none ∧ neighbour s 2 = none ∧ neighbour s 3 = none) ∧
      ¬ (s.tag 2 = 0 ∨ s.tag 2 = 1) ∧ s.cc.inbox 3 = [7] ∧ s.cc.inbox 0 = [] ∧ s.inSeg = false ∧ t.cc.inbox 0 = [] ∧ t.inSeg = true := by
  unfold maySteer; decide
theorem witness_BarrierTagWords :
    let s := demo { btArr := [(7, true)], btOwed := [(7, true)] }
    let t := demo { btOwed := [(7, true)], seg := seg4 }
    s.actor = .control ∧ SMap.get false s.cc.btArr 0 = false ∧ SMap.get false s.cc.btArr 7 = true ∧ SMap.get false s.cc.btOwed 0 = false ∧
      SMap.get false s.cc.btOwed 7 = true ∧ s.inSeg = false ∧ SMap.get false t.cc.btOwed 7 = true ∧ t.inSeg = true := by decide
theorem witness_ChannelWords :
    let s := inGraph 1 [⟨3, 2, 99⟩] { clocks := clocks3 } { chSnap := [(0, [⟨3, 2, 99⟩])] }
    let w := inGraph 0 []
    (Sources w [1] 0 ∧ w.writes 0 = true) ∧ (Sources s [1] 0 ∧ s.writes 0 = false) ∧
      (2 ≤ (4 : BitVec 4).toNat ∧ s.readsCh 0 = true ∧ ¬ isDefined s 4 ∧ s.snapshot 0 = some 99) ∧
      ((inGraph 1 []).snapshot 0 = none ∧ (inGraph 1 []).readsCh 0 = true ∧ w.readsCh 0 = false) ∧ s.chan 1 1 = none := by
  simp only [sources_iff, isDefined]; decide +kernel
theorem witness_NoticesAreStaged :
    let s := inGraph 1 [⟨3, 2, 99⟩]
    let full := demo { staging := List.replicate Config.stagingEntries ⟨.acell, [], 0, false⟩ }
    (∃ q, s.chan 1 0 = some q ∧ q.rnode = s.rr.node ∧ q.kind ≠ 0) ∧ (Sources s [1] 0 ∧ s.inSeg = false ∧ stageRoom s.cc = true) ∧
      Sources full [1] 0 ∧ full.inSeg = false ∧ stageRoom full.cc = false :=
  ⟨⟨_, rfl, by decide, by decide⟩, by simp only [sources_iff]; decide +kernel⟩

/-- The demo core with JMP 0x234, E set, at word 0, in its turn. -/
def fetching : State := { demo {} { code := [(0, 0x98800234)], between := false } with todo := [.control 2048 false] }
theorem witness_StepRunsControl :
    let r := fetching.region 1
    (fetching.todo = [.control 2048 false] ∧ mayAct r (fetching.core 2048) 2048 = true ∧ mayIssue r (fetching.core 2048) = true) ∧
      ((fetching.core 2048).held = false ∧ (SMap.get 0 r.code 0).toNat / 2 ^ 31 = 1 ∧ 0 + 1 ≤ 8192 ∧
        decode (SMap.get 0 r.code 0).toNat (SMap.get 0 r.code 1) = .ok (.jmp 0x234) ∧ (fetching.core 2048).seg = none) := by decide
theorem witness_StepRunsEngine :
    let c : Core := { vx := { queue := [⟨0, 0, 1, 0, none, none, none, false, 0, some 0xC0000000, false⟩], running := true } }
    let s := { demo c with todo := [.engine 2048 1] }
    (s.todo = [.engine 2048 1] ∧ (s.region 1).phase = .run ∧ ((s.core 2048).eng 1).running = true ∧ ((s.core 2048).eng 1).stopped = false) ∧
      ((s.core 2048).eng 1).due ≤ (s.region 1).cyc ∧ ((s.region 1).cyc - (s.region 1).ibase) % (s.core 2048).divisor 2 = 0 ∧
      microOrder (s.core 2048) 1 = some (.vadd 0 0 0 0) := by decide
theorem witness_StepRunsEvents :
    let s := { demo {} { agenda := [({ due := 0 }, .ev 2048 .control .quantumExpiry)] } with todo := [.agenda 1] }
    let t := { demo with todo := [.inputs], inputs := [(1, 0, .dawn), (0, 2048, .pwrack)] }
    (s.todo = [.agenda 1] ∧ (s.region 1).agenda = [({ due := 0 }, .ev 2048 .control .quantumExpiry)] ∧ (s.region 1).phase.counts = true ∧
      0 ≤ (s.region 1).cyc) ∧ t.todo = [.inputs] ∧ (t.inputs.find? fun x => decide (x.1 ≤ t.now)) = some (0, 2048, .pwrack) ∧
      Instr.pwrack.isWord = false ∧ t.recovery = false ∧ ({ t with recovery := true } : State).recovery = true ∧
      answersInRecovery .pwrack = false ∧ answersInRecovery .getMeasurements = true := by decide
theorem witness_Encodings : Instr.isWord (.runs 2 1023 255 0xFFFFFFFF) = true ∧ Instr.wellFormed (.runs 2 1023 255 0xFFFFFFFF) = true ∧
    decode 0x98800234 0 = .ok (.jmp 0x234) ∧ takesLiteral (0x9C800000 % 2 ^ 31) = true := by decide
theorem witness_EveryStepKeepsTheForm : State.reset.Inv ∧ goesOn State.reset :=
  ⟨by simp only [State.Inv, State.tabled]; decide, _, rfl⟩
theorem witness_LandingsWriteTheirCore :
    let s := { demo {} { agenda := [({ due := 0 }, .land 2048 [.reg 63 1 0 false])] } with todo := [.agenda 1] }
    s.todo = [.agenda 1] ∧ (s.region 1).agenda = [({ due := 0 }, .land 2048 [.reg 63 1 0 false])] ∧ (s.region 1).phase.counts = true ∧
      0 ≤ (s.region 1).cyc ∧ Core.wf { regs := scalars [1] } = true := by decide
theorem witness_TimedAccessesPerform :
    let s := demo { spad := [(0x4FFFF, 0x80)] }
    (s.core 2048).spErr 0x4FFF8 8 = false ∧ ((s.core 2048).csr 0x070).toNat % 256 ≠ 0x10 ∧ 0 < 8 ∧ 8 ≤ 8 ∧ (s.core 2048).undo = [] := by decide
/-- A fault of core 2049's VX at cycle 100, the first of its window. -/
def window : FaultWin := ⟨{ code := 3, core := 2049, eng := 1 }, 100, 1, 0, 0, 1, 0, 0, false, false⟩
theorem witness_FaultWindow :
    let at_ := fun n => ({ cyc := n, fault := some window } : Region)
    ({} : Region).fault = none ∧ ({} : Region).frozen = false ∧ (window.cyc < (at_ 147).cyc ∧ (at_ 147).cyc < window.cyc + 48) ∧
      (window.cyc = (at_ 100).cyc ∧ (2048 < window.first.core ∨ (2049 = window.first.core ∧ engRank 3 < engRank window.first.eng))) ∧
      (2049 = window.first.core ∧ engRank 3 < engRank window.first.eng) ∧ (2049 = window.first.core ∧ engRank window.first.eng ≤ engRank 2) ∧
      window.first.core < 2050 ∧ window.cyc + 48 ≤ (at_ 148).cyc := by decide
theorem witness_HandlerEntry : SWTRAP < 65536 ∧ ILLEGAL < 65536 := by decide
theorem witness_HeldBundlesIssue :
    let s := { fetching with todo := [] }
    s.actor = .control ∧ soleInstr (s.rr.codeAt s.cc) s.cc.pc = some (.jmp 0x234, 1) ∧ Instr.isWord (.jmp 0x234) = true ∧ afterEngines (.jmp 0x234) = false ∧ s.enginesToCome = false ∧ s.cc.seg = none := by decide
/-- The demo core held in one wait. -/
def waiting (k : WaitKind) (c : Core := {}) : State := demo { c with waits := [⟨k, 0, some 16⟩] } { cyc := 16 }
theorem witness_PlainWaitsEnd :
    (waiting .fence).cc.waits = [⟨.fence, 0, some 16⟩] ∧ plainEnd (waiting .fence) .fence ∧ plainEnd (waiting (.lwait 5)) (.lwait 5) ∧
      plainEnd (waiting (.qdrn 3)) (.qdrn 3) ∧ plainEnd (waiting (.sbwt 15 false)) (.sbwt 15 false) ∧
      plainEnd (waiting (.barw 7)) (.barw 7) := by simp only [plainEnd]; decide
/-- A wait for the value 5 at offset 8 of the scratchpad, and one at address 8 of a page. -/
def waitOn (c : Core) : State := waiting (.mwait 9 0x8000000000000008 5 0 [] 0) c
def waitAt (c : Core) : State := waiting (.mwait 9 8 0 0 ((List.range 8).map (8 + ·)) 1) c
theorem witness_WaitsEnd :
    let s := waitOn { spad := [(8, 6)] }
    let keys := (List.range 8).map (8 + ·)
    (SMap.get 0 (waiting (.waitt 31) { tokens := [(31, 1)] }).cc.tokens 31 ≠ 0 ∧ (waiting (.qwait 0)).qwaitMet 1 0 = true) ∧
      (mwaitSample s 0 0x8000000000000008 [] 0 = some (6, false) ∧ ((6 : DWord) - 5).toNat < 2 ^ 63) ∧
      mwaitSample (waitOn { spadBad := [(1, true)] }) 0 0x8000000000000008 [] 0 = some (0, true) ∧
      mwaitSample (waitAt {}) 0 8 keys 1 = some (0, false) ∧ mwaitSample (waitAt { untimed := [load5], serial := 1 }) 0 8 keys 1 = none := by decide
theorem witness_LockWaitsEnd :
    ∃ l, tryLock (waiting (.tlblk 0 65536) { tlb := [page false] }).cc 1 0 65536 = .done l := ⟨_, rfl⟩
theorem witness_WaitsExpire :
    let s := waiting (.waitt 3)
    s.cc.waits = [⟨.waitt 3, 0, some 16⟩] ∧ 16 ≤ s.cyc := by decide
/-- VX with one entry at its head. -/
def headed (q : QEntry) (c : Core := {}) (cyc : Nat := 8) : State := demo { c with vx := { queue := [q] } } { cyc := cyc } (.engine 1)
/-- An entry of one step stamped 8: timed or not, with a guard and a token, and one that has raised its trap. -/
def entry8 (timed : Bool) (g w : Option Nat) : QEntry := ⟨8, 0, 1, 0, g, w, none, timed, 0, none, false⟩
theorem nextFree_zero (s : State) (e : Nat) (h : (s.cc.eng e).freeAt = 0 ∧ (s.cc.eng e).lastH = none ∧ s.rr.ibase = 0) : nextFree s e 0 := by
  simp [nextFree, h.1, h.2.1, h.2.2]
theorem witness_EntriesStart :
    let s := headed (entry8 true (some 15) (some 31)) { tokens := [(31, 1)], preds := [(15, ⟨true, true⟩)] }
    (s.actor = .engine 1 ∧ (s.cc.eng 1).queue = [entry8 true (some 15) (some 31)] ∧ (s.cc.eng 1).running = false ∧ s.cc.divisor 2 ≠ 0) ∧
      nextFree s 1 0 ∧ (s.rr.ibase + 8 = s.cyc ∧ 0 ≤ s.cyc ∧ 8 % s.cc.divisor 2 = 0 ∧ SMap.get 0 s.cc.tokens 31 ≠ 0) ∧
      (SMap.get ({} : Pred) s.cc.preds 15).written = true ∧ (SMap.get ({} : Pred) s.cc.preds 15).value = true :=
  ⟨by decide, nextFree_zero _ _ (by decide), by decide⟩
theorem witness_EntriesSkip :
    let z := headed (entry8 false (some 15) none) { preds := [(15, ⟨false, true⟩)] } 9
    nextFree z 1 0 ∧ 0 ≤ z.cyc ∧ (z.cyc - z.rr.ibase) % z.cc.divisor 2 = 0 ∧ (SMap.get ({} : Pred) z.cc.preds 15).written = true ∧
      (SMap.get ({} : Pred) z.cc.preds 15).value = false := ⟨nextFree_zero _ _ (by decide), by decide⟩
theorem witness_EntriesTrap :
    let late := headed (entry8 true none none) {} 9
    let none31 := headed (entry8 true none (some 31))
    let unset := headed (entry8 true (some 0) none)
    let done := headed { entry8 true none none with faulted := true } {} 9
    late.rr.ibase + 8 < late.cyc ∧ (none31.rr.ibase + 8 = none31.cyc ∧ SMap.get 0 none31.cc.tokens 31 = 0) ∧
      (unset.rr.ibase + 8 = unset.cyc ∧ (SMap.get ({} : Pred) unset.cc.preds 0).written = false) ∧
      ((done.cc.eng 1).queue.map QEntry.faulted = [true] ∧ done.rr.ibase + 8 ≤ done.cyc) := by decide
theorem witness_EntriesComplete :
    let f : Finishing := ⟨4, 2, 8, 0, some 31, false⟩
    let s := demo { vx := { finishing := [⟨3, 1, 9, 0, none, false⟩, f] }, tokens := [(31, 254)] } { cyc := 8 } (.engine 1)
    s.actor = .engine 1 ∧ ((s.cc.eng 1).finishing.find? fun f => f.copies = 0 && decide (f.doneAt ≤ s.cyc)) = some f ∧
      SMap.get 0 s.cc.tokens 31 < 255 ∧ 255 ≤ SMap.get 0 (demo { tokens := [(31, 255)] }).cc.tokens 31 := by decide
theorem witness_UntimedResultsLand :
    let s := fun x r => demo { untimed := [{ load5 with served := x }] } r
    (s (some (7, false, 0)) {}).cc.untimed = [{ load5 with served := some (7, false, 0) }] ∧ (s (some (7, true, 0)) {}).rr.closed = false ∧
      (s (some (7, true, 0)) { frozen := true }).rr.closed = true ∧ (s none {}).cc.untimed = [load5] := by decide
/-- A walk of die 0 for address 0 of context 1, whose tables lie at 0 and map 1 GiB at level 2, for a bundle or for a CP step. -/
def walkFor (kind : Nat) : Walk := ⟨0, 1, 0, true, [(2048, kind, 8)]⟩
def walking (mem : SMap Byte) (kind : Nat := 3) : State := { demo { pc := 1 } with walks := [walkFor kind], mem := mem }
def tables : SMap Byte := [(0, 0x10), (7, 0x80), (0x10006, 0x0C), (0x10007, 0x82)]
theorem witness_TranslationEvents :
    let s := walking tables
    let c := walking tables 2
    let sole := fun (s : State) => s.walks.find? fun w => w.die = 0 ∧ w.ctx = 1 ∧ w.va = 0 ∧ w.started
    (sole s = some (walkFor 3) ∧ (walkFor 3).waiters = [(2048, 3, 8)] ∧ sole c = some (walkFor 2) ∧ (walkFor 2).waiters = [(2048, 2, 8)]) ∧
      (((SMap.get [] s.dieTlb 0).find? fun e => e.covers 1 0) = none ∧ (s.core 2048).tlbHit 1 8 = none ∧ (c.core 2048).tlbHit 1 8 = none) ∧
      (∀ x ∈ s.walks, x.started = true) ∧ s.walk 1 0 = some ⟨0, 2 ^ 30, 1, 0x820C000000000000, false⟩ ∧ (walking []).walk 1 0 = none := by decide
theorem witness_Invalidations :
    let s := { walking tables with cores := [(2048, { pc := 1, tlb := [page true] })] }
    State.Inv s ∧ 2048 ∈ (s.region 1).ids ∧ ((s.core 2048).tlb.any fun e => Claim.leaves s 1 0 e && e.locked && (s.walk 1 e.base).map TlbEnt.pte ≠ some e.pte) =
      true := by simp only [State.Inv, State.tabled]; decide
theorem witness_InstantsStart :
    let s := { demo {} { clkSrc := 3, period := 4, d0 := 1, nextDue := 2, instant := 1 } with dtAcc := 9000000 }
    s.rr.clkSrc = 3 ∧ 0 < s.rr.period ∧ s.rr.d0 + s.rr.period * s.rr.nextDue ≤ s.dtime ∧
      (demo).rr.clkSrc ≠ 2 ∧ (demo).rr.clkSrc ≠ 3 ∧ 2048 ∈ s.live s.rr ∧ 2049 ∉ s.live s.rr := by decide
theorem witness_InstantsCommit :
    let s := { inGraph 0 [⟨1, 1, 5⟩] { chStaged := [(0, 3, 7)], staging := [⟨.store, [⟨0, 0, 1⟩], 0, false⟩] } with booted := true }
    let t := inGraph 0 [⟨1, 1, 1⟩, ⟨1, 1, 2⟩, ⟨1, 1, 3⟩, ⟨1, 1, 4⟩] { chStaged := [(0, 3, 7)] }
    (s.commitFull 1 = [] ∧ s.rr.swapPend = false ∧ s.booted = true ∧ outgoing s s.rr ≠ [] ∧ outgoing t t.rr = [] ∧ t.commitFull 1 ≠ []) ∧
      ∃ g k, (s.graphs.find? fun g => g.gid = s.rr.gid) = some g ∧ g.chans[0]? = some k ∧ k.wnode = s.rr.node ∧ k.wnode ≠ k.rnode :=
  ⟨by decide, _, _, rfl, rfl, by decide⟩
theorem witness_StagedWritesApply :
    let s := demo {} { released := [⟨.store, [⟨0, 0, 1⟩], 0, false⟩, ⟨.mark, [], 0, false⟩, ⟨.acell, [⟨0, 0, 2⟩], 0, false⟩] }
    ∀ e ∈ s.rr.released, (e.kind = .store ∧ ∀ b ∈ e.bytes, s.peerDown b.key = false) ∨ e.kind = .acell ∨ e.kind = .mark := by decide
theorem witness_RegionsFreeze : (demo).rr.phase = .run ∧ (State.reset).rr.phase ≠ .run := by decide
/-- The demo machine in another phase of its region. -/
def inPhase (p : RPhase) (c : Core := {}) (r : Region := {}) : State := { demo c with regions := [(1, { r with phase := p, ctx := 1 })] }
/-- A window whose first fault is core 2048's, with a code. -/
def faulted (code : Nat) : FaultWin := ⟨{ code := code, core := 2048 }, 2, 1, 0, 0, 1, 0, 0, false, false⟩
theorem witness_RegionsStop :
    let s := inPhase .stopping {} { fault := some (faulted ILLEGAL) }
    let t := inPhase .stopping {} { fault := some (faulted UECC), cyc := 50 }
    let v := inPhase .stopping { staging := [⟨.acell, [], 0, false⟩] } { action := 4 }
    (s.rr.ctx = s.ctx ∧ toHandler s (faulted ILLEGAL)) ∧
      (t.rr.fault = some (faulted UECC) ∧ t.rr.action ≠ 4 ∧ (faulted UECC).inh = false ∧ rollsBack (faulted UECC).first ∧ t.rr.retried = false ∧
        ∀ id ∈ t.live t.rr, (t.core id).levels = []) ∧ (v.rr.fault = none ∧ v.rr.action = 4) := by
  simp only [toHandler, rollsBack]; decide
theorem witness_RegionsRollBack :
    let u := inPhase .stopping { levels := [level0] } { fault := some (faulted SEGSIG), cyc := 50 }
    u.rr.fault = some (faulted SEGSIG) ∧ rollsBack (faulted SEGSIG).first ∧ u.live u.rr ≠ [] ∧
      ∀ id ∈ u.live u.rr, (u.core id).levels = [level0] ∧ level0.retries < level0.limit ∧ (u.core id).recordErr 1 = false := by
  simp only [rollsBack]; decide
theorem witness_RestartsSetTheBase :
    let s := inPhase (.restoring 90) { levels := [level0] } { cyc := 90 }
    let t := inPhase (.restoring 90) {} { cyc := 90 }
    s.rr.phase = .restoring 90 ∧ s.live s.rr = [2048] ∧ (s.core 2048).levels = [level0] ∧ level0.snap.sOpen = 7 ∧ t.rr.phase = .restoring 90 ∧
      ∀ id ∈ t.live t.rr, (t.core id).levels = [] := by decide
/-- A killed region that is node 0 of graph 1; node 1 of it, running, waiting or absent, decides whether the graph goes on. -/
def killedIn (other : Node) (p : RPhase := .killed) : State :=
  { inGraph 0 [] with regions := [(1, { phase := p, ctx := 1, gid := 1, node := 0, action := 4, status := 2 })]
                      graphs := [{ pair [] with nodes := [node 1 [], other] }] }
theorem witness_DrainsAndResets :
    let s := inPhase .killed {} { action := 4 }
    let t := killedIn (node 2 [])
    let u := killedIn { node 2 [] with st := .done } .drained
    let g := fun (s : State) => s.graphs.find? fun g => g.gid = s.rr.gid
    (s.rr.phase = .killed ∧ s.rr.action = 4 ∧ s.dusk = false ∧ s.rr.ctx = s.ctx ∧ g s = none) ∧
      ((t.rr.phase = .killed ∧ t.rr.action = 4 ∧ t.dusk = false ∧ t.rr.ctx = t.ctx ∧ t.rr.status ≠ 0) ∧
        (g t).map (fun g => g.nodes[t.rr.node]?) = some (some (node 1 [])) ∧ (1 ≠ t.rr.node ∧ (node 2 []).busy = true)) ∧
      ((u.rr.phase = .drained ∧ u.rr.action = 4 ∧ u.rr.status ≠ 0) ∧ (g u).map Graph.checked = some true ∧
        (g u).map (fun g => g.nodes.map fun y => (y.busy, y.swapped)) = some [(true, 0), (false, 0)] ∧ u.rr.node = 0) ∧
      ({ s with dusk := true } : State).dusk = true ∧ ({ u with dusk := true } : State).rr.phase = .drained ∧
      (inPhase .killed {} { action := 3 }).rr.action = 3 ∧ (demo).rr.phase = .run ∧ s.booted = false ∧ ({ s with booted := true } : State).booted = true := by
  decide
/-- An image that asks for one core and is of this machine, the demo machine swapped out with one saved core, and its node in graph 1. -/
def swappedOut : State :=
  { inGraph 0 [] with regions := [(1, { phase := .out, ctx := 1, gid := 1, node := 0, images := [{ regs := scalars [7] }] })], vofs := [(0, some {})] }
theorem witness_SwapsAndResumes :
    ((inPhase .saving).rr.phase = .saving ∧ (inPhase .saving).rr.ctx = (inPhase .saving).ctx) ∧
      (((killedIn (node 2 []) .saving).rr.phase = .saving ∧ (killedIn (node 2 []) .saving).rr.ctx = (killedIn (node 2 []) .saving).ctx) ∧
        ((killedIn (node 2 []) .saving).graphs.find? fun g => g.gid = (killedIn (node 2 []) .saving).rr.gid).map
          (fun g => g.nodes[(killedIn (node 2 []) .saving).rr.node]?) = some (some (node 1 []))) ∧
      (swappedOut.graphs.find? fun g => g.gid = swappedOut.rr.gid).isSome ∧ swappedOut.rr.phase = .out ∧ swappedOut.vofAt 0 0 = some {} ∧
      swappedOut.placeFor 1 0 1 1 1 = some (0, 0) ∧
      (∀ c ∈ swappedOut.rr.images, SMap.wf {} c.regs = true) ∧ swappedOut.rr.images[0]? = some { regs := scalars [7] } := by decide +kernel

theorem witness_PowerEvents :
    let skipped := demo {} { ps := true, skip := 4, skipCnt := 1 }
    ((demo).rr.ps = false ∧ 7 < 8 ∧ (7 : Nat) ≠ 0 ∧ (demo {} { ps := true }).rr.ps = true ∧ (demo).rr.skip = 0) ∧
      (skipped.rr.phase.counts = true ∧ skipped.rr.skip ≠ 0 ∧ skipped.rr.skipCnt ≠ 0) ∧
      (((demo).region 1).phase ≠ .none ∧ ((demo).region 1).phase ≠ .out ∧ ¬ (((demo).region 1).exh = true ∧ ((demo).region 1).between = true)) ∧
      ((demo).region 2).phase = .none ∧ ((inPhase .out).region 1).phase = .out ∧
      (((demo {} { exh := true, between := true }).region 1).exh = true ∧ ((demo {} { exh := true, between := true }).region 1).between = true) := by decide
theorem witness_WindowsEnd : State.Inv (demo { pc := 1 }) ∧ trippedWindow { factor := 1, ops1 := 2 ^ 20, det1 := 2 } ∧
    ¬ trippedWindow { factor := 1, ops1 := 2 ^ 20, det1 := 1 } := by
  simp only [State.Inv, State.tabled, trippedWindow, trip]; decide
/-- Graph 1 with a node that waits for its release, at a DTIME of 2,048 ns; its node 1 follows node 0. -/
def waitingNode (count release : Nat) : Node := { node 0 [] with st := .waiting, count := count, release := release, recp := 0x1040 }
def graphed (n0 n1 : Node) (checked : Bool := true) : State :=
  { demo { pc := 1 } { gid := 1, node := 0 } with graphs := [{ pair [] with nodes := [n0, n1], checked := checked }], dtAcc := 2048000000 }
theorem witness_NodesBecomeReady :
    let s := graphed (waitingNode 0 2048) (node 0 [])
    let u := graphed (node 1 []) (node 0 []) false
    (s.dusk = false ∧ (s.graphs.find? fun y => y.gid = 1).isSome ∧ (waitingNode 0 2048).st = .waiting ∧ (waitingNode 0 2048).count = 0 ∧
      (waitingNode 0 2048).release ≤ s.dtime / 1024 * 1024) ∧
      ((u.graphs.find? fun g => !g.checked).map fun g => (u.applyAll (loadImages u g)).graphOk g) = some false ∧
      ({ s with dusk := true } : State).dusk = true := by decide +kernel
theorem witness_NodesMove :
    let t := graphed (node 1 [1]) (waitingNode 1 0)
    let e := { graphed (node 1 []) (node 2 []) with regions := [(1, { phase := .drained, ctx := 1, gid := 1, node := 0, exh := true })] }
    let at_ := fun (s : State) i => (s.graphs.find? fun y => y.gid = 1).bind fun g => g.nodes[i]?
    (at_ t 0 = some (node 1 [1]) ∧ t.rr.gid = 1 ∧ t.rr.node = 0 ∧ (node 1 [1]).succs.Nodup ∧ 0 ∉ (node 1 [1]).succs ∧
        (waitingNode 1 0).ahead = true) ∧ (at_ t 1 = some (waitingNode 1 0) ∧ 1 ∈ (node 1 [1]).succs ∧ (waitingNode 1 0).st = .waiting ∧ t.rr.exh = false) ∧
      (e.rr.exh = true ∧ at_ e 0 = some (node 1 []) ∧ at_ e 1 = some (node 2 []) ∧ (node 2 []).busy = true) := by decide
/-- The last context of a handle that closes. -/
def closingLast : State :=
  { graphed (node 1 []) (node 0 []) with handles := [(0, { st := 1, closing := true })], regions := [(1, { phase := .run, ctx := 1, gid := 1, node := 0 })] }
theorem witness_ClosingHandlesEnd :
    closingLast.dusk = false ∧ (SMap.get {} closingLast.handles closingLast.rr.handle).closing = true ∧ closingLast.heldWork = [] ∧
      ∀ q ∈ closingLast.regions, q.1 ≠ closingLast.ctx → q.2.handle = closingLast.rr.handle → q.2.phase = .none := by decide
theorem witness_StampsReachTheirNode :
    let t := graphed (node 1 [1]) (waitingNode 1 0)
    ((t.graphs.findSome? fun g => if g.handle = 0 then (g.nodes.findIdx? fun x => x.recp = 0x1040).map fun i => (g.gid, i) else none)) = some (1, 1) ∧
      0 < (waitingNode 1 0).count ∧ (waitingNode 0 0).count = 0 ∧ State.Inv t := by simp only [State.Inv, State.tabled]; decide
/-- A graph that the check takes: one node whose record and image keep R265. -/
def soundGraph : Graph :=
  { pair [] with hdr := 1 * 2 ^ 208 + 1 * 2 ^ 248, chans := [], nodes := [waitingNode 0 0], checked := false }
theorem witness_GraphCheck :
    let s := { demo with graphs := [soundGraph], vofs := [(0, some {})] }
    (s.graphs.find? fun g => !g.checked) = some soundGraph ∧ loadImages s soundGraph = [] ∧ s.graphOk soundGraph = true := by decide +kernel
theorem witness_GangLaunches :
    let s := { graphed { waitingNode 0 0 with argp := 0x20000 } (node 0 []) with vofs := [(0, some { loops := [(1, 8), (0, 5)] })] }
    s.vofAt 0 0 = some { loops := [(1, 8), (0, 5)] } ∧ s.placeFor 1 0 1 1 1 = some (0, 0) ∧ 1 * 1 ≤ 2048 ∧ (waitingNode 0 0).argp = 0 ∧
      ({ s with handles := [(0, { st := 1 })], mem := tables } : State).hkey 0 0x20000 = some 0x20000 := by decide +kernel

theorem witness_HostRegistersAndWindow :
    let s := { demo with mwBase := 511, booted := true }
    (0 : DWord) ≠ 0x5741524D ∧ 1 < 65536 ∧ ((demo).region 1).phase ≠ .none ∧ (demo).booted = false ∧ s.booted = true ∧
      (0 + 0 < s.mwSize ∧ s.mwBase * 2 ^ 30 + 0 < 2 ^ 39) ∧ ¬ 2 ^ 28 + 0 < s.mwSize := by decide
theorem witness_ResizableBar : (2 : Nat) ^ 28 = 2 ^ (20 + 8) ∧ (0x1000 : DWord).toNat / 2 ^ 8 % 64 = 16 ∧ (0x0700 : DWord).toNat / 2 ^ 8 % 64 < 8 := by decide
theorem witness_JournalsStandInTheirRings :
    let s := { demo with todo := [.tick], journal := [(3, ⟨5, 0, 0, 0, 0, 0⟩)], jhead := [(3, 1)] }
    3 < 4 ∧ SMap.get 0 s.jhead 3 = SMap.get 0 s.jdone 3 + 1 ∧
      (s.journal.filter fun p => p.1 = 3).getLast? = some (3, ⟨5, 0, 0, 0, 0, 0⟩) ∧ (s.journal.filter fun p => p.1 = 3).length ≤ SMap.get 0 s.jhead 3 ∧
      ∀ x, x < 4 → x ≠ 3 → SMap.get 0 s.jhead x = SMap.get 0 s.jdone x := by decide
theorem witness_RegisterWindowReads :
    (demo).recovery = false ∧ ({ demo with recovery := true } : State).recovery = true ∧ ({ demo with booted := true } : State).booted = true ∧
      ((demo).region 1).phase ≠ .none ∧ (8 : Nat) < 9 := by decide
/-- Handle 63 open, with the demo machine's context under it. -/
def open63 : State := { demo { pc := 1 } { handle := 63 } with handles := [(63, { st := 1, ver := 0x0102 })] }
theorem witness_HandlesOpenAndClose :
    let k := fun (s : State) => SMap.get {} s.handles 63
    (63 < 64 ∧ (k (demo)).closing = false ∧ (k (demo)).st ≠ 1 ∧ (0x0102 : DWord).toNat / 256 % 256 = 1) ∧
      ((0x0200 : DWord).toNat / 256 % 256 ≠ 1 ∧ (0x0200 : DWord).toNat % 65536 ≠ 0) ∧
      ((k open63).st = 1 ∧ (k open63).closing = false ∧ (0 : DWord).toNat % 65536 = 0 ∧ (∃ p ∈ open63.regions, p.2.handle = 63 ∧ p.2.phase ≠ .none)) ∧
      (∀ p ∈ ({ open63 with regions := [] } : State).regions, p.2.handle = 63 → p.2.phase = .none) ∧ open63.handleBusy 63 = false ∧
      State.Inv open63 ∧ (open63.dusk = false ∧ ({ open63 with dusk := true } : State).dusk = true) ∧ (1 : DWord).toNat % 65536 ≠ 0 ∧
      (k { open63 with handles := [(63, { st := 1, closing := true })] }).closing = true := by simp only [State.Inv, State.tabled]; decide
theorem witness_HandlesServeTheHost :
    let s := { pair [] with nodes := [waitingNode 0 0] }
    State.Inv open63 ∧ ((inGraph 0 []).handleBusy 0 = true ∧ open63.dusk = false ∧ open63.graphs.length < 256) ∧
      ((open63.region 1).phase ≠ .none ∧ (open63.region 1).handle = 63 ∧ (1 : DWord).toNat % 65536 = 1) ∧
      ((SMap.get {} open63.handles 63).busy = false ∧ ({ open63 with mem := [(0, 3)] } : State).blockOp 0 = 3 ∧ open63.blockOp 0 ≠ 3) ∧
      ∀ x ∈ s.nodes, x.busy = false ∧ x.swapped = 0 := by simp only [State.Inv, State.tabled]; decide
/-- A header that the tables of handle 0 map: SUBMIT reads it. -/
theorem witness_Submit : ((({ demo with handles := [(0, { st := 1 })], mem := tables } : State).readGraph 0 0x20000 1).map Graph.nodes) = some [] := by
  decide +kernel
/-- An update whose staged image is good, or bad, and a port that waits for flit 4095. -/
def updating (good : Bool) (phase : Nat := 1) (hand : Option Handover := none) : State :=
  { State.reset with update := { phase := phase, hand := hand }, slots := [(2, { version := 2, build := 7, good := good })]
                     ports := [(17, { up := true, version := 0x0102, expect := 4095 })] }
theorem witness_UpdatesOfFirmware :
    let s := updating true
    ((1 : DWord).getLsbD 0 = true ∧ s.fwGo = false ∧ s.update.phase = 1 ∧ (SMap.get ({} : FwSlot) s.slots 2).good = true) ∧
      (SMap.get ({} : FwSlot) (updating false).slots 2).good = false ∧
      ((updating true 2 (some ⟨0x0200, [], 0⟩)).update.phase = 2 ∧ (⟨0x0200, [], 0⟩ : Handover).readable {} = false) ∧
      (⟨0x0100, [], crc32c []⟩ : Handover).readable {} = true ∧ s.dtime ≤ s.update.deadline ∧
      ({ s with dtAcc := 2000000 } : State).update.deadline < ({ s with dtAcc := 2000000 } : State).dtime := by decide +kernel
theorem witness_LinksAndDawn :
    let s := updating true
    let q := SMap.get ({} : Port) s.ports 17
    (max 0x0100 0x0100 ≤ min 0x0101 0x0102 ∧ ¬ max 0x0200 0x0100 ≤ min 0x0300 0x0102) ∧
      (17 < 18 ∧ q.up = true ∧ 255 < 256 ∧ 8191 % 4096 = q.expect ∧ (0 : Nat) = s.modNo ∧ (1 : Nat) ≠ s.modNo ∧ 224 ≤ 224 ∧ 0 + 224 ≤ 2 ^ 39) ∧
      (s.timePeer = 0 ∧ SMap.get 0 s.routes 0 = 0 ∧ ({ s with timePeer := 2 } : State).timePeer ≠ 0) ∧
      ((SMap.get ({} : FwSlot) s.slots s.fwActive).good = true ∧ s.dawnCold = true) := by decide
/-- A warm Dawn with context 1 swapped out, and context 2 without a live core since a commit in the reset's 5 ms. -/
theorem witness_WarmDawn :
    let s := { inPhase .out with dawnCold := false, kept := [2], regions := [(1, { phase := .out, ctx := 1 }), (2, { phase := .run, ctx := 2, w := 1, h := 1 })]
                                 cores := [(4096, { ended := true })] }
    State.Inv s ∧ s.dawnCold = false ∧ (s.region 1).phase = .out ∧ (2 ∈ s.kept ∧ (s.region 2).phase = .run ∧ s.live (s.region 2) = []) := by
  simp only [State.Inv, State.tabled]; decide

/-! ## Bundles, sums, saves, host commands and routes -/

/-- The demo core with ADD 4 2 3, STD 5 1 0 and RUN 0 0 2 as one bundle at word 0, or with other words there, in its turn. -/
def bundled (ws : List Word := [0x00810600, 0x20A0D000, 0xF0000010]) (early : Bool := false) : State :=
  { demo { regs := scalars [own] } { code := (List.range ws.length).map fun n => (n, ws.getD n 0), between := false } with
    todo := [.control 2048 early] }
/-- The state on which its bundle of n words begins. -/
def begunAt (s : State) (n : Nat) : State :=
  { s with todo := [], word := 0, cores := [(2048, { s.core 2048 with issPc := 0, npc := n, ncost := 1 })] }
/-- The core's turn has come, and no bundle is held there. -/
abbrev mayGo (s : State) (early : Bool) : Prop :=
  s.todo = [.control 2048 early] ∧ mayAct (s.region 1) (s.core 2048) 2048 = true ∧ mayIssue (s.region 1) (s.core 2048) = true ∧
    (s.core 2048).held = false ∧ (s.core 2048).seg = none
theorem witness_BundlesAreFetched :
    fetchBundle ((bundled).region 1).code 0 = some ([0x00810600, 0x20A0D000, 0xF0000010], 3) ∧
      fetchBundle ((bundled [0x9C800000, 5]).region 1).code 0 = some ([0x9C800000], 2) ∧ fetchBundle ((bundled).region 1).code 3 = none ∧
      (({} : Core).inHandler = false ∧ ({ inHandler := true } : Core).inHandler = true ∧ ({} : Region).fwAt ≤ ({} : Core).pc ∧
        ({} : Core).pc < ({} : Region).fwAt + Config.handlerLen) := by decide
theorem witness_BundlesIssueTogether :
    let s := bundled
    let e := bundled [0x00810600, 0x20A0D000, 0xF0000010] true
    let u := bundled [0x80000020]
    let v := bundled [0x00810600, 0x80810600]
    let ps := fun (s : State) => planWords ([0x00810600, 0x20A0D000, 0xF0000010].map (decodeAt (s.region 1).code 0)) (begunAt s 3)
    (mayGo s false ∧ allAct (ps s) = true) ∧ (mayGo e true ∧ (wordsAt (e.region 1) (e.core 2048)).any actsFirst = true ∧ allAct (ps e) = true) ∧
      (mayGo u false ∧ fetchBundle (u.region 1).code 0 = some ([0x80000020], 1) ∧ (decodeAt (u.region 1).code 0 0x80000020).toOption = none) ∧
      (mayGo v false ∧ fetchBundle (v.region 1).code 0 = none) := by decide +kernel
theorem witness_WordsPlanOnTheirBundlesState :
    let ws : List (Except DecodeError Instr) := [.ok (.tst 3 2 2), .ok (.run 0 0 2)]
    let b := begunAt (bundled) 2
    let b' := { begunAt (bundled) 2 with todo := [.control 2048 false] }
    (ws.map Except.toOption = [some (.tst 3 2 2), some (.run 0 0 2)] ∧ afterEngines (.tst 3 2 2) = true ∧ afterEngines (.run 0 0 2) = false) ∧
      ((planInOrder ws b).flatMap (Plan.placements b.cur)).isEmpty = false ∧
      (b'.enginesToCome = true ∧ b.enginesToCome = false ∧ ((planInOrder [.ok (.tst 3 2 2)] b).flatMap (Plan.placements b.cur)).isEmpty = true) := by
  decide +kernel
/-- VX with a full queue of VADD entries, the first of them running its only step in this cycle. -/
def fullVx : State :=
  { demo { vx := { queue := List.replicate 32 ⟨0, 0, 1, 0, none, none, none, false, 0, some 0xC0000000, false⟩, running := true } } with
    todo := [.control 2048 false] }
theorem witness_FullQueuesMakeRoom :
    let ws : List (Except DecodeError Instr) := [.ok (.vadd 3 1 2 0)]
    let b := fullVx
    b.enginesToCome = true ∧ allAct (planWordsOn ws b b) = false ∧ allAct (planWordsOn ws b.roomy b) = true ∧
      Machine.fits b (planWordsOn ws b.roomy b) = true := by decide +kernel
theorem witness_FloatingSumsForm :
    let s := demo { fmt := formats } {} (.engine 0)
    let e := entryWord s 1
    Runs s (mmaStep s 0 1 2 1 1 0) 0 0 ∧ e / 2 ^ 28 % 16 ≠ 0 ∧ e / 2 ^ 18 % 4 = 1 ∧
      min s.rr.fidmax (min (e / 2 ^ 16 % 4) ((s.cc.csr 0x013).toNat % 4)) = 0 := by simp only [runs_iff]; decide +kernel
theorem witness_FloatingSumsLand :
    let sums : List (Nat × Nat × Int × Int × Bool × Nat) := [(0, 0, 16455, -6, false, 0), (1, 0, -1, 463, false, 0), (2, 0, 0, 0, false, 0), (255, 3, 0, 0, false, 0)]
    0 < 25 ∧ 25 ≤ 48 ∧ (∀ q ∈ sums, q.1 < 256 ∧ q.2.1 ≤ 3 ∧ q.2.2.2.2.1 = false) ∧ (sums.map Prod.fst).Nodup ∧ 1 ∈ sums.map Prod.fst ∧
      3 ∉ sums.map Prod.fst := by decide
theorem witness_DrainsRound :
    let at_ := fun (e : Word) => e.toNat / 2 ^ 20 % 16
    let el : AccElem := { spec := 0, exp := 0x3E3, win := 0x002023800000 }
    (15 < 16 ∧ at_ 0x00400000 = 4 ∧ (4 : Nat) ≤ 5) ∧ (at_ 0x00700000 = 7 ∧ (3 : BitVec 3).toNat < 4) ∧
      (el.spec = 0 ∧ el.win.toInt ≠ 0 ∧ el.exp.toInt < 0 ∧ decodeElem 6 0x43808E00 = .fin false 8424960 (-15) ∧
        el.win.toInt = 8424960 * 2 ^ 14 ∧ el.exp.toInt = -15 - 14) := by decide +kernel
theorem witness_TimedCopiesCredit :
    let f := fun late => { inFlight late none with credits := [(2048, 1)], sb := 3 }
    let s := demo {} { copies := [f false] }
    let t := demo {} { copies := [f true] }
    (s.rr.copy s.cur 9 = some (f false) ∧ s.rr.linkLate (f false) = false ∧ (f false).credits ≠ []) ∧
      t.rr.copy t.cur 9 = some (f true) ∧ (f true).late = true := by decide
theorem witness_StagedAddsApply :
    let cell := (List.range 16).map fun i => (⟨i, 16 + i, 0⟩ : StByte)
    let s := demo {} { released := [⟨.acell, [⟨31, 31, 127⟩], 0, false⟩, ⟨.afadd 0x3F800000, cell, 0, false⟩, ⟨.mark, [], 0, false⟩, ⟨.store, [⟨0, 0, 1⟩], 0, false⟩] }
    s.rr.released.map StEntry.kind = [.acell, .afadd 0x3F800000, .mark, .store] ∧ cell.map StByte.key = (List.range 16).map (16 + ·) ∧
      s.peerDown 0 = false ∧ (s.rr.released.drop 3).flatMap StEntry.bytes = [⟨0, 0, 1⟩] := by decide
/-- The demo machine booted, at a commit with a swap pending: its core offers the region's descriptor 0, or nothing, or has ended. -/
def committing (c : Core) : State :=
  { demo c { w := 1, h := 1, swapPend := true, live := [⟨2, 1, 0x80, [(64, 128)]⟩]
             agenda := [({ due := 9 }, .land 2048 [.orFlags 8])] } with booted := true }
theorem witness_SavesAtACommit :
    let s := committing { safept := some 0, levels := [level0] }
    let t := committing {}
    let u := committing { safept := some 0, ended := true }
    (s.booted = true ∧ s.rr.ctx = s.ctx ∧ s.rr.swapPend = true ∧ s.commitFull s.ctx = []) ∧ s.rr.ids = [2048] ∧
      ((committed s.rr (s.core 2048)).ended = false ∧ (s.core 2048).safept = some 0 ∧ Nat.testBit 8 3 = true ∧
        s.rr.agenda = [({ due := 9 }, .land 2048 [.orFlags 8])]) ∧
      ((committed t.rr (t.core 2048)).ended = false ∧ (t.core 2048).safept = none) ∧ (committed u.rr (u.core 2048)).ended = true := by
  decide +kernel
/-- Handle 0 open with its table at 0, whose level-1 table stands at 0x30000, in its host command's turn. The command block is at 0x1000
and what it points to at 0x2000. -/
def commanded (op va pa attr : Nat) (more : SMap Byte := []) (r : Region := {}) : State :=
  { demo {} r with
    todo := [.due], agenda := [(0, .hcmd 0 op 0x1000)], handles := [(0, { st := 1 })], hbmNext := 0x40000, lpdNext := 0x10000
    mem := [(0, 0x20), (7, 0x80), (0x1000, BitVec.ofNat 8 op)] ++ ((List.range 8).map fun i => (0x1008 + i, BitVec.ofNat 8 (va / 256 ^ i))) ++
      ((List.range 8).map fun i => (0x1010 + i, BitVec.ofNat 8 (pa / 256 ^ i))) ++
      ((List.range 8).map fun i => (0x1018 + i, BitVec.ofNat 8 (attr / 256 ^ i))) ++ more }
/-- The pointers of the table at 0x20000 to 0x30000 and on to 0x50000. -/
def pointers : SMap Byte := [(0x20000, 0x30), (0x20007, 0x80), (0x30000, 0x50), (0x30007, 0x80)]
/-- The attributes of a 64 KiB page of HBM that a core may read and write. -/
def attrs : Nat := 0xCA04000000000000
theorem witness_HostCommandsRun :
    let m := commanded 1 0x10000 0x70000 attrs pointers
    let k := SMap.get ({} : Handle) m.handles 0
    let pte := attrs + 0x70
    let points := fun a b => pteV (entryAt m a) = true ∧ pteLeaf (entryAt m a) = 0 ∧ pteFrame (entryAt m a) = b
    let u := commanded 2 0x10000 0 0 (pointers ++ [(0x50008, 0x70), (0x5000E, 0x04), (0x5000F, 0xCA)])
    let a := commanded 3 0x10000 0 attrs pointers
    (m.todo = [.due] ∧ m.agenda = [(0, .hcmd 0 1 0x1000)] ∧ 0 ≤ m.now ∧ m.hbmNext ≤ 2 ^ 39 ∧ 0x1000 + 32 ≤ 2 ^ 39 ∧ k.st = 1 ∧ k.closing = false ∧
      ∀ i, i < 32 → m.memErr (0x1000 + i) = false) ∧
      (blockWord m 0x1000 1 = 0x10000 ∧ blockWord m 0x1000 2 = 0x70000 ∧ blockWord m 0x1000 3 = attrs ∧ mappable pte 0x10000 0 ∧
        m.walkFrom 0x10000 3 0 = none ∧ m.nodeHeld 0x70000 65536 = false ∧ m.rangeLocked 0 0x10000 65536 = false ∧ m.memOwner = []) ∧
      (points (0 + slot 0x10000 3) 0x20000 ∧ points (0x20000 + slot 0x10000 2) 0x30000 ∧ points (0x30000 + slot 0x10000 1) 0x50000) ∧
      (u.walkFrom 0x10000 3 0 = some (attrs + 0x70, 0) ∧ 0x10000 % pageSize 0 = 0) ∧
      (pteTier attrs < 2 ∧ mappable attrs 0x10000 0 ∧ a.walkFrom 0x10000 3 0 = none ∧ 0x40000 + 65536 ≤ tierSize 0) := by
  simp only [mappable]; decide +kernel
theorem witness_HostCommandsFail :
    let x := commanded 4 0 0x2000 0
    let f := { x with handles := [(0, { st := 1, keys := [1, 2, 3, 4] })] }
    let c := { x with handles := [(0, { st := 1, closing := true })] }
    let l := { commanded 2 0x10000 0 0 (pointers ++ [(0x50008, 0x70), (0x5000E, 0x04), (0x5000F, 0xCA)]) with
      cores := [(2048, { tlb := [⟨0x10000, 65536, 1, attrs + 0x70, true⟩] })] }
    let b := commanded 1 0x10800 0x70800 attrs
    ((SMap.get ({} : Handle) x.handles 0).keys.length < 4 ∧ (List.range 132).all (fun i => !x.memErr (0x2000 + i)) = true) ∧
      4 ≤ (SMap.get ({} : Handle) f.handles 0).keys.length ∧ (SMap.get ({} : Handle) c.handles 0).closing = true ∧
      (blockWord l 0x1000 1 = 0x10000 ∧ l.rangeLocked 0 0x10000 65536 = true) ∧ 0x70800 % 4096 ≠ 0 ∧ b.walkFrom 0x10800 3 0 = none := by
  decide +kernel
/-- A load in flight to byte 8 of peer 5, and to a byte of HBM. -/
def farKey : Nat := 3 * 2 ^ 51 + 5 * 2 ^ 43 + 8
theorem witness_RoutesLoseTheirAccesses :
    let u : Untimed := { load5 with parts := [⟨0, [farKey], 2, none⟩, ⟨1, [9], 2, none⟩] }
    let s := { demo { untimed := [u] } { w := 1, h := 1, released := [⟨.store, [⟨0, farKey, 1⟩, ⟨0, 9, 1⟩], 0, false⟩] } with routes := [(5, 3)] }
    State.Inv s ∧ 5 < 256 ∧ (overRoute 5 farKey ∧ ¬ overRoute 5 9 ∧ ¬ overRoute 6 farKey) ∧ (s.rr.ids = [2048] ∧ 2049 ∉ s.rr.ids) := by
  simp only [State.Inv, State.tabled, overRoute]; decide

/-! ## Checks of whole-tile and matrix steps, floating values, walks, commands and routes -/

theorem witness_WholeTileStepChecks :
    let p : EStep := { reads := [1], sides := [1], dst := some 3, occ := 18, land := 25, fullAt := 25, readEnd := 8 }
    let s := demo { tileTag := [(1, 3)], clocks := clocks3 } {} (.engine 1)
    let u := demo { csrs := [(0x019, 0x8)] } {} (.engine 1)
    let w := demo { csrs := [(0x019, 0x8)], vx := timedVx } {} (.engine 1)
    let e := demo { sideBad := [(1, 1)] } {} (.engine 1)
    let q : EStep := { scal := [1, 2], dst := some 3, rdDst := true, land := 2 }
    let g := demo { regs := [(1, ⟨0, 1, false⟩)], tileTag := [(3, 2)], clocks := clocks3 } {} (.engine 1)
    (wholeTable s (.vtrn 3 1) = some p ∧ wholeTable g (.vput 3 1 98) = some q) ∧ (s.cc.common (p.allTags s.cc) = some 3 ∧ s.cc.present 3 = false ∧ p.ready = true ∧ p.legal = true) ∧
      (p.blockedBy u.cc = some 1 ∧ u.cc.common (p.allTags u.cc) = some 0 ∧ u.cc.present 0 = true ∧ u.timed = false) ∧
      (p.blockedBy w.cc = some 1 ∧ w.timed = true ∧ w.cc.present 0 = true ∧ w.rr.phase ≠ .stopping) ∧
      ((p.sides.any fun t => e.cc.sideErr t ≠ 0) = true ∧ p.blockedBy e.cc = none ∧ e.cc.present 0 = true) ∧
      (g.cc.common (q.allTags g.cc) = none ∧ q.blockedBy g.cc = none) := ⟨⟨rfl, rfl⟩, by decide⟩
theorem witness_MatrixStepChecks :
    let p : EStep := { scal := [1], legal := false, occ := 1, land := 1 }
    let s := demo { regs := scalars [1] } {} (.engine 0)
    let n := demo { pendAcc := [(0, 9)], fmt := formats } {} (.engine 0)
    let t := demo { pendAcc := [(0, 9)], fmt := formats, mx := timedVx } {} (.engine 0)
    let d := fun (x : State) => (matrixTable x (.mdrn 0 2 0 1)).map Prod.fst
    let c := demo { accTag := [(0, 1)], tileTag := [(2, 2)], clocks := clocks3, fmt := formats } {} (.engine 0)
    let b := demo { csrs := [(0x019, 0x4)], fmt := formats } {} (.engine 0)
    let g := demo { regs := [(1, ⟨0, 2, false⟩)] } {} (.engine 0)
    matrixTable s (.mfmt 0 1) = some (p, s.cc) ∧ (s.cc.common (p.allTags s.cc) = some 0 ∧ p.legal = false ∧ p.blockedBy s.cc = none) ∧
      ((d n).map (fun q => (q.ready, q.obj)) = some (false, 0) ∧ n.timed = false) ∧ ((d t).map EStep.ready = some false ∧ t.timed = true) ∧
      (d c).map (fun q => (q.ready, c.cc.common (q.allTags c.cc), q.blockedBy c.cc)) = some (true, none, none) ∧
      (matrixTable b (.mldb 1 2 1 1 0)).map (fun q => (q.1.ready, q.1.blockedBy b.cc)) = some (true, some 1) ∧
      ¬ (g.tag 1 = 0 ∨ g.tag 1 = 1) ∧ g.rr.phase ≠ .stopping := ⟨rfl, by decide +kernel⟩
theorem witness_FloatElements :
    floatWord (.vfma 3 1 98 2) = some (3, 1, 98, 2) ∧ floatWord (.vflog2 3 1 0) = some (3, 1, 1, 0) ∧ (2 : BitVec 2) ≠ 3 ∧ 15 < 16 := by decide
/-- Values of R119's special cases, and 1/3, the root of 1/2, 2^0.5 and log2 3 beside the values that they round. -/
theorem witness_FloatValues :
    sums (.inf false) (.inf true) .nan 8 ∧ products (.inf true) (.fin false 0 0) .nan 8 ∧ recips (.fin true 0 0) (.inf true) ∧
      recips (.fin false 2 0) (.fin false (2 ^ 128) (-129)) ∧ recipRoots (.fin true 1 0) .nan 8 ∧ powers (.fin false 3 0) (.fin false 1 3) ∧
      logs (.fin false 1 3) (.fin false 3 0) 0 ∧ rowTop [.fin true 0 0, .fin false 0 0] (.fin false 0 0) := by
  refine ⟨⟨rfl, rfl⟩, ⟨rfl, rfl⟩, rfl, ⟨2 ^ 128, -129, by decide⟩, ⟨rfl, rfl⟩, ⟨fun i h => ?_, fun i h k => ?_⟩, ?_, ?_⟩
  · have e : i = 3 := by simpa [whole] using h.symm
    simp [e]
  · simp [whole] at h k; omega
  · exact ⟨rfl, fun _ => by decide, fun h => absurd (by decide) h⟩
  · simp [rowTop, before, less, whole, Claim.isZero, FVal.sign]
theorem witness_ConversionsRound :
    (3 : Nat) < 4 ∧ 1 ∈ [1, 2, 3, 4, 5, 6, 9, 10] ∧ 11 ∈ [0, 7, 8, 11] ∧ rounds 0 false 5 (-1) 2 ∧ ¬ isExact 5 (-1) 2 ∧ isExact 4 (-1) 2 ∧
      less (.fin false (largest 3).1 (largest 3).2) (.fin false 4 1) ∧ ¬ less (.fin false (largest 1).1 (largest 1).2) (.fin false 14 5) ∧
      (-(8 : Int) < -2 ^ (3 - 1) ∧ (4 : Int) ≥ 2 ^ (3 - 1)) := by
  simp [rounds, isExact, less, whole, largest]
theorem witness_ConversionElements :
    let f := fun (v : Nat) => ((v : Nat) / 4096 % 16, v / 256 % 16, v / 32 % 8)
    (f 0x3001).1 = 3 ∧ (0x3001 % 2 = 1 ∧ (6 : BitVec 4) ≤ 8) ∧ (f 0x9020 = (9, 0, 1)) ∧ (f 0x63A0 = (6, 3, 5)) ∧
      (0 : BitVec 4) ≤ 8 ∧ (f 0x1000).1 = 1 ∧ (1 : BitVec 1) = 1 := by decide
theorem witness_ComparesAndMovesLand :
    (8 * 2 ^ (0x08 / 8 % 4) = 16 ∧ 0x08 / 2 % 4 ≠ 3) ∧ (16 : Nat) ≠ 8 ∧ 127 < 2048 / 16 ∧ 7 < 2048 / 16 / 16 := by decide
/-- A copy whose stamp is in the scratchpad, its payload paid, or not yet. -/
def stamping (paid : Bool) : State :=
  demo {} { copies := [{ inFlight false none with paid := paid, stampTo := spLocs 2048 0x4FFF8 8 }] }
theorem witness_SequenceStampsPerform :
    let c := fun p => (stamping p).rr.copy (stamping p).cur 9
    ((c true).map fun c => (c.paid, c.lost, c.nodeRec)) = some (true, false, none) ∧ (c true).map Copy.stampTo = some (spLocs 2048 0x4FFF8 8) ∧
      (c false).map Copy.paid = some false := by decide
theorem witness_NoRecordsWhileStamping (p : Bool) (id : Nat) : ((stamping p).core id).undo = [] := by
  by_cases e : 2048 = id <;> simp [stamping, demo, State.core, SMap.get, e]
theorem witness_TagTableClock :
    let s := demo { regs := mixed, clocks := clocks3 }
    tagTable s (.tagrd 1 3) = some (8, 1, [3], s.val 3, 0) ∧ s.actor = .control ∧ s.cc.common ([3].map fun r => (s.cc.reg r).tag) = some (s.tag 3) ∧
      s.cc.present (s.tag 3) = false := by decide
theorem witness_MissedTranslations :
    let s := { walking [] with cores := [(2048, { pc := 1, held := true })] }
    let l := { walking [] with cores := [(2048, { pc := 1, waits := [⟨.tlblk 0 65536, 0, none⟩] })] }
    let c := walking [] 2
    ((s.core 2048).waits = [] ∧ (s.core 2048).held = true ∧ s.walk 1 0 = none ∧ ((SMap.get [] s.dieTlb 0).find? fun e => e.covers 1 0) = none) ∧
      ((l.core 2048).waits.any fun k => decide (k.kind = .tlblk 0 65536)) = true ∧
      ((c.region 1).closed = false ∧ c.walks.map Walk.waiters = [[(2048, 2, 8)]] ∧ c.walk 1 0 = none) := by decide
theorem witness_NodesOfClosingHandles :
    let s := { killedIn (node 2 []) .drained with handles := [(0, { st := 1, closing := true })] }
    ((killedIn (node 2 []) .drained).graphs.map Graph.gid).Nodup ∧ (SMap.get ({} : Handle) (killedIn (node 2 []) .drained).handles 0).closing = false ∧
      (s.rr.exh = false ∧ (SMap.get ({} : Handle) s.handles s.rr.handle).closing = true) := by decide
theorem witness_NoContextLeft :
    65535 ≤ ({ demo with ctxBusy := List.range 65535 } : State).ctxBusy.length ∧ (demo).ctxBusy.length < 65535 := by simp [demo, State.reset]
theorem witness_KillsOfOthers :
    (SMap.get ({} : Handle) open63.handles 63).st = 1 ∧ (SMap.get ({} : Handle) open63.handles 63).closing = false ∧ 5 = (0xF0005 : DWord).toNat % 65536 ∧
      (open63.region 5).phase = .none ∧ (open63.region 1).handle ≠ 62 := by decide
theorem witness_FirmwareStatusReads : (demo).fwActive < 2 ∧ (demo).fwStatus < 4 := by decide
/-- As commanded, with room for tables from 0x60000 on. -/
def roomFor (op va pa attr : Nat) (more : SMap Byte) : State := { commanded op va pa attr more with hbmNext := 0x60000 }
theorem witness_WaysEnd : wayEnds (roomFor 1 0x10000 0x70000 attrs pointers) 0 0x10000 0 0 0x50008 ∧
    wayEnds (roomFor 1 0x10000 0x70000 attrs []) 0 0x10000 0 2 0x20000 := by
  refine ⟨⟨0x50000, ⟨0x30000, ⟨0x20000, ⟨0, rfl, ?_⟩, ?_⟩, ?_⟩, by decide⟩, ⟨0x20000, ⟨0, rfl, ?_⟩, ?_⟩⟩ <;> decide +kernel
/-- A page of 64 KiB taken out of one of 2 MiB at level 1. -/
theorem witness_PagesSplit :
    let s := roomFor 2 0x10000 0 attrs [(0x20000, 0x30), (0x20007, 0x80), (0x30001, 0x02), (0x30006, 0x08), (0x30007, 0xCA)]
    (pteLeaf (blockWord s 0x1000 3) = 1 ∧ pteV (s.entryFrom 0x10000 0 3 0) = true ∧ s.rangeLocked 0 0x10000 65536 = false) ∧
      (s.walkFrom 0x10000 3 0).map Prod.snd = some 1 ∧ (entryAt s 0 = 2 ^ 63 + 0x20 ∧ entryAt s 0x20000 = 2 ^ 63 + 0x30) := by decide +kernel
theorem witness_AtomicFlits :
    let s := { updating true with mem := [(0, 7)] }
    let p := SMap.get ({} : Port) s.ports 17
    (9 < 10 ∧ 4095 % 4096 = p.expect ∧ (0 : Nat) = s.modNo ∧ 0x0101 ≤ p.version ∧ 0 % 8 = 0 ∧ 0 + 8 ≤ 2 ^ 39) ∧
      (∀ i, i < 8 → s.byte (0 + i) = BitVec.ofNat 8 ((7 : DWord).toNat / 256 ^ i)) ∧
      (5 + 2 ^ 64 * 7 = (5 : DWord).toNat + 2 ^ 64 * (7 : DWord).toNat) := by decide +kernel
theorem witness_RoutesStay :
    let s := { updating true with routes := [(3, 18)] }
    (∀ p ∈ s.routes, p.2 = 17 + 1 → (SMap.get ({} : Port) s.ports 17).up = true → (SMap.get ({} : Port) s.ports 17).up = true) ∧
      (∀ p ∈ s.routes, p.1 = 3 → s.routeUp 3 = true → (18 ≠ 0 ∧ (SMap.get ({} : Port) s.ports 17).up = true)) ∧ s.routeUp 3 = true := by decide
theorem witness_RoutesGoDown :
    let s := { updating true with routes := [(5, 18)] }
    goesDown s 5 (.routeDown 5) ∧ goesDown s 5 (.routingTableWrite 5 255) ∧ goesDown s 5 (.linkTraining 17 0x0200 0x0300) := by
  refine ⟨.inl rfl, .inr (.inl ⟨255, rfl, by decide⟩), .inr (.inr ⟨17, 0x0200, 0x0300, rfl, by decide, by decide, by decide, by decide, fun q => ?_⟩)⟩
  by_cases e : 5 = q <;> simp [SMap.get, e] <;> omega

end Sys2Proof.Tests
end

section
/-! SUPPORT. Proofs on the machine state as a whole: a step is a list of primitive updates, which keep its form; reset; what falls due. -/

namespace Sys2Proof.Machine

/-! ## A step is a list of primitive updates -/

/-- Every instruction and every event answers with a list of primitive updates: a word's plan, or an event's own. -/
theorem exec_eq_applyAll (i : Instr) (s : State) : ∃ l, exec i s = .next (s.applyAll l) := by
  cases i <;> exact ⟨_, rfl⟩

/-- A step is a list of primitive updates: those of its turn, and those of the instruction that the turn runs. -/
theorem step_eq_applyAll (s : State) : ∃ l, step s = .next (s.applyAll l) := by
  unfold step
  cases s.doing with
  | acts l => exact ⟨l, rfl⟩
  | run l i =>
    obtain ⟨m, hm⟩ := exec_eq_applyAll i (s.applyAll l)
    exact ⟨l ++ m, by rw [State.applyAll_append]; exact hm⟩

/-- Settles O44: every step is a list of primitive updates, and each of these keeps the form. -/
theorem everyStepKeepsTheForm : Obligations.EveryStepKeepsTheForm := by
  intro s t hs hstep
  obtain ⟨l, hl⟩ := step_eq_applyAll s
  have ht : s.applyAll l = t := Host.Outcome.next.inj (hl.symm.trans hstep)
  exact ht ▸ State.applyAll_inv l hs

/-! ## Reset -/

/-- The empty machine of reset is canonical throughout. -/
theorem State.reset_inv : State.reset.Inv := ⟨rfl, rfl, rfl, fun _ hp => absurd hp List.not_mem_nil, rfl, rfl, rfl⟩

/-- The first step of reset takes the one input that it holds, which is Dawn. -/
theorem step_reset : step State.reset = exec .dawn (State.reset.applyAll [.pkg (.inputs []), .pkg (.cur 0 .control)]) := rfl

/-- Settles O45: reset is a literal, so its fields and its first step are read off it. -/
theorem resetState : Obligations.ResetState :=
  ⟨State.reset_inv, rfl, rfl, rfl, rfl, rfl, rfl, rfl, rfl, rfl, rfl, fun _ => rfl, _, step_reset, rfl, rfl, rfl⟩

/-! ## Landings -/

/-- A region whose due landing writes a row of a tile, in which a single-bit error stands (R221). -/
def landingOnSoftError : State :=
  { State.reset with
    todo := [.agenda 1]
    regions := [(1, { phase := .run, ctx := 1, agenda := [({ due := 0 }, .land 2048 [.row 5 0 1 0])] })]
    soft := [{ die := 0, kind := 1, core := 0, word := 17 * 5 * 32 }] }

/-- The landing rewrites the word whole, so the error that stood in it is gone with the step (R221). -/
theorem step_landingOnSoftError : ∃ t, step landingOnSoftError = .next t ∧ t.soft = [] := ⟨_, rfl, by decide +kernel⟩

/-- Refutes O46: a landing that writes a row in which a single-bit error stands also drops the error from the package's list of standing
errors (R221), and may journal it, so more than cores and regions change. The claim on scalar landings is not at fault. -/
theorem not_landingsWriteTheirRegisters : ¬ Obligations.LandingsWriteTheirRegisters := by
  intro h
  obtain ⟨hcore, -⟩ := h
  obtain ⟨t, hstep, hrest, -⟩ := hcore landingOnSoftError [] 1 2048 { due := 0 } [.row 5 0 1 0] [] rfl rfl rfl (Nat.le_refl 0)
  obtain ⟨u, hu, hsoft⟩ := step_landingOnSoftError
  have htu : t = u := Host.Outcome.next.inj (hstep.symm.trans hu)
  have hkept : t.soft = landingOnSoftError.soft := by rw [hrest]
  rw [htu, hsoft] at hkept
  exact absurd hkept (by decide)

end Sys2Proof.Machine
end

section
/-! SUPPORT. The clock and delay words: what each plans, case by case, and the one landing that each puts into the agenda. -/

namespace Sys2Proof.Machine

open Sys2Proof.Claim hiding fits

/-- A word that puts one thing into the agenda and does nothing else issues with that entry, the core as its stream leaves it. -/
theorem exec_schedules_one {i : Instr} {s : State} (hc : s.actor = .control) (e : Key × Item)
    (he : exec i s = resolve s (.acts [.reg s.ctx (.sched e.1 e.2)])) : ∃ t, exec i s = .next t ∧ Issued s t s.cc [e] :=
  exec_issues [.reg s.ctx (.sched e.1 e.2)] hc he fun a ha => by rw [List.mem_singleton.mp ha]; rfl

/-! ## Tags and clocks -/

theorem tagOn_eq_true_iff (s : State) (tg k : Tag) : tagOn s.cc tg k = true ↔ Claim.fits s tg k := by
  simp [tagOn, Claim.fits, isDefined, Core.defined]
theorem Core.defined_eq_true_iff (s : State) (k : Tag) : s.cc.defined k = true ↔ isDefined s k := Iff.rfl
theorem Core.defined_eq_false_iff (s : State) (k : Tag) : s.cc.defined k = false ↔ ¬ isDefined s k := by
  rw [← Core.defined_eq_true_iff, Bool.not_eq_true]
theorem Core.present_eq_true_iff (s : State) (k : Tag) : s.cc.present k = true ↔ isPresent s k := by
  simp [Core.present, isPresent, isDefined]
/-- Of a defined clock only its own presence counts. -/
theorem Core.present_of_defined {s : State} {k : Tag} (h : isDefined s k) : s.cc.present k = (s.cc.clock k.toNat).present := by
  unfold isDefined at h; simp only [Core.present, h, Bool.true_and]

/-! ## CKDEF and CKNEG (R81, R82) -/

section
variable {s : State} {n : BitVec 6} {a : BitVec 7} {k x : BitVec 4}

theorem planCkdef_fixed (hx : x.toNat < 2) : planCkdef n a k x s = s.trap ILLEGAL := if_pos hx
theorem planCkneg_fixed (h : x.toNat < 2 ∨ k.toNat < 2) : planCkneg k x s = s.trap ILLEGAL := if_pos h
theorem planCkdef_again (hx : 2 ≤ x.toNat) (hd : isDefined s x) : planCkdef n a k x s = s.trap CLOCK := by
  have hd : s.cc.defined x = true := hd
  simp only [planCkdef, Nat.not_lt.mpr hx, hd, Bool.or_true, Bool.true_or, if_true, if_false]
theorem planCkneg_again (hx : 2 ≤ x.toNat) (hk : 2 ≤ k.toNat) (hd : isDefined s x) : planCkneg k x s = s.trap CLOCK := by
  have hd : s.cc.defined x = true := hd
  simp only [planCkneg, Nat.not_lt.mpr hx, Nat.not_lt.mpr hk, hd, Bool.or_true, Bool.true_or, or_self, if_true, if_false]
theorem planCkdef_ok (hx : 2 ≤ x.toNat) (hk : isDefined s k) (hd : ¬ isDefined s x) (ht : Claim.fits s (s.tag a.toNat) k)
    (hb : s.bad a.toNat = false) : planCkdef n a k x s = .acts [s.defines [.clock x.toNat
      ⟨true, (s.cc.clock k.toNat).present && (s.val a.toNat).getLsbD n.toNat, k, 0, false, false⟩]] := by
  rw [← tagOn_eq_true_iff] at ht
  rw [← Core.defined_eq_false_iff] at hd
  rw [← Core.present_of_defined hk]
  rw [← Core.defined_eq_true_iff] at hk
  simp only [planCkdef, Nat.not_lt.mpr hx, hk, hd, ht, hb, Bool.not_true, Bool.or_false, Bool.false_eq_true, if_false]
theorem planCkneg_ok (hx : 2 ≤ x.toNat) (hk : 2 ≤ k.toNat) (hdk : isDefined s k) (hd : ¬ isDefined s x)
    (hn : (s.cc.clock k.toNat).neg = false) (hp : (s.cc.clock k.toNat).pv = false) :
    planCkneg k x s = .acts [s.defines [.clock x.toNat
        ⟨true, s.cc.present (s.cc.clock k.toNat).parent && !(s.cc.clock k.toNat).present, (s.cc.clock k.toNat).parent, k, true, true⟩,
      .clock k.toNat { s.cc.clock k.toNat with partner := x, pv := true }]] := by
  rw [← Core.defined_eq_false_iff] at hd
  rw [← Core.present_of_defined hdk]
  unfold isDefined at hdk
  simp only [planCkneg, Nat.not_lt.mpr hx, Nat.not_lt.mpr hk, hdk, hd, hn, hp, or_self, Bool.not_true, Bool.or_false, Bool.false_eq_true,
    if_false]
end

/-- R14, R81, R82: each clause is one branch of the plan. -/
theorem clocksAreDefined : Claim.ClocksAreDefined := by
  intro s n a k x hc
  refine ⟨fun hx => ?_, fun h => ?_, fun hx hd => ?_, fun hx hk hd => ?_, fun hx hk hd ht hb => ?_, fun hx hk hdk hd hn hp => ?_⟩
  · exact exec_traps _ hc (congrArg (resolve s) (planCkdef_fixed hx))
  · exact exec_traps _ hc (congrArg (resolve s) (planCkneg_fixed h))
  · exact exec_traps _ hc (congrArg (resolve s) (planCkdef_again hx hd))
  · exact exec_traps _ hc (congrArg (resolve s) (planCkneg_again hx hk hd))
  · exact exec_schedules_one hc _ (congrArg (resolve s) (planCkdef_ok hx hk hd ht hb))
  · exact exec_schedules_one hc _ (congrArg (resolve s) (planCkneg_ok hx hk hdk hd hn hp))

/-! ## Delay registers and the reads of clocks (R86 to R89) -/

section
variable {s : State} {d a : BitVec 7} {k x : BitVec 4}

theorem planDlyi_ok (ht : Claim.fits s (s.tag a.toNat) k) (hb : s.bad a.toNat = false) :
    planDlyi a k x s = .acts [s.lands 1 0 [.delayInit x.toNat (s.val a.toNat) k]] := by
  rw [← tagOn_eq_true_iff] at ht
  simp only [planDlyi, ht, hb, Bool.not_true, Bool.false_eq_true, if_false]
theorem planDlyr_ok (hp : isPresent s (SMap.get {} s.cc.delays x.toNat).clk) :
    planDlyr d x s = .acts [s.lands 1 0 [.reg d.toNat (SMap.get {} s.cc.delays x.toNat).committed (SMap.get {} s.cc.delays x.toNat).clk false]] := by
  have hd := (Core.defined_eq_true_iff s _).mpr hp.1
  have hp := (Core.present_eq_true_iff s _).mpr hp
  simp only [planDlyr, hd, hp, Bool.not_true, Bool.false_eq_true, if_false]
theorem planDlyr_undefined (hd : ¬ isDefined s (SMap.get {} s.cc.delays x.toNat).clk) : planDlyr d x s = s.trap CLOCK := by
  have hd := (Core.defined_eq_false_iff s _).mpr hd
  simp only [planDlyr, hd, Bool.not_false, if_true]
theorem planDlyw_ok (hp : isPresent s (SMap.get {} s.cc.delays x.toNat).clk)
    (ht : Claim.fits s (s.tag a.toNat) (SMap.get {} s.cc.delays x.toNat).clk) (hb : s.bad a.toNat = false) :
    planDlyw a x s = .acts [s.lands 1 0 [.delayStage x.toNat (s.val a.toNat)]] := by
  have hd := (Core.defined_eq_true_iff s _).mpr hp.1
  have hp := (Core.present_eq_true_iff s _).mpr hp
  have ht := (tagOn_eq_true_iff s _ _).mpr ht
  simp only [planDlyw, hd, hp, ht, hb, Bool.not_true, Bool.or_self, Bool.false_eq_true, if_false]
end

/-- CKTST's two bits, as numbers and as words. -/
theorem testWord_eq (q : Clock) : BitVec.ofNat 64 ((if q.defined && q.present then 1 else 0) + (if q.defined then 2 else 0)) =
    ((if q.defined && q.present then 1 else 0) + if q.defined then 2 else 0 : DWord) := by
  cases q.defined <;> cases q.present <;> rfl

/-- Bits put side by side, as one number: the high ones times the size of the low ones. -/
theorem toNat_append_eq_add {m n : Nat} (x : BitVec m) (y : BitVec n) : (x ++ y).toNat = x.toNat * 2 ^ n + y.toNat := by
  rw [BitVec.toNat_append, ← Nat.shiftLeft_add_eq_or_of_lt y.isLt, Nat.shiftLeft_eq]

/-- CKSTAT's layout read as a number: each field at its bit (R89). -/
theorem clockWord_eq (q : Clock) : clockWord q = if q.defined then BitVec.ofNat 64 (1 + (if q.present then 2 else 0) + 4 * q.parent.toNat +
    (if q.pv then 64 else 0) + (if q.pv then 128 * q.partner.toNat else 0) + if q.neg then 2048 else 0) else 0 := by
  obtain ⟨defined, present, parent, partner, pv, neg⟩ := q
  cases defined with
  | false => rfl
  | true =>
    apply BitVec.eq_of_toNat_eq
    have hp := parent.isLt
    have hq := partner.isLt
    simp only [clockWord, Bool.not_true, Bool.false_eq_true, if_false, if_true, toNat_append_eq_add, BitVec.toNat_ofBool, BitVec.toNat_ofNat]
    cases pv <;> cases present <;> cases neg <;> simp <;> omega

/-- R86 to R89: each clause is one branch of the plan. -/
theorem delaysAndClockReadsLand : Claim.DelaysAndClockReadsLand := by
  intro s d a k x hc
  refine ⟨fun ht hb => ?_, fun hp => ?_, fun hp ht hb => ?_, fun hd => ?_, ?_, ?_⟩
  · exact exec_schedules_one hc _ (congrArg (resolve s) (planDlyi_ok ht hb))
  · exact exec_schedules_one hc _ (congrArg (resolve s) (planDlyr_ok hp))
  · exact exec_schedules_one hc _ (congrArg (resolve s) (planDlyw_ok hp ht hb))
  · exact exec_traps _ hc (congrArg (resolve s) (planDlyr_undefined hd))
  · rw [← testWord_eq]
    exact exec_schedules_one hc _ rfl
  · rw [← clockWord_eq]
    exact exec_schedules_one hc _ rfl

/-- Settles O14: the clock words and the delay words, each by the branches of its plan. -/
theorem clockWordsLand : Obligations.ClockWordsLand := ⟨clocksAreDefined, delaysAndClockReadsLand⟩

end Sys2Proof.Machine
end

section
/-! SUPPORT. INSTANT_START: the region it leaves, its logical time, and what each live core takes up (R26, R286, R287). -/

namespace Sys2Proof.Machine

/-! ## Lists of updates that only note something -/

/-- Journal entries change the journal alone. -/
theorem applyAll_journal {α : Type} (l : List α) (die : α → Nat) (e : α → JEnt) : ∀ s : State,
    let t := s.applyAll (l.map fun x => .pkg (.journal (die x) (e x)))
    t = { s with journal := t.journal, jhead := t.jhead, jlost := t.jlost } := by
  induction l with
  | nil => exact fun _ => rfl
  | cons x l ih => exact fun s => (ih (s.journaled (die x) (e x))).trans rfl

/-! ## One core's start -/

/-- The new divisor of a unit, taken where one waits (R218). -/
def takeDivisor (c : Core) (u : Nat) : List CAct :=
  if SMap.get 0 c.divNext u = 0 then [] else [.div u (SMap.get 0 c.divNext u), .divNext u 0]

/-- Divisors after those that wait at the units of a list have been taken. -/
def takenDivisors (c : Core) (us : List Nat) (m : SMap Nat) : SMap Nat :=
  us.foldl (fun m u => if SMap.get 0 c.divNext u = 0 then m else SMap.set 1 m u (SMap.get 0 c.divNext u)) m

/-- Taking divisors changes the divisors alone. -/
theorem takeDivisors_foldl (c : Core) (us : List Nat) : ∀ d : Core,
    ∃ m, (us.flatMap (takeDivisor c)).foldl CAct.apply d = { d with div := takenDivisors c us d.div, divNext := m } := by
  induction us with
  | nil => exact fun d => ⟨d.divNext, rfl⟩
  | cons u us ih =>
    intro d
    rw [List.flatMap_cons, List.foldl_append, takenDivisors, List.foldl_cons, takeDivisor]
    split
    · exact ih d
    · exact ih _

/-- A unit's divisor in a list of units without repeats: the one that waited for it, or the old one. -/
theorem get_takenDivisors (c : Core) (u : Nat) : ∀ (us : List Nat) (m : SMap Nat), us.Nodup →
    SMap.get 1 (takenDivisors c us m) u =
      if u ∈ us ∧ SMap.get 0 c.divNext u ≠ 0 then SMap.get 0 c.divNext u else SMap.get 1 m u := by
  intro us
  induction us with
  | nil => simp [takenDivisors]
  | cons v us ih =>
    intro m hn
    obtain ⟨hv, hn⟩ := List.nodup_cons.mp hn
    rw [takenDivisors, List.foldl_cons]
    refine (ih _ hn).trans ?_
    by_cases huv : u = v
    · subst huv
      by_cases h0 : SMap.get 0 c.divNext u = 0 <;> simp [hv, h0]
    · have hget : ∀ m, SMap.get 1 (if SMap.get 0 c.divNext v = 0 then m else SMap.set 1 m v (SMap.get 0 c.divNext v)) u = SMap.get 1 m u :=
        fun m => by split; exacts [rfl, SMap.get_set_other _ _ huv _]
      simp [huv, hget]

/-- An engine without its pending attributes (R180). -/
def Engine.unattributed (g : Engine) : Engine := { g with aGuard := none, aWait := none, aSig := none }
/-- A core as a start leaves it but for its divisors (R26, R180, R317). -/
def begun (r : Region) (c : Core) : Core :=
  { c with clocks := [], delaySnap := c.delays, arrived := false, arrCyc := 0, safept := none, instPc := c.pc, nextAt := r.cyc
           mx := c.mx.unattributed, vx := c.vx.unattributed, cp := c.cp.unattributed }
/-- The updates of a core at a start but for its divisors. -/
def instantActs (r : Region) (c : Core) : List CAct :=
  [.clocksClear, .delaySnap, .arrived false 0, .safept none, .instPc c.pc, .nextAt r.cyc, .engAttr 0 none none none,
    .engAttr 1 none none none, .engAttr 2 none none none]

theorem startCore_eq (r : Region) (c : Core) : startCore r c = instantActs r c ++ [0, 1, 2, 3].flatMap (takeDivisor c) := rfl
theorem instantActs_foldl (r : Region) (c : Core) : (instantActs r c).foldl CAct.apply c = begun r c := by
  simp only [instantActs, List.foldl, CAct.apply_clocksClear, CAct.apply_delaySnap, CAct.apply_arrived, CAct.apply_safept,
    CAct.apply_instPc, CAct.apply_nextAt, CAct.apply_engAttr, Core.setEng, Core.eng, Nat.succ_ne_zero, Nat.succ_ne_self,
    if_true, if_false]
  rfl

/-- A core after its updates has begun the instant (R26, R180, R218, R317). -/
theorem startCore_begins (r : Region) (c : Core) : Claim.instantBegun r c ((startCore r c).foldl CAct.apply c) := by
  rw [startCore_eq, List.foldl_append, instantActs_foldl]
  obtain ⟨m, hm⟩ := takeDivisors_foldl c [0, 1, 2, 3] (begun r c)
  rw [hm]
  refine ⟨rfl, rfl, rfl, rfl, rfl, rfl, fun e he => ?_, fun u hu => ?_, rfl, rfl, rfl, rfl, rfl, rfl, rfl⟩
  · have : e = 0 ∨ e = 1 ∨ e = 2 := by omega
    rcases this with rfl | rfl | rfl <;> exact ⟨rfl, rfl, rfl, rfl⟩
  · have hmem : u ∈ [0, 1, 2, 3] := by simp; omega
    refine (get_takenDivisors c u [0, 1, 2, 3] c.div (by decide)).trans ?_
    by_cases h0 : SMap.get 0 c.divNext u = 0 <;> simp [hmem, h0, Core.divisor]

/-! ## The region's start -/

/-- The tick that a start takes: its logical time, and the index of the timer's next due time (R26, R286). -/
def startTick (s : State) : Nat × Nat := (s.tick s.ctx).getD (s.dtime, s.rr.nextDue)
/-- The values of the channels that the region reads, no later than a logical time (R287). -/
def startSnap (s : State) (t : Nat) : List (Nat × List ChVal) :=
  ((s.channels s.ctx).filter fun p => p.2.rnode = s.rr.node).map fun p => (p.1, p.2.vals.filter fun v => notLater v t s.ctx)
/-- The due times of a timer that have passed before its tick (R286). -/
def startMissed (s : State) : List Nat :=
  if s.rr.clkSrc = 3 then (List.range ((startTick s).2 - 1)).filter fun i => s.rr.nextDue ≤ i else []
/-- The latest value, as a tick, that the region has seen of its clock channel (R286). -/
def startSeen (s : State) : Nat := match s.chan s.ctx s.rr.clkCh with
  | some k => ((k.vals.filter fun v => notLater v (startTick s).1 s.ctx).map fun v => v.t + 1).foldl max s.rr.seen
  | none => s.rr.seen
/-- The region as a start leaves it, with the latest tick seen of its clock channel. -/
def startRegion (s : State) : Region :=
  { s.rr with ibase := s.rr.cyc, instant := s.rr.instant + 1, ltime := (startTick s).1, between := false, nextDue := (startTick s).2
              seen := startSeen s, chSnap := startSnap s (startTick s).1, qwaited := [], retried := false, commitDue := none }
/-- The region's graph, its SAMPLE channels without the values that no later start takes. -/
def startGraphs (s : State) : List Graph := match s.graphs.find? fun g => g.gid = s.rr.gid with
  | some g => [{ g with chans := g.chans.map fun k => if k.rnode = s.rr.node ∧ k.kind = 0 then
      { k with vals := k.vals.drop ((k.vals.filter fun v => notLater v (startTick s).1 s.ctx).length - 1) } else k }]
  | none => []

/-- A start notes the ticks that were missed, puts the region, updates its live cores, and puts its graph. -/
theorem evInstantStart_eq (s : State) : evInstantStart s =
    ((startMissed s).map fun i => .pkg (.journal (s.rr.dieidx 0) ⟨s.dtime, s.rr.instant, s.ctx, 9, 0, s.rr.d0 + s.rr.period * i⟩)) ++
      ((.reg s.ctx (.put (startRegion s)) :: (s.live s.rr).flatMap fun id => (startCore s.rr (s.core id)).map (.core id)) ++
      (startGraphs s).map fun g => .pkg (.graph g)) := by
  have hg : (startGraphs s).map (fun g => Act.pkg (.graph g)) = match s.graphs.find? fun g => g.gid = s.rr.gid with
      | some g => [.pkg (.graph { g with chans := g.chans.map fun k => if k.rnode = s.rr.node ∧ k.kind = 0 then
          { k with vals := k.vals.drop ((k.vals.filter fun v => notLater v (startTick s).1 s.ctx).length - 1) } else k })]
      | none => [] := by
    unfold startGraphs
    split <;> rfl
  rw [hg, evInstantStart]
  simp only [List.append_assoc, List.cons_append]
  rfl

/-- Graphs put change the graphs alone. -/
theorem applyAll_graphs (l : List Graph) : ∀ s : State,
    s.applyAll (l.map fun g => .pkg (.graph g)) = { s with graphs := (s.applyAll (l.map fun g => .pkg (.graph g))).graphs } := by
  induction l with
  | nil => exact fun _ => rfl
  | cons g l ih => exact fun s => (ih (GAct.apply s (.graph g))).trans rfl

/-- The state after a start: its region, its live cores, and the memory untouched. -/
theorem applyAll_evInstantStart (s : State) : let t := s.applyAll (evInstantStart s)
    t.mem = s.mem ∧ t.rr = startRegion s ∧
    ∀ id, t.core id = if id ∈ s.live s.rr then (startCore s.rr (s.core id)).foldl CAct.apply (s.core id) else s.core id := by
  rw [evInstantStart_eq, State.applyAll_append, State.applyAll_append]
  have hj := applyAll_journal (startMissed s) (fun _ => s.rr.dieidx 0)
    (fun i => ⟨s.dtime, s.rr.instant, s.ctx, 9, 0, s.rr.d0 + s.rr.period * i⟩) s
  generalize s.applyAll ((startMissed s).map _) = s1 at hj ⊢
  obtain ⟨ht, hr, -, hc⟩ := applyAll_region (s := s1) (ctx := s.ctx) (r := startRegion s) (a := .put (startRegion s))
    (fun id => startCore s.rr (s.core id)) rfl (s.live_nodup s.rr)
  generalize s1.applyAll (.reg s.ctx _ :: _) = s2 at ht hr hc ⊢
  have hg := applyAll_graphs (startGraphs s) s2
  generalize s2.applyAll ((startGraphs s).map _) = s3 at hg ⊢
  have hcur : s3.ctx = s.ctx := by rw [hg, ht, hj]; rfl
  refine ⟨by rw [hg, ht, hj], ?_, fun id => ?_⟩
  · unfold State.rr; rw [hcur, ← hr, hg]; rfl
  · have h1 : s1.core id = s.core id := by rw [hj]; rfl
    have h3 : s3.core id = s2.core id := by rw [hg]; rfl
    rw [h3, hc id, h1]

/-- A free base clock ticks at DTIME (R286). -/
theorem startTick_free {s : State} (h2 : s.rr.clkSrc ≠ 2) (h3 : s.rr.clkSrc ≠ 3) : (startTick s).1 = s.dtime := by
  unfold State.rr at h2 h3
  simp only [startTick, State.tick, h2, h3, if_false, Option.getD_some]

/-- A timer with a due time behind it ticks at its latest one (R286). -/
theorem startTick_timer {s : State} (h3 : s.rr.clkSrc = 3) (hp : 0 < s.rr.period) (hd : s.rr.d0 + s.rr.period * s.rr.nextDue ≤ s.dtime) :
    startTick s = (s.rr.d0 + s.rr.period * ((s.dtime - s.rr.d0) / s.rr.period), (s.dtime - s.rr.d0) / s.rr.period + 1) := by
  have hno : ¬ (s.rr.period = 0 ∨ s.dtime < s.rr.d0 + s.rr.period * s.rr.nextDue) := by omega
  unfold State.rr at h3 hno
  simp only [startTick, State.tick, h3, if_true, hno, if_false, Option.getD_some]
  rfl

/-- Settles O52: the start is one region put and one list of updates for each live core. -/
theorem instantsStart : Obligations.InstantsStart := by
  intro s
  obtain ⟨hmem, hrr, hcore⟩ := applyAll_evInstantStart s
  refine ⟨_, rfl, hmem, ?_, fun h2 h3 => ?_, fun h3 hp hd => ?_, ?_, fun id hid => ?_, fun id hid => ?_⟩
  · rw [hrr]; rfl
  · rw [hrr]; exact startTick_free h2 h3
  · have hle := Nat.mul_div_le (s.dtime - s.rr.d0) s.rr.period
    have hlt := Nat.lt_mul_div_succ (s.dtime - s.rr.d0) hp
    rw [hrr]
    refine ⟨(s.dtime - s.rr.d0) / s.rr.period, ?_, ?_, ?_, ?_⟩ <;> simp only [startRegion, startTick_timer h3 hp hd]
    · omega
    · rw [Nat.mul_add, Nat.mul_one] at hlt; omega
  · rw [hrr]; rfl
  · rw [hcore id, if_pos hid]; exact startCore_begins s.rr (s.core id)
  · rw [hcore id, if_neg hid]

end Sys2Proof.Machine
end

section
/-! SUPPORT. INSTANT_COMMIT: what a commit leaves of the region, its cores and its channels (R16, R27, R77, R201, R202, R287). -/

namespace Sys2Proof.Machine

/-! ## One core's commit -/

/-- The updates of a core at a commit. -/
def commitCore (r : Region) (c : Core) : List CAct :=
  [.delayCommit, .staging (c.staging.filter fun e => 0 < e.level), .chStagedClear, .chPopsClear] ++
    if c.kend && !c.ended then
      [.ended true, .kend false, .arrived true (r.cyc + 1), .tlb (c.tlb.map fun e => { e with locked := false })] else []

theorem commitCore_foldl (r : Region) (c : Core) : (commitCore r c).foldl CAct.apply c = Claim.committed r c := by
  unfold commitCore Claim.committed
  cases hk : c.kend <;> cases he : c.ended <;> simp [hk, he]

theorem committed_safept (r : Region) (c : Core) : (Claim.committed r c).safept = c.safept := by
  unfold Claim.committed; dsimp only; split <;> rfl

/-! ## The region's commit -/

/-- The region as a commit leaves it. When what it releases becomes visible is a free value. -/
def commitRegion (s : State) : Region :=
  { s.rr with
    between := true, commitDue := none, ltimeDone := s.rr.ltime, readyAt := s.rr.cyc + 1
    released := s.rr.released ++ Claim.outgoing s s.rr
    visibleAt := if Claim.outgoing s s.rr = [] then s.rr.visibleAt
      else max s.rr.visibleAt (s.now + 1 + s.free 0 Config.visibleBound) }
/-- The region's graph with the channels as a commit leaves them. -/
def commitGraphs (s : State) : List Graph := match s.graphs.find? fun g => g.gid = s.rr.gid with
  | some g => [commitChans s s.ctx g]
  | none => []
/-- The updates of a commit but for a save: channels, cores, the region, and the free value where writes are released. -/
def commitActs (s : State) : List Act :=
  (commitGraphs s).map (fun g => .pkg (.graph g)) ++ (s.rr.ids.flatMap fun id => (commitCore s.rr (s.core id)).map (.core id)) ++
    [.reg s.ctx (.put (commitRegion s))] ++ if Claim.outgoing s s.rr = [] then [] else [.pkg (.takeFree 1)]
/-- A swap is taken at this commit: one is pending, and every core that is left offers a safe point (R280). -/
def swapTaken (s m : State) : Bool :=
  s.rr.swapPend && !(m.live (m.region s.ctx)).isEmpty && (m.live (m.region s.ctx)).all fun id => (m.core id).safept.isSome

/-- A commit that would overfill a QUEUE does nothing (R201). -/
theorem evInstantCommit_full {s : State} (h : s.commitFull s.ctx ≠ []) : evInstantCommit s = [] := by
  have h : (s.commitFull s.ctx).isEmpty = false := by simpa using h
  simp only [evInstantCommit, h, Bool.not_false, if_true]

/-- A commit with room, of a package that has booted: its updates, and the save where a swap is taken. -/
theorem evInstantCommit_room {s : State} (h : s.commitFull s.ctx = []) (hb : s.booted = true) : evInstantCommit s =
    commitActs s ++ if swapTaken s (s.applyAll (commitActs s)) then saveRegion (s.applyAll (commitActs s)) s.ctx false else [] := by
  have hg : (commitGraphs s).map (fun g => Act.pkg (.graph g)) = match s.graphs.find? fun g => g.gid = s.rr.gid with
      | some g => [.pkg (.graph (commitChans s s.ctx g))]
      | none => [] := by
    unfold commitGraphs
    split <;> rfl
  have ha : commitActs s = (match s.graphs.find? fun g => g.gid = s.rr.gid with
      | some g => [.pkg (.graph (commitChans s s.ctx g))]
      | none => []) ++ (s.rr.ids.flatMap fun id => (commitCore s.rr (s.core id)).map (.core id)) ++
        [.reg s.ctx (.put (commitRegion s))] ++ if Claim.outgoing s s.rr = [] then [] else [.pkg (.takeFree 1)] := by
    rw [← hg]; rfl
  have he : (s.commitFull s.ctx).isEmpty = true := by simp [h]
  rw [ha]
  simp only [evInstantCommit, he, hb, Bool.not_true, Bool.false_eq_true, Bool.false_and, if_false]
  rfl

/-- The state after a commit's updates but for a save. -/
theorem applyAll_commitActs (s : State) : ∃ n, let m := s.applyAll (commitActs s)
    m = { s with graphs := (s.applyAll ((commitGraphs s).map fun g => .pkg (.graph g))).graphs, cores := m.cores
                 regions := SMap.set {} s.regions s.ctx (commitRegion s), freeCtr := n } ∧
    Claim.EachCore s m s.rr.ids (Claim.committed s.rr) := by
  have hg := applyAll_graphs (commitGraphs s) s
  obtain ⟨hc, hid⟩ := applyAll_cores (s.rr.ids.flatMap fun id => (commitCore s.rr (s.core id)).map (.core id))
    (s.applyAll ((commitGraphs s).map fun g => .pkg (.graph g))) (each_isCore _ _)
  refine ⟨if Claim.outgoing s s.rr = [] then s.freeCtr else s.freeCtr + 1, ?_⟩
  simp only [commitActs, State.applyAll_append, updatesOf_each _ _ _ s.rr.ids_nodup] at hid ⊢
  generalize s.applyAll ((commitGraphs s).map fun g => .pkg (.graph g)) = s1 at hg hc hid ⊢
  generalize s1.applyAll (s.rr.ids.flatMap _) = s2 at hc hid ⊢
  have hcore : ∀ id, s2.core id = if id ∈ s.rr.ids then Claim.committed s.rr (s.core id) else s.core id := fun id => by
    have h1 : s1.core id = s.core id := by rw [hg]; rfl
    rw [hid id, h1]
    split
    · exact commitCore_foldl s.rr (s.core id)
    · rfl
  have hput : s2.applyAll [.reg s.ctx (.put (commitRegion s))] =
      { s with graphs := s1.graphs, cores := s2.cores, regions := SMap.set {} s.regions s.ctx (commitRegion s) } := by
    rw [hc, hg]; rfl
  rw [hput]
  constructor
  · split <;> rfl
  · have hlast : ∀ id, (State.applyAll { s with graphs := s1.graphs, cores := s2.cores, regions := SMap.set {} s.regions s.ctx (commitRegion s) }
        (if Claim.outgoing s s.rr = [] then [] else [.pkg (.takeFree 1)])).core id = s2.core id := fun id => by split <;> rfl
    refine ⟨fun id h => ?_, fun id h => ?_⟩ <;> rw [hlast, hcore]
    · exact if_pos h
    · exact if_neg h

/-! ## Channels -/

/-- The region's graph after its commit is the one put (R27). -/
theorem find_commitGraphs {s : State} {g : Graph} (hg : (s.graphs.find? fun g => g.gid = s.rr.gid) = some g) :
    ((s.applyAll ((commitGraphs s).map fun g => .pkg (.graph g))).graphs.find? fun g => g.gid = s.rr.gid) = some (commitChans s s.ctx g) := by
  have hgid : g.gid = s.rr.gid := by simpa using List.find?_some hg
  have happ : (s.applyAll ((commitGraphs s).map fun g => .pkg (.graph g))).graphs =
      s.graphs.map fun x => if x.gid = (commitChans s s.ctx g).gid then commitChans s s.ctx g else x := by
    simp only [commitGraphs, hg]; rfl
  have hid : (commitChans s s.ctx g).gid = s.rr.gid := hgid
  have hpred : ((fun g : Graph => decide (g.gid = s.rr.gid)) ∘ fun x => if x.gid = s.rr.gid then commitChans s s.ctx g else x) =
      fun g => decide (g.gid = s.rr.gid) := by
    funext x
    by_cases hx : x.gid = s.rr.gid <;> simp [hx, hid]
  rw [happ, hid, List.find?_map, hpred, hg, Option.map_some, if_pos hgid]

/-- A channel that the region writes and does not read takes its staged values in the order of their logical time (R27, R287). -/
theorem commitChans_written {s : State} {g : Graph} {ch : Nat} {k : Chan} (hk : g.chans[ch]? = some k) (hw : k.wnode = s.rr.node)
    (hr : k.wnode ≠ k.rnode) : (commitChans s s.ctx g).chans[ch]? = some { k with
      vals := joinVals ((if k.kind = 0 then (s.stagedFor s.ctx ch).getLast?.toList else s.stagedFor s.ctx ch).map
        fun v => ⟨s.rr.ltime, s.ctx, v⟩) k.vals s.rr.ltime s.ctx } := by
  have hlt : ch < g.chans.length := (List.getElem?_eq_some_iff.mp hk).1
  have hz : ((List.range g.chans.length).zip g.chans)[ch]? = some (ch, k) := by
    rw [List.getElem?_zip_eq_some]; exact ⟨List.getElem?_range hlt, hk⟩
  have hpop : popped s s.ctx (ch, k) = k := if_neg fun h => hr (hw.trans h.1.symm)
  have hw' : k.wnode = (s.region s.ctx).node := hw
  simp only [commitChans, List.getElem?_map, hz, Option.map_some, hpop, hw', if_true]
  rfl

/-! ## The claim -/

theorem instantsCommit_room : Claim.InstantsCommit := by
  intro s
  refine ⟨fun hfull hswap hboot => ?_, fun hfull => ⟨s, ?_, rfl⟩⟩
  · obtain ⟨n, hm, hcores⟩ := applyAll_commitActs s
    have hev : evInstantCommit s = commitActs s := by
      have hno : swapTaken s (s.applyAll (commitActs s)) = false := by simp only [swapTaken, hswap, Bool.false_and]
      rw [evInstantCommit_room hfull hboot, hno, if_neg Bool.false_ne_true, List.append_nil]
    refine ⟨s.applyAll (commitActs s), by rw [← hev]; rfl, ?_⟩
    generalize s.applyAll (commitActs s) = m at hm hcores ⊢
    have hrr : m.rr = commitRegion s := by
      have hctx : m.ctx = s.ctx := by rw [hm]; rfl
      unfold State.rr State.region
      rw [hctx, hm, SMap.get_set_same]
    have hbound : s.free 0 Config.visibleBound < 20000 := Nat.mod_lt _ (by decide)
    refine ⟨by rw [hm], hcores, by rw [hrr]; rfl, fun hout => ?_, fun hout => ?_, fun g hg ch k hk hw hr => ?_⟩
    · rw [hrr]; exact if_pos hout
    · refine ⟨s.now + 1 + s.free 0 Config.visibleBound, by omega, by omega, ?_⟩
      rw [hrr]; exact if_neg hout
    · refine ⟨_, _, ?_, commitChans_written hk hw hr, rfl⟩
      rw [hm]; exact find_commitGraphs hg
  · show Host.Outcome.next (s.applyAll (evInstantCommit s)) = _
    rw [evInstantCommit_full hfull, State.applyAll_nil]

end Sys2Proof.Machine
end

section
/-! SUPPORT. The save of a region at a safe point: one core's image, its size, the flags that are on their way, and when it is visible
(R280, R322, R324). -/

namespace Sys2Proof.Machine

/-! ## One core's image (R322) -/

/-- A map of which only some keys are kept reads as before at those, and its default at every other. -/
theorem get_named {α : Type} [DecidableEq α] (d : α) (m : SMap α) (keep : Nat → Bool) (k : Nat) :
    SMap.get d (named m keep) k = if keep k then SMap.get d m k else d := by
  induction m with
  | nil => simp [named, SMap.get]
  | cons p m ih =>
    obtain ⟨a, v⟩ := p
    unfold named at ih ⊢
    rw [List.filter_cons]
    by_cases hak : a = k
    · subst hak
      split
      · rw [SMap.get_cons, SMap.get_cons, if_pos rfl, if_pos rfl]
      · rename_i h; rw [ih, if_neg h]
    · split
      · rw [SMap.get_cons, SMap.get_cons, if_neg hak, if_neg hak, ih]
      · rw [SMap.get_cons, if_neg hak, ih]

theorem inRanges_eq_true_iff (l : List (Nat × Nat)) (off : Nat) : inRanges l off = true ↔ ∃ p ∈ l, p.1 ≤ off ∧ off < p.1 + p.2 := by
  simp [inRanges]

/-- A core's flags joined by others (R117, R324). -/
def Core.flagged (c : Core) (n : Nat) : Core := CAct.apply c (.orFlags n)

theorem Core.csr_flagged (c : Core) (n : Nat) {m : Nat} (h : m ≠ 0x010) : (c.flagged n).csr m = c.csr m :=
  SMap.get_set_apart _ _ _ h _
theorem Core.csr_flagged_flags (c : Core) (n : Nat) : (c.flagged n).csr 0x010 = c.csr 0x010 ||| BitVec.ofNat 64 (n % 16) :=
  SMap.get_set_same _ _ _ _
theorem Core.arena_flagged (c : Core) (n : Nat) : (c.flagged n).arena = c.arena := by
  unfold Core.arena; rw [Core.csr_flagged c n (by decide)]

/-- The bytes that an image holds: the descriptor's ranges, and the arena of an open level. -/
theorem inRanges_savedRanges (d : Live) (c : Core) (off : Nat) : inRanges (savedRanges d c) off = true ↔
    (∃ p ∈ d.m, p.1 ≤ off ∧ off < p.1 + p.2) ∨ (c.levels ≠ [] ∧ c.arena.1 ≤ off ∧ off < c.arena.1 + c.arena.2) := by
  rw [inRanges_eq_true_iff, savedRanges]
  cases c.levels <;> simp [or_and_right, exists_or]

/-- A CSR of an image but for TRAPC is that of its core (R322). -/
theorem csr_saveCore (d : Live) (c : Core) {n : Nat} (h : n ≠ 0x050) : (saveCore d c).csr n = c.csr n := by
  refine (get_named (csrReset n) c.csrs (· ≠ 0x050) n).trans ?_
  simp only [h, ne_eq, not_false_eq_true, decide_true, if_true]
  rfl

/-- The image of a core with flags that join it is a save by its descriptor. -/
theorem saveCore_savedBy (d : Live) (c : Core) (n : Nat) : Claim.savedBy d c (saveCore d (c.flagged n)) where
  scalars r hr := by
    simp only [Core.reg, hr, if_false]
    exact get_named _ _ _ _
  tiles t := by
    refine ⟨fun i hi => ?_, get_named _ _ _ _, get_named _ _ _ _, ?_⟩
    · have hdiv : (t * 16 + i) / 16 = t := by omega
      refine (get_named 0 c.rows (fun k => d.t.getLsbD (k / 16)) _).trans ?_
      rw [hdiv]; rfl
    · refine (get_named false c.tileFull d.t.getLsbD t).trans ?_
      cases d.t.getLsbD t <;> rfl
  accs a := by
    refine ⟨fun p hp => ?_, get_named _ _ _ _⟩
    have hdiv : (a * 256 + p) / 256 = a := by omega
    refine (get_named {} c.accs (fun k => d.c.getLsbD (k / 256)) _).trans ?_
    rw [hdiv]
  spad off := by
    refine (get_named 0 c.spad (inRanges (savedRanges d (c.flagged n))) off).trans ?_
    have h := inRanges_savedRanges d (c.flagged n) off
    rw [Core.arena_flagged] at h
    simp only [h]
    rfl
  csrs m h1 h2 := by rw [csr_saveCore d _ h1, Core.csr_flagged c n h2]
  loops := ⟨rfl, rfl, rfl, rfl, rfl, rfl⟩
  signals := ⟨rfl, rfl, rfl, rfl, rfl, rfl, rfl, rfl⟩
  tables := ⟨rfl, rfl, rfl, rfl, rfl, rfl, rfl⟩
  counts := ⟨rfl, rfl, rfl, rfl⟩
  levels := ⟨rfl, rfl, rfl⟩

/-- A bit of a number is its field of width 1. -/
theorem setBits_eq {w : Nat} (x : BitVec w) : ((List.range w).filter fun i => fld x.toNat i 1 = 1).length = Claim.setBits x.getLsbD w := by
  unfold Claim.setBits
  congr 2
  funext i
  simp only [fld, BitVec.getLsbD, Nat.testBit_eq_decide_div_mod_eq, Nat.pow_one]

/-- The size of an image (R322). -/
theorem saveBytes_flagged (d : Live) (c : Core) (n : Nat) : saveBytes d (c.flagged n) = Claim.imageBytes d c := by
  simp only [saveBytes, Claim.imageBytes, setBits_eq, Core.arena_flagged]
  congr 1
  cases h : c.levels <;> simp [Core.flagged, h, Config.saveSnapshot]

/-! ## Flags on their way (R324) -/

/-- A fold that never clears a bit keeps it. -/
theorem testBit_foldl {α : Type} {f : Nat → α → Nat} {b : Nat} (hf : ∀ n e, n.testBit b = true → (f n e).testBit b = true) (l : List α) :
    ∀ n, n.testBit b = true → (l.foldl f n).testBit b = true := by
  induction l with
  | nil => exact fun _ h => h
  | cons e l ih => exact fun n h => ih _ (hf n e h)
/-- A bit that one element of the list sets is set in the end. -/
theorem testBit_foldl_of_mem {α : Type} {f : Nat → α → Nat} {b : Nat} (hf : ∀ n e, n.testBit b = true → (f n e).testBit b = true) {e : α}
    (he : ∀ n, (f n e).testBit b = true) {l : List α} (hl : e ∈ l) (n : Nat) : (l.foldl f n).testBit b = true := by
  induction l generalizing n with
  | nil => exact absurd hl List.not_mem_nil
  | cons x l ih =>
    rcases List.mem_cons.mp hl with rfl | hl
    · exact testBit_foldl hf l _ (he n)
    · exact ih hl _

/-- A flag that a landing of the core brings is among those that arrive after its save. -/
theorem lateFlags_testBit {s : State} {r : Region} {id : Nat} {k : Key} {l : List CAct} {fl b : Nat} (hl : (k, Item.land id l) ∈ r.agenda)
    (hfl : CAct.orFlags fl ∈ l) (hb : fl.testBit b = true) : (lateFlags s r id).testBit b = true := by
  unfold lateFlags
  refine testBit_foldl_of_mem (fun n e hn => ?_) (fun n => ?_) hl 0
  · split
    · split
      · rw [Nat.testBit_or, hn, Bool.true_or]
      · exact hn
    · split
      · rw [Nat.testBit_or, hn, Bool.true_or]
      · exact hn
    · exact hn
  · have hof := testBit_foldl_of_mem (f := fun n (a : CAct) => match a with | .orFlags v => n ||| v | _ => n) (b := b) (fun n a hn => by
      split
      · rw [Nat.testBit_or, hn, Bool.true_or]
      · exact hn) (e := .orFlags fl) (fun n => by simp only [Nat.testBit_or, hb, Bool.or_true]) hfl 0
    simp only [if_true, Nat.testBit_or]
    exact (Bool.or_eq_true _ _).mpr (.inr hof)

/-- What stays in the agenda of a saved region brings no flags. -/
theorem flagless_no_flags {l : List (Key × Item)} {k : Key} {id fl : Nat} {a : List CAct} (h : (k, Item.land id a) ∈ flagless l) :
    CAct.orFlags fl ∉ a := by
  obtain ⟨e, -, he⟩ := List.mem_map.mp h
  obtain ⟨ke, it⟩ := e
  cases it with
  | land c acts =>
    simp only [Prod.mk.injEq, Item.land.injEq] at he
    obtain ⟨-, -, rfl⟩ := he
    simp
  | _ => simp at he

/-- The flags of an image: the core's own, joined by those that arrive later; no other bit of the register changes. -/
theorem flags_saveCore (d : Live) (c : Core) (n b : Nat) : ((saveCore d (c.flagged n)).csr 0x010).getLsbD b =
    ((c.csr 0x010).getLsbD b || (decide (b < 4) && n.testBit b)) := by
  rw [csr_saveCore _ _ (by decide), Core.csr_flagged_flags, BitVec.getLsbD_or, BitVec.getLsbD_ofNat, show 16 = 2 ^ 4 from rfl,
    Nat.testBit_mod_two_pow]
  by_cases h : b < 4
  · simp [show b < 64 by omega]
  · simp [h]

/-! ## The length of a save -/

theorem le_foldl_max (l : List Nat) : ∀ a, a ≤ l.foldl max a ∧ ∀ x ∈ l, x ≤ l.foldl max a := by
  induction l with
  | nil => exact fun a => ⟨Nat.le_refl a, fun _ h => absurd h List.not_mem_nil⟩
  | cons y l ih =>
    intro a
    obtain ⟨h1, h2⟩ := ih (max a y)
    refine ⟨Nat.le_trans (Nat.le_max_left a y) h1, fun x hx => ?_⟩
    rcases List.mem_cons.mp hx with rfl | hx
    · exact Nat.le_trans (Nat.le_max_right a x) h1
    · exact h2 x hx
theorem foldl_max_mem (l : List Nat) : ∀ a, l.foldl max a = a ∨ l.foldl max a ∈ l := by
  induction l with
  | nil => exact fun _ => .inl rfl
  | cons y l ih =>
    intro a
    rcases ih (max a y) with h | h
    · rw [List.foldl_cons, h]
      rcases Nat.le_total a y with hay | hya
      · exact .inr (by rw [Nat.max_eq_right hay]; exact List.mem_cons_self)
      · exact .inl (Nat.max_eq_left hya)
    · exact .inr (List.mem_cons_of_mem _ h)
/-- The greatest of the sizes of a nonempty list is that of one of its members. -/
theorem exists_foldl_max_map {α : Type} (f : α → Nat) {l : List α} (hl : l ≠ []) : ∃ x ∈ l, (l.map f).foldl max 0 ≤ f x := by
  rcases foldl_max_mem (l.map f) 0 with h | h
  · obtain ⟨x, hx⟩ := List.exists_mem_of_ne_nil l hl
    exact ⟨x, hx, by omega⟩
  · obtain ⟨x, hx, hfx⟩ := List.mem_map.mp h
    exact ⟨x, hx, by omega⟩

/-! ## The save of a region -/

/-- A core as a save takes it: its flags joined by those on their way (R324). -/
def savedCore (m : State) (r : Region) (id : Nat) : Core := (m.core id).flagged (lateFlags m r id)
/-- The length of a save: the longest of its cores' (R322). -/
def saveLength (m : State) (r : Region) : Nat :=
  (r.ids.map fun id => (saveBytes (liveOf r (savedCore m r id)) (savedCore m r id) + 255) / 256).foldl max 0
/-- The region while its images are written. -/
def savedRegion (m : State) (r : Region) : Region :=
  { r with
    phase := .saving, images := r.ids.map fun id => saveCore (liveOf r (savedCore m r id)) (savedCore m r id)
    saveEnd := saveLength m r, agenda := flagless r.agenda }
/-- When the last byte of a save is visible, which is free within the bound. -/
def saveVisible (m : State) (r : Region) : Nat := m.now + saveLength m r + 1 + m.free 0 Config.visibleBound

/-- The state while the images of a region are written: the region, and the completion in the package's agenda. -/
def State.saving (m : State) (ctx : Nat) : State :=
  { m with
    regions := SMap.set {} m.regions ctx (savedRegion m (m.region ctx))
    agenda := laterInsert (saveVisible m (m.region ctx)) (.ev (ctx * 2048) .swapComplete) m.agenda
    freeCtr := m.freeCtr + 1 }

theorem applyAll_saveRegion (m : State) (ctx : Nat) : m.applyAll (saveRegion m ctx false) = m.saving ctx := by
  have hs : saveRegion m ctx false = [.reg ctx (.put (savedRegion m (m.region ctx))),
      .pkg (.later (saveVisible m (m.region ctx)) (.ev (coreId ctx 0) .swapComplete)), .pkg (.takeFree 1)] := by
    simp only [saveRegion, Bool.false_eq_true, if_false, List.map_map]
    rfl
  simp only [hs, State.applyAll_cons, State.applyAll_nil, Act.apply, RAct.apply, GAct.apply, coreId, Nat.add_zero]
  rfl

theorem State.saving_region (m : State) (ctx : Nat) : (m.saving ctx).region ctx = savedRegion m (m.region ctx) := by
  show SMap.get {} (SMap.set {} m.regions ctx (savedRegion m (m.region ctx))) ctx = _
  rw [SMap.get_set_same]

/-- The images stand in the order of the cores' virtual indices. -/
theorem savedRegion_image {m : State} {r : Region} {v id : Nat} {img : Core} (hv : r.ids[v]? = some id)
    (himg : (savedRegion m r).images[v]? = some img) : img = saveCore (liveOf r (savedCore m r id)) (savedCore m r id) := by
  have hmap : (savedRegion m r).images[v]? = some (saveCore (liveOf r (savedCore m r id)) (savedCore m r id)) := by
    refine (List.getElem?_map ..).trans ?_
    rw [hv]; rfl
  exact Option.some.inj (himg.symm.trans hmap)

/-- A save is visible after the bytes of every core have been written, and within the bound after those of one. -/
theorem saveVisible_bounds {m : State} {r : Region} (hids : r.ids ≠ []) {bytes : Nat → Nat}
    (hb : ∀ id ∈ r.ids, saveBytes (liveOf r (savedCore m r id)) (savedCore m r id) = bytes id) :
    (∀ id ∈ r.ids, m.now + (bytes id + 255) / 256 < saveVisible m r) ∧
      ∃ id ∈ r.ids, saveVisible m r ≤ m.now + (bytes id + 255) / 256 + 20000 := by
  have hfree : m.free 0 Config.visibleBound < 20000 := Nat.mod_lt _ (by decide)
  have hlen : saveLength m r = (r.ids.map fun id => (bytes id + 255) / 256).foldl max 0 := by
    unfold saveLength
    rw [List.map_congr_left fun id hid => by rw [hb id hid]]
  unfold saveVisible
  rw [hlen]
  constructor
  · intro id hid
    have hle := (le_foldl_max (r.ids.map fun id => (bytes id + 255) / 256) 0).2 _ (List.mem_map_of_mem hid)
    omega
  · obtain ⟨id, hid, hle⟩ := exists_foldl_max_map (fun id => (bytes id + 255) / 256) hids
    exact ⟨id, hid, by omega⟩

/-- The descriptor that a core offers; with none, one that names nothing (R211, R322). -/
def offered (l : List Live) (safept : Option Nat) : Live := match safept with
  | some n => l.getD n ⟨0, 0, 0, []⟩
  | none => ⟨0, 0, 0, []⟩

/-- But for descriptor 256, a core saves by the one that it offers. -/
theorem liveOf_eq_offered {r : Region} {c : Core} (h : c.safept ≠ some 256) : liveOf r c = offered r.live c.safept := by
  unfold liveOf offered
  cases hs : c.safept with
  | none => rfl
  | some n =>
    have hn : n ≠ 256 := fun hn => h (by rw [hs, hn])
    exact if_neg hn

/-- What a commit's updates leave, as a save finds it: the region, the cores, and what has not changed. -/
structure Commits (s m : State) : Prop where
  rest : ∃ g n, m = { s with graphs := g, cores := m.cores, regions := SMap.set {} s.regions s.ctx (commitRegion s), freeCtr := n }
  cores : Claim.EachCore s m s.rr.ids (Claim.committed s.rr)

namespace Commits
variable {s m : State} (h : Commits s m)
include h

theorem region : m.region s.ctx = commitRegion s := by
  obtain ⟨g, n, hm⟩ := h.rest
  unfold State.region; rw [hm, SMap.get_set_same]
theorem ctx : m.ctx = s.ctx := by obtain ⟨g, n, hm⟩ := h.rest; rw [hm]; rfl
theorem now : m.now = s.now := by obtain ⟨g, n, hm⟩ := h.rest; rw [hm]
theorem mem : m.mem = s.mem := by obtain ⟨g, n, hm⟩ := h.rest; rw [hm]
theorem agenda : m.agenda = s.agenda := by obtain ⟨g, n, hm⟩ := h.rest; rw [hm]
theorem safept {id : Nat} (hid : id ∈ s.rr.ids) : (m.core id).safept = (s.core id).safept := by
  rw [h.cores.1 id hid, committed_safept]
theorem live : m.live (commitRegion s) = s.rr.ids.filter fun id => !(Claim.committed s.rr (s.core id)).ended :=
  List.filter_congr fun id hid => by rw [h.cores.1 id hid]

/-- A core's descriptor is the one that it offered before the commit. -/
theorem descriptor {id : Nat} (hid : id ∈ s.rr.ids) (h256 : (s.core id).safept ≠ some 256) :
    liveOf (commitRegion s) (savedCore m (commitRegion s) id) = offered s.rr.live (s.core id).safept := by
  have hs : (savedCore m (commitRegion s) id).safept = (s.core id).safept := h.safept hid
  rw [liveOf_eq_offered (by rw [hs]; exact h256), hs]; rfl

/-- A swap is taken where every core that is left offers a safe point. -/
theorem swapTaken_iff (hp : s.rr.swapPend = true) : swapTaken s m = true ↔
    (s.rr.ids.filter fun id => !(Claim.committed s.rr (s.core id)).ended) ≠ [] ∧
      ∀ id ∈ s.rr.ids.filter (fun id => !(Claim.committed s.rr (s.core id)).ended), (s.core id).safept.isSome = true := by
  unfold swapTaken
  rw [h.region, h.live, hp]
  simp only [Bool.true_and, Bool.and_eq_true, Bool.not_eq_true', List.isEmpty_eq_false_iff, List.all_eq_true]
  refine and_congr_right fun _ => forall₂_congr fun id hid => ?_
  rw [h.safept (List.mem_filter.mp hid).1]
end Commits

/-- R280: a commit without a swap to take leaves the region in its phase. -/
theorem Commits.phase {s m : State} (h : Commits s m) : m.rr.phase = s.rr.phase := by
  unfold State.rr; rw [h.ctx, h.region]; rfl

/-- R211, R280, R322, R324: with a safe point of every core that is left the commit saves; with none left, or one that offers none, it
does not. -/
theorem savesAtACommit : Claim.SavesAtACommit := by
  intro s hboot hctx hswap hfull after live byDescriptor
  obtain ⟨n, hrest, hcores⟩ := applyAll_commitActs s
  have hexec : exec .instantCommit s = .next ((s.applyAll (commitActs s)).applyAll
      (if swapTaken s (s.applyAll (commitActs s)) then saveRegion (s.applyAll (commitActs s)) s.ctx false else [])) := by
    rw [← State.applyAll_append, ← evInstantCommit_room hfull hboot]; rfl
  have hm : Commits s (s.applyAll (commitActs s)) := ⟨⟨_, n, hrest⟩, hcores⟩
  generalize s.applyAll (commitActs s) = m at hm hexec
  have hids : ∀ id ∈ live, id ∈ s.rr.ids := fun id hid => (List.mem_filter.mp hid).1
  constructor
  · intro hne hoffer h256
    have htaken : swapTaken s m = true := (hm.swapTaken_iff hswap).mpr ⟨hne, fun id hid => by
      obtain ⟨k, -, hk⟩ := hoffer id hid
      rw [hk]; rfl⟩
    rw [htaken, if_pos rfl, applyAll_saveRegion] at hexec
    have hrr : (m.saving s.ctx).rr = savedRegion m (commitRegion s) := by
      have hc : (m.saving s.ctx).ctx = s.ctx := hm.ctx
      unfold State.rr
      rw [hc, State.saving_region, hm.region]
    have hd : ∀ id ∈ s.rr.ids, liveOf (commitRegion s) (savedCore m (commitRegion s) id) = byDescriptor id :=
      fun id hid => hm.descriptor hid (h256 id hid)
    have hbytes : ∀ id ∈ (commitRegion s).ids, saveBytes (liveOf (commitRegion s) (savedCore m (commitRegion s) id))
        (savedCore m (commitRegion s) id) = Claim.imageBytes (byDescriptor id) (after id) := fun id hid => by
      rw [hd id hid, savedCore, saveBytes_flagged, hm.cores.1 id hid]
    have hsome : (commitRegion s).ids ≠ [] := fun h0 => by
      obtain ⟨id, hid⟩ := List.exists_mem_of_ne_nil live hne
      exact List.not_mem_nil (h0 ▸ hids id hid)
    obtain ⟨hafter, hwithin⟩ := saveVisible_bounds hsome hbytes
    rw [hm.now] at hafter hwithin
    refine ⟨m.saving s.ctx, saveVisible m (commitRegion s), hexec, hm.mem, hm.cores, ?_⟩
    rw [hrr]
    refine ⟨rfl, rfl, List.length_map _, fun v id img hv himg => ?_, fun k id l fl hl => flagless_no_flags hl, ?_, hafter, hwithin⟩
    · have hid : id ∈ s.rr.ids := List.mem_of_getElem? hv
      have himg := savedRegion_image (r := commitRegion s) hv himg
      rw [hd id hid, savedCore, hm.cores.1 id hid] at himg
      subst himg
      refine ⟨saveCore_savedBy _ _ _, fun b hb => ?_, fun b _ h => ?_, fun k l fl b hl hfl hb hbit => ?_⟩
      · rw [flags_saveCore, decide_eq_false (Nat.not_lt.mpr hb), Bool.false_and, Bool.or_false]
      · rw [flags_saveCore, h, Bool.true_or]
      · rw [flags_saveCore, decide_eq_true hb, lateFlags_testBit (r := commitRegion s) hl hfl hbit, Bool.true_and, Bool.or_true]
    · rw [State.saving, hm.region, hm.agenda]
  · intro hno
    have hkept : ¬ swapTaken s m = true := fun htaken => by
      obtain ⟨hne, hall⟩ := (hm.swapTaken_iff hswap).mp htaken
      rcases hno with h0 | ⟨id, hid, hnone⟩
      · exact hne h0
      · exact absurd (hall id hid) (by rw [hnone]; exact Bool.false_ne_true)
    rw [if_neg hkept, State.applyAll_nil] at hexec
    exact ⟨m, hexec, hm.phase, hm.cores⟩

end Sys2Proof.Machine
end

section
/-! SUPPORT. STAGED_WRITE_APPLY: released stores, ACELLs and AFADDs perform on memory one after another (R27, R153, R158 to R160, R240). -/

namespace Sys2Proof.Machine

/-! ## Writes of memory -/

/-- A write of a byte, or of a block's error mark. -/
def Act.isMem : Act → Bool
  | .pkg (.mem _ _) => true
  | .pkg (.memBad _ _) => true
  | _ => false
/-- The bytes that a list of updates writes, by key. -/
def memPairs : List Act → List (Nat × Byte)
  | [] => []
  | .pkg (.mem k v) :: l => (k, v) :: memPairs l
  | _ :: l => memPairs l
/-- The byte at a key after writes to keys, first to last. -/
def lastWritten (l : List (Nat × Byte)) (key : Nat) (old : Byte) : Byte := l.foldl (fun v p => if p.1 = key then p.2 else v) old

/-- Writes of memory change memory and its error marks alone, and each byte reads the last one written to it. -/
theorem applyAll_mem (l : List Act) : ∀ s : State, l.all Act.isMem = true →
    s.applyAll l = { s with mem := (s.applyAll l).mem, memBad := (s.applyAll l).memBad } ∧
    ∀ key, (s.applyAll l).byte key = lastWritten (memPairs l) key (s.byte key) := by
  induction l with
  | nil => exact fun s _ => ⟨rfl, fun _ => rfl⟩
  | cons a l ih =>
    intro s h
    rw [List.all_cons, Bool.and_eq_true] at h
    obtain ⟨ha, hl⟩ := h
    obtain ⟨h1, h2⟩ := ih (Act.apply s a) hl
    cases a with
    | pkg a =>
      cases a with
      | mem k v =>
        refine ⟨h1.trans rfl, fun key => (h2 key).trans ?_⟩
        have hb : (Act.apply s (.pkg (.mem k v))).byte key = if k = key then v else s.byte key :=
          (SMap.get_set 0 v k key s.mem).trans (if_congr eq_comm rfl rfl)
        rw [hb]; rfl
      | memBad b v => exact ⟨h1.trans rfl, h2⟩
      | _ => exact absurd ha Bool.false_ne_true
    | _ => exact absurd ha Bool.false_ne_true

theorem memPairs_append (l m : List Act) : memPairs (l ++ m) = memPairs l ++ memPairs m := by
  induction l with
  | nil => rfl
  | cons a l ih =>
    cases a with
    | pkg a => cases a <;> simp [memPairs, ih]
    | _ => exact ih
theorem memPairs_mems (l : List (Nat × Byte)) : memPairs (l.map fun p => .pkg (.mem p.1 p.2)) = l := by
  induction l with
  | nil => rfl
  | cons p l ih => rw [List.map_cons, memPairs, ih]
theorem memPairs_marks (l : List Nat) (v : Bool) : memPairs (l.map fun b => .pkg (.memBad b v)) = [] := by
  induction l with
  | nil => rfl
  | cons b l ih => exact ih

theorem memWrite_isMem (l : List (Nat × Byte)) (bad : Bool) : (memWrite l bad).all Act.isMem = true := by
  unfold memWrite
  cases bad <;> simp [Act.isMem]
theorem memPairs_memWrite (l : List (Nat × Byte)) (bad : Bool) : memPairs (memWrite l bad) = l := by
  unfold memWrite
  cases bad <;> simp [memPairs_append, memPairs_mems, memPairs_marks]
theorem byte_memWrite (s : State) (l : List (Nat × Byte)) (bad : Bool) (key : Nat) :
    (s.applyAll (memWrite l bad)).byte key = lastWritten l key (s.byte key) := by
  rw [(applyAll_mem _ s (memWrite_isMem l bad)).2, memPairs_memWrite]

theorem lastWritten_bytes (l : List StByte) (key : Nat) : ∀ old : Byte,
    lastWritten (l.map fun b => (b.key, b.val)) key old = Claim.lastOf l key old := by
  induction l with
  | nil => exact fun _ => rfl
  | cons b l ih =>
    intro old
    rw [List.map_cons, lastWritten, List.foldl_cons]
    refine (ih _).trans ?_
    unfold Claim.lastOf
    by_cases hb : b.key = key
    · simp only [hb, decide_true, List.filter_cons_of_pos, if_true, List.getLast?_cons, Option.map_some, Option.getD_some]
      cases (l.filter fun b => b.key = key).getLast? <;> rfl
    · simp only [hb, decide_false, Bool.false_eq_true, not_false_eq_true, List.filter_cons_of_neg, if_false]

theorem lastOf_append (l m : List StByte) (key : Nat) (old : Byte) :
    Claim.lastOf (l ++ m) key old = Claim.lastOf m key (Claim.lastOf l key old) := by
  simp only [← lastWritten_bytes, List.map_append, lastWritten, List.foldl_append]

/-! ## The bytes of a cell -/

/-- Little-endian bytes written from a key. -/
theorem lastWritten_bytesOf (key : Nat) : ∀ (n k v : Nat) (old : Byte),
    lastWritten (((List.range n).map (k + ·)).zip (bytesOf v n)) key old =
      if k ≤ key ∧ key < k + n then BitVec.ofNat 8 (v / 256 ^ (key - k)) else old := by
  intro n
  induction n with
  | zero => intro k v old; rw [if_neg (by omega)]; rfl
  | succ n ih =>
    intro k v old
    have hk : ((List.range (n + 1)).map (k + ·)) = k :: (List.range n).map (k + 1 + ·) := by
      rw [List.range_succ_eq_map, List.map_cons, List.map_map]
      simp only [Nat.add_zero, Function.comp_def, Nat.succ_eq_add_one, Nat.add_comm 1, Nat.add_assoc]
    rw [hk, bytesOf, List.zip_cons_cons, lastWritten, List.foldl_cons]
    refine (ih (k + 1) (v / 256) _).trans ?_
    rcases Nat.lt_trichotomy key k with h | h | h
    · rw [if_neg (by omega), if_neg (by omega), if_neg (by omega)]
    · subst h
      rw [if_neg (by omega), if_pos rfl, if_pos (by omega), Nat.sub_self, Nat.pow_zero, Nat.div_one]
    · have hsub : key - k = key - (k + 1) + 1 := by omega
      rw [if_neg (show ¬ k = key by omega), Nat.div_div_eq_div_mul, hsub, Nat.pow_succ']
      exact if_congr (by omega) rfl rfl

/-- Little-endian bytes read as one number. -/
theorem foldr_bytes (g : Nat → Byte) : ∀ n k v : Nat, (∀ i, i < n → g (k + i) = BitVec.ofNat 8 (v / 256 ^ i)) →
    (List.range n).foldr (fun i m => (g (k + i)).toNat + 256 * m) 0 = v % 256 ^ n := by
  intro n
  induction n with
  | zero => intro k v _; rw [Nat.pow_zero, Nat.mod_one]; rfl
  | succ n ih =>
    intro k v h
    have h0 : (g (k + 0)).toNat = v % 256 := by
      rw [h 0 (by omega), Nat.pow_zero, Nat.div_one, BitVec.toNat_ofNat]
    have htail := ih (k + 1) (v / 256) fun i hi => by
      rw [Nat.add_assoc, Nat.add_comm 1 i, h (i + 1) (by omega), Nat.pow_succ', Nat.div_div_eq_div_mul]
    rw [List.range_succ_eq_map, List.foldr_cons, List.foldr_map, h0, Nat.pow_succ', Nat.mod_mul, ← htail]
    simp only [Nat.succ_eq_add_one, Nat.add_assoc, Nat.add_comm 1]

theorem cellOf_lt (f : Nat → Byte) (k : Nat) : Claim.cellOf f k < 2 ^ 128 := by
  have hlt : ∀ l : List Nat, l.foldr (fun i n => (f (k + i)).toNat + 256 * n) 0 < 256 ^ l.length := fun l => by
    induction l with
    | nil => exact Nat.one_pos
    | cons i l ih =>
      have hb := (f (k + i)).isLt
      rw [List.foldr_cons, List.length_cons, Nat.pow_succ]
      omega
  exact hlt (List.range 16)

/-! ## AFADD (R158, R159) -/

/-- The parts of a packed cell: its scale, its flags and its integer. -/
theorem cellPack_parts {scale : Nat} (hs : scale < 256) (range lost : Bool) (i : Int) :
    cellPack scale range lost i < 2 ^ 128 ∧ cellPack scale range lost i / 2 ^ 120 = scale ∧
      (cellPack scale range lost i / 2 ^ 119 % 2 = 1 ↔ range = true) ∧ (cellPack scale range lost i / 2 ^ 118 % 2 = 1 ↔ lost = true) ∧
      ((cellPack scale range lost i % 2 ^ 118 : Nat) : Int) = i % 2 ^ 118 := by
  have h0 : 0 ≤ i % 2 ^ 118 := Int.emod_nonneg _ (by decide)
  have h1 : i % 2 ^ 118 < 2 ^ 118 := Int.emod_lt_of_pos _ (by decide)
  have hint : ((ofSigned 118 i : Nat) : Int) = i % 2 ^ 118 := Int.toNat_of_nonneg h0
  have hlt : ofSigned 118 i < 2 ^ 118 := by omega
  unfold cellPack
  rw [← hint, Nat.mod_eq_of_lt hs]
  generalize ofSigned 118 i = n at hlt
  cases range <;> cases lost <;> simp only [Bool.false_eq_true, if_true, if_false, iff_true, iff_false] <;> omega

/-- The integer of a cell agrees with its low 118 bits. -/
theorem cellInt_add_emod (c : Nat) (t : Int) : (cellInt c + t) % 2 ^ 118 = ((c : Int) + t) % 2 ^ 118 := by
  have hmod : cellInt c % 2 ^ 118 = (c : Int) % 2 ^ 118 := by
    simp only [cellInt, toSigned, fld, Nat.pow_zero, Nat.div_one, Nat.mod_mod]
    split <;> omega
  exact Int.ModEq.add_right t hmod

/-- An FP32 infinity or NaN has no value (R91). -/
theorem decodeElem_special {n : Nat} (h : n / 2 ^ 23 % 256 = 255) (neg : Bool) (m : Nat) (e : Int) : decodeElem 6 n ≠ .fin neg m e := by
  simp only [Nat.reducePow] at h
  simp only [decodeElem, fmtOf, decodeF, fld, h, Nat.pow_zero, Nat.div_one, Nat.reducePow, Nat.reduceSub, true_and, if_true]
  split <;> exact FVal.noConfusion
/-- Any other FP32 number by its fields (R91). -/
theorem decodeElem_finite {n : Nat} (hn : n < 2 ^ 32) (h : n / 2 ^ 23 % 256 ≠ 255) : decodeElem 6 n =
    .fin (n / 2 ^ 31 = 1) (n % 2 ^ 23 + if n / 2 ^ 23 % 256 = 0 then 0 else 2 ^ 23) ((max (n / 2 ^ 23 % 256) 1 : Nat) - 150) := by
  have hneg : n / 2147483648 % 2 = n / 2147483648 := by omega
  simp only [Nat.reducePow] at h
  simp only [decodeElem, fmtOf, decodeF, fld, hneg, h, Nat.pow_zero, Nat.div_one, Nat.reduceAdd, Nat.reducePow, Nat.reduceSub, true_and,
    zero_ne_one, false_and, if_false, Nat.pow_one]
  by_cases h0 : n / 8388608 % 256 = 0
  · simp [h0]
  · simp only [h0, if_false, Nat.add_comm, FVal.fin.injEq, true_and]
    omega

/-- The significand of an FP32 number with its sign, and its place above the cell's unit (R159). -/
def addend (x : Nat) : Int :=
  if x / 2 ^ 31 = 1 then -((x % 2 ^ 23 + if x / 2 ^ 23 % 256 = 0 then 0 else 2 ^ 23 : Nat) : Int)
  else ((x % 2 ^ 23 + if x / 2 ^ 23 % 256 = 0 then 0 else 2 ^ 23 : Nat) : Int)
def addShift (old x : Nat) : Int := ((max (x / 2 ^ 23 % 256) 1 : Nat) : Int) - 150 - (((old / 2 ^ 120 : Nat) : Int) - 127)
/-- The contribution does not fit the cell's integer. -/
def outOfRange (t : Int) : Bool := decide (t < -(2 ^ 117) ∨ 2 ^ 117 - 1 < t)
/-- The contribution: the number in the cell's unit, rounded down. -/
def contribution (old x : Nat) : Int := floorShift (addend x) (addShift old x)
/-- The contribution is not exact. -/
def inexact (old x : Nat) : Bool := decide (addShift old x < 0) && decide (addend x % (2 ^ (-addShift old x).toNat : Nat) ≠ 0)

theorem cellAdd_special {old x : Nat} (hold : old < 2 ^ 128) (h : x / 2 ^ 23 % 256 = 255) :
    cellAdd old x = cellPack (old / 2 ^ 120) true (decide (old / 2 ^ 118 % 2 = 1)) (cellInt old) := by
  have hscale : old / 2 ^ 120 % 2 ^ 8 = old / 2 ^ 120 := by omega
  simp only [cellAdd, fld, hscale, Nat.pow_one]
  split
  · rename_i heq; exact absurd heq (decodeElem_special h _ _ _)
  · rfl

theorem cellAdd_finite {old x : Nat} (hold : old < 2 ^ 128) (hx : x < 2 ^ 32) (h : x / 2 ^ 23 % 256 ≠ 255) :
    cellAdd old x = cellPack (old / 2 ^ 120) (decide (old / 2 ^ 119 % 2 = 1) || outOfRange (contribution old x))
      (decide (old / 2 ^ 118 % 2 = 1) || inexact old x)
      (if outOfRange (contribution old x) then cellInt old else cellInt old + contribution old x) := by
  have hscale : old / 2 ^ 120 % 2 ^ 8 = old / 2 ^ 120 := by omega
  have hadd : (if decide (x / 2 ^ 31 = 1) = true then -((x % 2 ^ 23 + if x / 2 ^ 23 % 256 = 0 then 0 else 2 ^ 23 : Nat) : Int)
      else ((x % 2 ^ 23 + if x / 2 ^ 23 % 256 = 0 then 0 else 2 ^ 23 : Nat) : Int)) = addend x := by
    unfold addend; simp only [decide_eq_true_eq]
  simp only [cellAdd, fld, hscale, Nat.pow_one, decodeElem_finite hx h, hadd]
  cases ht : outOfRange (contribution old x) with
  | true =>
    rw [Bool.or_true, if_pos rfl]
    exact if_pos (of_decide_eq_true ht)
  | false =>
    rw [Bool.or_false, if_neg Bool.false_ne_true]
    exact if_neg (of_decide_eq_false ht)

/-- The rule of the spec for a number, in the words of the model. -/
theorem addsTo_finite {old new : Nat} {x : Word} (h : x.toNat / 2 ^ 23 % 256 ≠ 255) : Claim.addsTo old new x ↔
    new / 2 ^ 120 = old / 2 ^ 120 ∧
      (new / 2 ^ 119 % 2 = 1 ↔ old / 2 ^ 119 % 2 = 1 ∨ outOfRange (contribution old x.toNat) = true) ∧
      (new / 2 ^ 118 % 2 = 1 ↔ old / 2 ^ 118 % 2 = 1 ∨ inexact old x.toNat = true) ∧
      ((new % 2 ^ 118 : Nat) : Int) = if outOfRange (contribution old x.toNat) then ((old % 2 ^ 118 : Nat) : Int)
        else ((old : Int) + contribution old x.toNat) % 2 ^ 118 := by
  have hv : (if x.toNat / 2 ^ 31 = 1 then -1 else 1) *
      ((x.toNat % 2 ^ 23 + if x.toNat / 2 ^ 23 % 256 = 0 then 0 else 2 ^ 23 : Nat) : Int) = addend x.toNat := by
    unfold addend; split <;> simp
  have ht : (if 0 ≤ addShift old x.toNat then addend x.toNat * 2 ^ (addShift old x.toNat).toNat
      else addend x.toNat / 2 ^ (-addShift old x.toNat).toNat) = contribution old x.toNat := by
    unfold contribution floorShift; push_cast; rfl
  unfold Claim.addsTo
  dsimp only
  rw [hv, show ((max (x.toNat / 2 ^ 23 % 256) 1 : Nat) : Int) - 150 - (((old / 2 ^ 120 : Nat) : Int) - 127) = addShift old x.toNat from rfl, ht]
  simp only [h, ne_eq, not_false_eq_true, true_and, false_or, outOfRange, inexact, Bool.and_eq_true, decide_eq_true_eq, Nat.cast_pow,
    Nat.cast_ofNat]

/-- AFADD adds by the rule of the spec: its two cases are the model's (R159). -/
theorem addsTo_cellAdd {old : Nat} (hold : old < 2 ^ 128) (x : Word) :
    Claim.addsTo old (cellAdd old x.toNat) x ∧ cellAdd old x.toNat < 2 ^ 128 := by
  have hscale : old / 2 ^ 120 < 256 := by omega
  have hkeep : cellInt old % 2 ^ 118 = ((old % 2 ^ 118 : Nat) : Int) := by
    have h := cellInt_add_emod old 0
    rw [Int.add_zero, Int.add_zero] at h
    rw [h]; norm_cast
  by_cases h : x.toNat / 2 ^ 23 % 256 = 255
  · rw [cellAdd_special hold h]
    obtain ⟨hlt, h1, h2, h3, h4⟩ := cellPack_parts hscale true (decide (old / 2 ^ 118 % 2 = 1)) (cellInt old)
    refine ⟨⟨h1, ?_, ?_, ?_⟩, hlt⟩
    · simp only [h2, h, true_or, or_true]
    · simp only [h3, h, ne_eq, not_true_eq_false, false_and, or_false, decide_eq_true_eq]
    · simp only [h, true_or, if_true]; rw [h4, hkeep]
  · rw [cellAdd_finite hold x.isLt h, addsTo_finite h]
    obtain ⟨hlt, h1, h2, h3, h4⟩ := cellPack_parts hscale (decide (old / 2 ^ 119 % 2 = 1) || outOfRange (contribution old x.toNat))
      (decide (old / 2 ^ 118 % 2 = 1) || inexact old x.toNat)
      (if outOfRange (contribution old x.toNat) then cellInt old else cellInt old + contribution old x.toNat)
    refine ⟨⟨h1, ?_, ?_, ?_⟩, hlt⟩
    · rw [h2, Bool.or_eq_true, decide_eq_true_eq]
    · rw [h3, Bool.or_eq_true, decide_eq_true_eq]
    · rw [h4]
      split
      · exact hkeep
      · exact cellInt_add_emod old _

/-! ## Released entries, one after another (R27, R240) -/

/-- An entry that performs on memory alone: a store none of whose bytes lies with a peer that is down, an ACELL, an AFADD of a cell's 16
bytes, or a mark. -/
def Performable (s : State) (e : StEntry) : Prop :=
  (e.kind = .store ∧ ∀ b ∈ e.bytes, s.peerDown b.key = false) ∨ e.kind = .acell ∨ e.kind = .mark ∨
    ∃ x k, e.kind = .afadd x ∧ e.bytes.map StByte.key = (List.range 16).map (k + ·)

/-- An AFADD's 16 bytes, written over the cell that they were read from. -/
theorem afadd_performs {s : State} {e : StEntry} {x : Word} {k : Nat} (hk : e.bytes.map StByte.key = (List.range 16).map (k + ·)) {g : Nat → Byte}
    (hg : ∀ key, g key = lastWritten ((e.bytes.map StByte.key).zip
      (bytesOf (cellAdd (e.bytes.foldr (fun b n => (s.byte b.key).toNat + 256 * n) 0) x.toNat) 16)) key (s.byte key)) :
    Claim.addsTo (Claim.cellOf s.byte k) (Claim.cellOf g k) x ∧ ∀ key, key < k ∨ k + 16 ≤ key → g key = s.byte key := by
  have hold : e.bytes.foldr (fun b n => (s.byte b.key).toNat + 256 * n) 0 = Claim.cellOf s.byte k := by
    have h := congrArg (List.foldr (fun key n => (s.byte key).toNat + 256 * n) 0) hk
    rwa [List.foldr_map, List.foldr_map] at h
  obtain ⟨hadds, hlt⟩ := addsTo_cellAdd (cellOf_lt s.byte k) x
  simp only [hold, hk, lastWritten_bytesOf] at hg
  refine ⟨?_, fun key h => ?_⟩
  · have hnew : Claim.cellOf g k = cellAdd (Claim.cellOf s.byte k) x.toNat := by
      refine (foldr_bytes g 16 k (cellAdd (Claim.cellOf s.byte k) x.toNat) fun i hi => ?_).trans (Nat.mod_eq_of_lt (by simpa using hlt))
      rw [hg, if_pos (by omega), Nat.add_sub_cancel_left]
    rw [hnew]; exact hadds
  · rw [hg, if_neg (by omega)]

/-- Such an entry writes memory alone, and performs as the spec gives it. -/
theorem applyEntry_performs {s : State} (h : Nat) {e : StEntry} (he : Performable s e) :
    (applyEntry s h e).all Act.isMem = true ∧ Claim.performs e s.byte (s.applyAll (applyEntry s h e)).byte := by
  unfold applyEntry Claim.performs
  rcases he with ⟨hk, hup⟩ | hk | hk | ⟨x, k, hk, hkeys⟩ <;> simp only [hk]
  · have hall : (e.bytes.filter fun b => !s.peerDown b.key) = e.bytes := List.filter_eq_self.mpr fun b hb => by rw [hup b hb]; rfl
    rw [hall]
    exact ⟨memWrite_isMem _ _, fun key => by rw [byte_memWrite, lastWritten_bytes]⟩
  · exact ⟨memWrite_isMem _ _, fun key => by rw [byte_memWrite, lastWritten_bytes]⟩
  · exact ⟨rfl, rfl⟩
  · exact ⟨memWrite_isMem _ _, k, hkeys, afadd_performs hkeys fun key => byte_memWrite _ _ _ _⟩

/-- Writes of memory bring no route down. -/
theorem Performable.applyAll {s : State} {l : List Act} (hl : l.all Act.isMem = true) {e : StEntry} (he : Performable s e) :
    Performable (s.applyAll l) e := by
  rw [(applyAll_mem l s hl).1]; exact he

theorem applyEntries_append (h : Nat) (l m : List StEntry) : ∀ s : State,
    applyEntries h s (l ++ m) = applyEntries h s l ++ applyEntries h (s.applyAll (applyEntries h s l)) m := by
  induction l with
  | nil => exact fun _ => rfl
  | cons e l ih =>
    intro s
    simp only [List.cons_append, applyEntries, ih, State.applyAll_append, List.append_assoc]

theorem applyEntries_isMem (h : Nat) (l : List StEntry) : ∀ s : State, (∀ e ∈ l, Performable s e) → (applyEntries h s l).all Act.isMem = true := by
  induction l with
  | nil => exact fun _ _ => rfl
  | cons e l ih =>
    intro s hs
    obtain ⟨hmem, -⟩ := applyEntry_performs h (hs e List.mem_cons_self)
    rw [applyEntries, List.all_append, hmem, Bool.true_and]
    exact ih _ fun e he => (hs e (List.mem_cons_of_mem _ he)).applyAll hmem

/-- The event releases nothing more, and its entries' writes reach memory alone. -/
theorem exec_stagedWriteApply {s : State} (hs : ∀ e ∈ s.rr.released, Performable s e) : ∃ t, exec .stagedWriteApply s = .next t ∧
    t.cores = s.cores ∧ t.rr = { s.rr with released := [] } ∧
    ∀ key, t.byte key = (s.applyAll (applyEntries s.rr.handle s s.rr.released)).byte key := by
  have hmem := applyEntries_isMem s.rr.handle s.rr.released s hs
  obtain ⟨hrest, hbyte⟩ := applyAll_mem _ (Act.apply s (.reg s.ctx (.put { s.rr with released := [] }))) hmem
  refine ⟨_, rfl, ?_, ?_, fun key => ?_⟩
  · show (State.applyAll (Act.apply s (.reg s.ctx (.put { s.rr with released := [] }))) _).cores = _
    rw [hrest]; rfl
  · show (State.applyAll (Act.apply s (.reg s.ctx (.put { s.rr with released := [] }))) _).rr = _
    rw [hrest]
    exact Act.reg_region_same s s.ctx (.put { s.rr with released := [] })
  · rw [(applyAll_mem _ s hmem).2]
    exact hbyte key

/-- The bytes after stores, ACELLs and marks: the last value written to each. -/
theorem byte_applyEntries_stores (h : Nat) (l : List StEntry) : ∀ s : State,
    (∀ e ∈ l, (e.kind = .store ∧ ∀ b ∈ e.bytes, s.peerDown b.key = false) ∨ e.kind = .acell ∨ e.kind = .mark) → ∀ key,
    (s.applyAll (applyEntries h s l)).byte key =
      Claim.lastOf ((l.filter fun e => e.kind ≠ .mark).flatMap StEntry.bytes) key (s.byte key) := by
  induction l with
  | nil => exact fun _ _ _ => rfl
  | cons e l ih =>
    intro s hs key
    have he := hs e List.mem_cons_self
    obtain ⟨hmem, hperf⟩ := applyEntry_performs (s := s) h (e := e) (by unfold Performable; tauto)
    have htail := ih (s.applyAll (applyEntry s h e)) (fun x hx => by
      rw [(applyAll_mem _ s hmem).1]; exact hs x (List.mem_cons_of_mem _ hx)) key
    rw [applyEntries, State.applyAll_append, htail]
    unfold Claim.performs at hperf
    rcases he with ⟨hk, -⟩ | hk | hk <;> simp only [hk] at hperf
    · rw [hperf, List.filter_cons_of_pos (by simp [hk]), List.flatMap_cons, lastOf_append]
    · rw [hperf, List.filter_cons_of_pos (by simp [hk]), List.flatMap_cons, lastOf_append]
    · rw [hperf, List.filter_cons_of_neg (by simp [hk])]

/-- R27, R160, R240: each byte holds the last value released to it. -/
theorem stagedWritesApply : Claim.StagedWritesApply := by
  intro s hs
  obtain ⟨t, ht, hcores, hrr, hbyte⟩ := exec_stagedWriteApply (s := s) fun e he => by
    have h := hs e he
    unfold Performable; tauto
  exact ⟨t, ht, hcores, hrr, fun key => (hbyte key).trans (byte_applyEntries_stores _ _ s hs key)⟩

/-- R153, R159, R160, R240: the memory between two entries is the one that the entries so far leave. -/
theorem stagedAddsApply : Claim.StagedAddsApply := by
  intro s hs
  obtain ⟨t, ht, hcores, hrr, hbyte⟩ := exec_stagedWriteApply (s := s) hs
  refine ⟨t, fun i => (s.applyAll (applyEntries s.rr.handle s (s.rr.released.take i))).byte,
    ht, hcores, hrr, fun _ => rfl, fun key => ?_, fun i e he => ?_⟩
  · rw [hbyte]; dsimp only; rw [List.take_length]
  · have hmem := applyEntries_isMem s.rr.handle (s.rr.released.take i) s fun x hx => hs x (List.mem_of_mem_take hx)
    have hperf : Performable s e := hs e (List.mem_of_getElem? he)
    have hsplit : s.rr.released.take (i + 1) = s.rr.released.take i ++ [e] := by rw [List.take_add_one, he]; rfl
    dsimp only
    rw [hsplit, applyEntries_append, State.applyAll_append]
    simp only [applyEntries, List.append_nil]
    exact (applyEntry_performs _ (hperf.applyAll hmem)).2

/-- Settles O53, from its four claims: the commit with room and without, the save at a safe point,
and the released writes without and with cells. -/
theorem instantsCommit : Obligations.InstantsCommit :=
  ⟨instantsCommit_room, savesAtACommit, stagedWritesApply, stagedAddsApply⟩

end Sys2Proof.Machine
end

section
/-! SUPPORT. The encoder and the decoder agree, both ways round: every well-formed word's encoding decodes to it, and every word that
decodes is the encoding of what it decodes to (R31, R35, R37, R40, R41). -/

namespace Sys2Proof

/-! ## From the instruction to its word -/

/-- A well-formed instruction word is what its encoding decodes to: each constructor has its own round trip. -/
theorem decode_encode {i : Instr} (hw : i.isWord = true) (hf : i.wellFormed = true) : decode (encode i) i.literal = .ok i := by
  cases i with
  | add a b c => exact Laws.RoundTrip.add a b c hf
  | sub a b c => exact Laws.RoundTrip.sub a b c hf
  | mul a b c => exact Laws.RoundTrip.mul a b c hf
  | mulh a b c => exact Laws.RoundTrip.mulh a b c hf
  | mulhu a b c => exact Laws.RoundTrip.mulhu a b c hf
  | div a b c => exact Laws.RoundTrip.div a b c hf
  | divu a b c => exact Laws.RoundTrip.divu a b c hf
  | rem a b c => exact Laws.RoundTrip.rem a b c hf
  | remu a b c => exact Laws.RoundTrip.remu a b c hf
  | andS a b c => exact Laws.RoundTrip.andS a b c hf
  | orS a b c => exact Laws.RoundTrip.orS a b c hf
  | xorS a b c => exact Laws.RoundTrip.xorS a b c hf
  | andn a b c => exact Laws.RoundTrip.andn a b c hf
  | shl a b c => exact Laws.RoundTrip.shl a b c hf
  | shr a b c => exact Laws.RoundTrip.shr a b c hf
  | sra a b c => exact Laws.RoundTrip.sra a b c hf
  | rot a b c => exact Laws.RoundTrip.rot a b c hf
  | min a b c => exact Laws.RoundTrip.min a b c hf
  | max a b c => exact Laws.RoundTrip.max a b c hf
  | minu a b c => exact Laws.RoundTrip.minu a b c hf
  | maxu a b c => exact Laws.RoundTrip.maxu a b c hf
  | seq a b c => exact Laws.RoundTrip.seq a b c hf
  | slt a b c => exact Laws.RoundTrip.slt a b c hf
  | sltu a b c => exact Laws.RoundTrip.sltu a b c hf
  | sel a b c => exact Laws.RoundTrip.sel a b c hf
  | clz a b => exact Laws.RoundTrip.clz a b hf
  | ctz a b => exact Laws.RoundTrip.ctz a b hf
  | popc a b => exact Laws.RoundTrip.popc a b hf
  | addsat a b c => exact Laws.RoundTrip.addsat a b c hf
  | subsat a b c => exact Laws.RoundTrip.subsat a b c hf
  | bext a b c => exact Laws.RoundTrip.bext a b c hf
  | bins a b c => exact Laws.RoundTrip.bins a b c hf
  | addi a b c => exact Laws.RoundTrip.addi a b c hf
  | andi a b c => exact Laws.RoundTrip.andi a b c hf
  | ori a b c => exact Laws.RoundTrip.ori a b c hf
  | xori a b c => exact Laws.RoundTrip.xori a b c hf
  | shli a b c => exact Laws.RoundTrip.shli a b c hf
  | shri a b c => exact Laws.RoundTrip.shri a b c hf
  | srai a b c => exact Laws.RoundTrip.srai a b c hf
  | slti a b c => exact Laws.RoundTrip.slti a b c hf
  | movi a b => exact Laws.RoundTrip.movi a b hf
  | insh a b => exact Laws.RoundTrip.insh a b hf
  | inst a b => exact Laws.RoundTrip.inst a b hf
  | movf a b => exact Laws.RoundTrip.movf a b hf
  | idle a => exact Laws.RoundTrip.idle a hf
  | jmp a => exact Laws.RoundTrip.jmp a hf
  | bnz a b => exact Laws.RoundTrip.bnz a b hf
  | bz a b => exact Laws.RoundTrip.bz a b hf
  | call a => exact Laws.RoundTrip.call a hf
  | loop a b c => exact Laws.RoundTrip.loop a b c hf
  | loops a b c => exact Laws.RoundTrip.loops a b c hf
  | segb a b => exact Laws.RoundTrip.segb a b hf
  | sege a => exact Laws.RoundTrip.sege a hf
  | nexts a b c => exact Laws.RoundTrip.nexts a b c hf
  | waits a => exact Laws.RoundTrip.waits a hf
  | ldb a b c => exact Laws.RoundTrip.ldb a b c hf
  | ldbu a b c => exact Laws.RoundTrip.ldbu a b c hf
  | ldh a b c => exact Laws.RoundTrip.ldh a b c hf
  | ldhu a b c => exact Laws.RoundTrip.ldhu a b c hf
  | ldw a b c => exact Laws.RoundTrip.ldw a b c hf
  | ldwu a b c => exact Laws.RoundTrip.ldwu a b c hf
  | ldd a b c => exact Laws.RoundTrip.ldd a b c hf
  | stb a b c => exact Laws.RoundTrip.stb a b c hf
  | sth a b c => exact Laws.RoundTrip.sth a b c hf
  | stw a b c => exact Laws.RoundTrip.stw a b c hf
  | std a b c => exact Laws.RoundTrip.std a b c hf
  | lwait a b => exact Laws.RoundTrip.lwait a b hf
  | aadd a b c => exact Laws.RoundTrip.aadd a b c hf
  | aand a b c => exact Laws.RoundTrip.aand a b c hf
  | aor a b c => exact Laws.RoundTrip.aor a b c hf
  | axor a b c => exact Laws.RoundTrip.axor a b c hf
  | amin a b c => exact Laws.RoundTrip.amin a b c hf
  | amax a b c => exact Laws.RoundTrip.amax a b c hf
  | aminu a b c => exact Laws.RoundTrip.aminu a b c hf
  | amaxu a b c => exact Laws.RoundTrip.amaxu a b c hf
  | aswap a b c => exact Laws.RoundTrip.aswap a b c hf
  | acas a b c => exact Laws.RoundTrip.acas a b c hf
  | afadd a b => exact Laws.RoundTrip.afadd a b hf
  | acell a b => exact Laws.RoundTrip.acell a b hf
  | acrd a b => exact Laws.RoundTrip.acrd a b hf
  | acflg a b c => exact Laws.RoundTrip.acflg a b c hf
  | mwait a b c d => exact Laws.RoundTrip.mwait a b c d hf
  | qwait a b => exact Laws.RoundTrip.qwait a b hf
  | ckdef a b c d => exact Laws.RoundTrip.ckdef a b c d hf
  | ckneg a b => exact Laws.RoundTrip.ckneg a b hf
  | when a b c => exact Laws.RoundTrip.when a b c hf
  | whenT a b c => exact Laws.RoundTrip.whenT a b c hf
  | merge a b c => exact Laws.RoundTrip.merge a b c hf
  | mergeT a b c => exact Laws.RoundTrip.mergeT a b c hf
  | dlyi a b c => exact Laws.RoundTrip.dlyi a b c hf
  | dlyr a b => exact Laws.RoundTrip.dlyr a b hf
  | dlyw a b => exact Laws.RoundTrip.dlyw a b hf
  | cktst a b => exact Laws.RoundTrip.cktst a b hf
  | ckstat a b => exact Laws.RoundTrip.ckstat a b hf
  | rbegin a => exact Laws.RoundTrip.rbegin a hf
  | rpresvS a b => exact Laws.RoundTrip.rpresvS a b hf
  | rpresvT a b => exact Laws.RoundTrip.rpresvT a b hf
  | rpresvM a b => exact Laws.RoundTrip.rpresvM a b hf
  | rpresvC a => exact Laws.RoundTrip.rpresvC a hf
  | rend a => exact Laws.RoundTrip.rend a hf
  | rpol a => exact Laws.RoundTrip.rpol a hf
  | safept a => exact Laws.RoundTrip.safept a hf
  | csrr a b => exact Laws.RoundTrip.csrr a b hf
  | csrw a b => exact Laws.RoundTrip.csrw a b hf
  | csrs a b => exact Laws.RoundTrip.csrs a b hf
  | csrc a b => exact Laws.RoundTrip.csrc a b hf
  | trap a => exact Laws.RoundTrip.trap a hf
  | brk a => exact Laws.RoundTrip.brk a hf
  | fidel a => exact Laws.RoundTrip.fidel a hf
  | clkdiv a b => exact Laws.RoundTrip.clkdiv a b hf
  | killc a => exact Laws.RoundTrip.killc a hf
  | tlblk a b => exact Laws.RoundTrip.tlblk a b hf
  | vadd a b c d => exact Laws.RoundTrip.vadd a b c d hf
  | vsub a b c d => exact Laws.RoundTrip.vsub a b c d hf
  | vadds a b c d => exact Laws.RoundTrip.vadds a b c d hf
  | vaddsu a b c d => exact Laws.RoundTrip.vaddsu a b c d hf
  | vmul a b c d => exact Laws.RoundTrip.vmul a b c d hf
  | vmulh a b c d => exact Laws.RoundTrip.vmulh a b c d hf
  | vmin a b c d => exact Laws.RoundTrip.vmin a b c d hf
  | vmax a b c d => exact Laws.RoundTrip.vmax a b c d hf
  | vminu a b c d => exact Laws.RoundTrip.vminu a b c d hf
  | vmaxu a b c d => exact Laws.RoundTrip.vmaxu a b c d hf
  | vand a b c d => exact Laws.RoundTrip.vand a b c d hf
  | vor a b c d => exact Laws.RoundTrip.vor a b c d hf
  | vxor a b c d => exact Laws.RoundTrip.vxor a b c d hf
  | vshl a b c d => exact Laws.RoundTrip.vshl a b c d hf
  | vshr a b c d => exact Laws.RoundTrip.vshr a b c d hf
  | vsra a b c d => exact Laws.RoundTrip.vsra a b c d hf
  | vfadd a b c d => exact Laws.RoundTrip.vfadd a b c d hf
  | vfsub a b c d => exact Laws.RoundTrip.vfsub a b c d hf
  | vfmul a b c d => exact Laws.RoundTrip.vfmul a b c d hf
  | vfma a b c d => exact Laws.RoundTrip.vfma a b c d hf
  | vfmin a b c d => exact Laws.RoundTrip.vfmin a b c d hf
  | vfmax a b c d => exact Laws.RoundTrip.vfmax a b c d hf
  | vfabs a b c => exact Laws.RoundTrip.vfabs a b c hf
  | vfneg a b c => exact Laws.RoundTrip.vfneg a b c hf
  | vfrcp a b c => exact Laws.RoundTrip.vfrcp a b c hf
  | vfrsq a b c => exact Laws.RoundTrip.vfrsq a b c hf
  | vfexp2 a b c => exact Laws.RoundTrip.vfexp2 a b c hf
  | vflog2 a b c => exact Laws.RoundTrip.vflog2 a b c hf
  | vfrsum a b c => exact Laws.RoundTrip.vfrsum a b c hf
  | vfrmax a b c => exact Laws.RoundTrip.vfrmax a b c hf
  | vfscl a b c d => exact Laws.RoundTrip.vfscl a b c d hf
  | vfcpy a b c d => exact Laws.RoundTrip.vfcpy a b c d hf
  | vcvt a b c d e => exact Laws.RoundTrip.vcvt a b c d e hf
  | vexp a b c => exact Laws.RoundTrip.vexp a b c hf
  | vmxs a b => exact Laws.RoundTrip.vmxs a b hf
  | vcmpeq a b c => exact Laws.RoundTrip.vcmpeq a b c hf
  | vcmplt a b c => exact Laws.RoundTrip.vcmplt a b c hf
  | vcmple a b c => exact Laws.RoundTrip.vcmple a b c hf
  | vfcmpeq a b c => exact Laws.RoundTrip.vfcmpeq a b c hf
  | vfcmplt a b c => exact Laws.RoundTrip.vfcmplt a b c hf
  | vfcmple a b c => exact Laws.RoundTrip.vfcmple a b c hf
  | vsel a b c => exact Laws.RoundTrip.vsel a b c hf
  | vtrn a b => exact Laws.RoundTrip.vtrn a b hf
  | vbcr a b c => exact Laws.RoundTrip.vbcr a b c hf
  | vshuf a b c => exact Laws.RoundTrip.vshuf a b c hf
  | vmov a b => exact Laws.RoundTrip.vmov a b hf
  | vrot a b c => exact Laws.RoundTrip.vrot a b c hf
  | vpck a b c => exact Laws.RoundTrip.vpck a b c hf
  | vupk a b => exact Laws.RoundTrip.vupk a b hf
  | viota a => exact Laws.RoundTrip.viota a hf
  | vget a b c => exact Laws.RoundTrip.vget a b c hf
  | vput a b c => exact Laws.RoundTrip.vput a b c hf
  | vsete a b => exact Laws.RoundTrip.vsete a b hf
  | tld a b c => exact Laws.RoundTrip.tld a b c hf
  | tst a b c => exact Laws.RoundTrip.tst a b c hf
  | tlds a b c => exact Laws.RoundTrip.tlds a b c hf
  | tsts a b c => exact Laws.RoundTrip.tsts a b c hf
  | tstm a b c => exact Laws.RoundTrip.tstm a b c hf
  | tlook a b => exact Laws.RoundTrip.tlook a b hf
  | tins a b c => exact Laws.RoundTrip.tins a b c hf
  | tevt a b => exact Laws.RoundTrip.tevt a b hf
  | tagrd a b => exact Laws.RoundTrip.tagrd a b hf
  | mma a b c d e f g => exact Laws.RoundTrip.mma a b c d e f g hf
  | mldb a b c d e => exact Laws.RoundTrip.mldb a b c d e hf
  | mdrn a b c d => exact Laws.RoundTrip.mdrn a b c d hf
  | mzero a b c => exact Laws.RoundTrip.mzero a b c hf
  | mfmt a b => exact Laws.RoundTrip.mfmt a b hf
  | mhst a => exact Laws.RoundTrip.mhst a hf
  | cpt a b c d e => exact Laws.RoundTrip.cpt a b c d e hf
  | cpa a b c d e => exact Laws.RoundTrip.cpa a b c d e hf
  | cpm a b c d => exact Laws.RoundTrip.cpm a b c d hf
  | cpl a b c => exact Laws.RoundTrip.cpl a b c hf
  | cpk a b c d e => exact Laws.RoundTrip.cpk a b c d e hf
  | sbini a b => exact Laws.RoundTrip.sbini a b hf
  | sbarr a b => exact Laws.RoundTrip.sbarr a b hf
  | sbwt a b c => exact Laws.RoundTrip.sbwt a b c hf
  | run a b c => exact Laws.RoundTrip.run a b c hf
  | runs a b c d => exact Laws.RoundTrip.runs a b c d hf
  | loopb a b c d => exact Laws.RoundTrip.loopb a b c d hf
  | pace a b => exact Laws.RoundTrip.pace a b hf
  | sigt a => exact Laws.RoundTrip.sigt a hf
  | waitt a b => exact Laws.RoundTrip.waitt a b hf
  | guard a b c d e f g => exact Laws.RoundTrip.guard a b c d e f g hf
  | pset a b => exact Laws.RoundTrip.pset a b hf
  | pinv a => exact Laws.RoundTrip.pinv a hf
  | qdrn a b => exact Laws.RoundTrip.qdrn a b hf
  | qseq a b c => exact Laws.RoundTrip.qseq a b c hf
  | tblw a b c => exact Laws.RoundTrip.tblw a b c hf
  | lsend a b => exact Laws.RoundTrip.lsend a b hf
  | lrecv a b => exact Laws.RoundTrip.lrecv a b hf
  | bar a => exact Laws.RoundTrip.bar a hf
  | barw a b => exact Laws.RoundTrip.barw a b hf
  | chwr a b => exact Laws.RoundTrip.chwr a b hf
  | chrd a b c => exact Laws.RoundTrip.chrd a b c hf
  | chpop a => exact Laws.RoundTrip.chpop a hf
  | nodeq a => exact Laws.RoundTrip.nodeq a hf
  | glnch a => exact Laws.RoundTrip.glnch a hf
  | ret => exact Laws.RoundTrip.ret hf
  | endi => exact Laws.RoundTrip.endi hf
  | kend => exact Laws.RoundTrip.kend hf
  | fenceAcq => exact Laws.RoundTrip.fenceAcq hf
  | fenceRel => exact Laws.RoundTrip.fenceRel hf
  | fenceFull => exact Laws.RoundTrip.fenceFull hf
  | fenceAlias => exact Laws.RoundTrip.fenceAlias hf
  | rabort => exact Laws.RoundTrip.rabort hf
  | tret => exact Laws.RoundTrip.tret hf
  | haltg => exact Laws.RoundTrip.haltg hf
  | _ => exact absurd hw Bool.false_ne_true

/-- Settles O42, by the round trip of each instruction. -/
theorem encodingsDecode : Obligations.EncodingsDecode := fun _ hw hf => decode_encode hw hf

/-! ## From the word to its instruction -/

section
variable {w : Nat}

/-- A field is what lies between its two ends: the word cut at its low end, less the word cut at its high end. -/
theorem div_eq_add_fld (w lo n : Nat) : w / 2 ^ lo = 2 ^ n * (w / 2 ^ (lo + n)) + fld w lo n := by
  rw [Nat.pow_add, ← Nat.div_div_eq_div_mul]
  exact (Nat.div_add_mod _ _).symm
theorem fld_eq_iff {lo n k : Nat} : fld w lo n = k ↔ w / 2 ^ lo = 2 ^ n * (w / 2 ^ (lo + n)) + k := by
  rw [div_eq_add_fld w lo n]; exact (Nat.add_left_cancel_iff).symm
theorem bits_toNat_cast (lo n : Nat) : ((bits w lo n).toNat : Int) = (w / 2 ^ lo : Nat) - 2 ^ n * (w / 2 ^ (lo + n) : Nat) := by
  have h : (bits w lo n).toNat = fld w lo n := BitVec.toNat_ofNat ..
  have hd := div_eq_add_fld w lo n
  rw [h, hd]
  push_cast
  ring

/-- What a reading of a word gives, where it gives anything, is an instruction word whose encoding is the word, the E bit apart. -/
def Faithful (w : Nat) (x : Except DecodeError Instr) : Prop := ∀ i, x = .ok i → i.isWord = true ∧ encode i = w % 2 ^ 31

/-- The word, the E bit apart, in the form in which its fields add up to it. -/
theorem faithful_ok_iff {i : Instr} : Faithful w (.ok i) ↔ i.isWord = true ∧ (encode i : Int) = (w / 2 ^ 0 : Nat) - 2147483648 * (w / 2 ^ 31 : Nat) := by
  have h : Faithful w (.ok i) ↔ i.isWord = true ∧ encode i = w % 2 ^ 31 := ⟨fun h => h i rfl, fun h _ hi => Except.ok.inj hi ▸ h⟩
  rw [h]
  refine and_congr_right fun _ => ?_
  omega
theorem faithful_error (e : DecodeError) : Faithful w (.error e) := fun _ h => nomatch h
/-- A reserved field lets a reading through where it is zero (R7). -/
theorem rsv_eq_ok {lo n : Nat} {x : Except DecodeError Instr} {i : Instr} : rsv w lo n x = .ok i ↔ fld w lo n = 0 ∧ x = .ok i := by
  unfold rsv
  split <;> simp [*]
theorem faithful_rsv_iff {lo n : Nat} {x : Except DecodeError Instr} : Faithful w (rsv w lo n x) ↔ (fld w lo n = 0 → Faithful w x) := by
  simp only [Faithful, rsv_eq_ok, and_imp, forall_comm (α := Instr)]

/-! ### Class by class: the fields read off a word add up to it -/

theorem faithful_decode0 (hc : fld w 27 4 = 0) : Faithful w (decode0 w) := by
  unfold decode0
  split <;> simp only [faithful_rsv_iff, faithful_ok_iff, faithful_error, fld_eq_iff] at * <;> delta encode Instr.isWord <;>
    simp only [Nat.cast_add, Nat.cast_mul, Nat.cast_ofNat, bits_toNat_cast, Nat.reduceAdd, Int.reducePow, true_and] at * <;> omega
theorem faithful_decode1 (hc : fld w 27 4 = 1) : Faithful w (decode1 w) := by
  unfold decode1
  split <;> simp only [faithful_rsv_iff, faithful_ok_iff, faithful_error, fld_eq_iff] at * <;> delta encode Instr.isWord <;>
    simp only [Nat.cast_add, Nat.cast_mul, Nat.cast_ofNat, bits_toNat_cast, Nat.reduceAdd, Int.reducePow, true_and] at * <;> omega
theorem faithful_decode2 (hc : fld w 27 4 = 2) : Faithful w (decode2 w) := by
  unfold decode2
  split <;> simp only [faithful_rsv_iff, faithful_ok_iff, faithful_error, fld_eq_iff] at * <;> delta encode Instr.isWord <;>
    simp only [Nat.cast_add, Nat.cast_mul, Nat.cast_ofNat, bits_toNat_cast, Nat.reduceAdd, Int.reducePow, true_and] at * <;> omega
theorem faithful_decode3 (lit : Word) (hc : fld w 27 4 = 3) : Faithful w (decode3 w lit) := by
  unfold decode3
  split <;> simp only [faithful_rsv_iff, faithful_ok_iff, faithful_error, fld_eq_iff] at * <;> delta encode Instr.isWord <;>
    simp only [Nat.cast_add, Nat.cast_mul, Nat.cast_ofNat, bits_toNat_cast, Nat.reduceAdd, Int.reducePow, true_and] at * <;> omega
theorem faithful_decode4 (hc : fld w 27 4 = 4) : Faithful w (decode4 w) := by
  unfold decode4
  split <;> (try split) <;> simp only [faithful_rsv_iff, faithful_ok_iff, faithful_error, fld_eq_iff] at * <;> delta encode Instr.isWord <;>
    simp only [Nat.cast_add, Nat.cast_mul, Nat.cast_ofNat, bits_toNat_cast, Nat.reduceAdd, Int.reducePow, true_and] at * <;> omega
theorem faithful_decode5 (hc : fld w 27 4 = 5) : Faithful w (decode5 w) := by
  unfold decode5
  split <;> (try split) <;> simp only [faithful_rsv_iff, faithful_ok_iff, faithful_error, fld_eq_iff] at * <;> delta encode Instr.isWord <;>
    simp only [Nat.cast_add, Nat.cast_mul, Nat.cast_ofNat, bits_toNat_cast, Nat.reduceAdd, Int.reducePow, true_and] at * <;> omega
theorem faithful_decode6 (hc : fld w 27 4 = 6) : Faithful w (decode6 w) := by
  unfold decode6
  split <;> simp only [faithful_rsv_iff, faithful_ok_iff, faithful_error, fld_eq_iff] at * <;> delta encode Instr.isWord <;>
    simp only [Nat.cast_add, Nat.cast_mul, Nat.cast_ofNat, bits_toNat_cast, Nat.reduceAdd, Int.reducePow, true_and] at * <;> omega
theorem faithful_decode7 (hc : fld w 27 4 = 7) : Faithful w (decode7 w) := by
  unfold decode7
  split <;> simp only [faithful_rsv_iff, faithful_ok_iff, faithful_error, fld_eq_iff] at * <;> delta encode Instr.isWord <;>
    simp only [Nat.cast_add, Nat.cast_mul, Nat.cast_ofNat, bits_toNat_cast, Nat.reduceAdd, Int.reducePow, true_and] at * <;> omega
theorem faithful_decode8 (hc : fld w 27 4 = 8) : Faithful w (decode8 w) := by
  unfold decode8
  split <;> simp only [faithful_ok_iff, faithful_error, fld_eq_iff] at * <;> delta encode Instr.isWord <;>
    simp only [Nat.cast_add, Nat.cast_mul, Nat.cast_ofNat, bits_toNat_cast, Nat.reduceAdd, Int.reducePow, true_and] at * <;> omega
theorem faithful_decode9 (hc : fld w 27 4 = 9) : Faithful w (decode9 w) := by
  unfold decode9
  split <;> simp only [faithful_rsv_iff, faithful_ok_iff, faithful_error, fld_eq_iff] at * <;> delta encode Instr.isWord <;>
    simp only [Nat.cast_add, Nat.cast_mul, Nat.cast_ofNat, bits_toNat_cast, Nat.reduceAdd, Int.reducePow, true_and] at * <;> omega
theorem faithful_decode10 (hc : fld w 27 4 = 10) : Faithful w (decode10 w) := by
  unfold decode10
  split <;> (try split) <;> simp only [faithful_rsv_iff, faithful_ok_iff, faithful_error, fld_eq_iff] at * <;> delta encode Instr.isWord <;>
    simp only [Nat.cast_add, Nat.cast_mul, Nat.cast_ofNat, bits_toNat_cast, Nat.reduceAdd, Int.reducePow, true_and] at * <;> omega
theorem faithful_decode11 (hc : fld w 27 4 = 11) : Faithful w (decode11 w) := by
  unfold decode11
  split <;> simp only [faithful_rsv_iff, faithful_ok_iff, faithful_error, fld_eq_iff] at * <;> delta encode Instr.isWord <;>
    simp only [Nat.cast_add, Nat.cast_mul, Nat.cast_ofNat, bits_toNat_cast, Nat.reduceAdd, Int.reducePow, true_and] at * <;> omega
theorem faithful_decode12 (hc : fld w 27 4 = 12) : Faithful w (decode12 w) := by
  unfold decode12
  split <;> simp only [faithful_rsv_iff, faithful_ok_iff, faithful_error, fld_eq_iff] at * <;> delta encode Instr.isWord <;>
    simp only [Nat.cast_add, Nat.cast_mul, Nat.cast_ofNat, bits_toNat_cast, Nat.reduceAdd, Int.reducePow, true_and] at * <;> omega
theorem faithful_decode13 (hc : fld w 27 4 = 13) : Faithful w (decode13 w) := by
  unfold decode13
  split <;> simp only [faithful_rsv_iff, faithful_ok_iff, faithful_error, fld_eq_iff] at * <;> delta encode Instr.isWord <;>
    simp only [Nat.cast_add, Nat.cast_mul, Nat.cast_ofNat, bits_toNat_cast, Nat.reduceAdd, Int.reducePow, true_and] at * <;> omega
theorem faithful_decode14 (lit : Word) (hc : fld w 27 4 = 14) : Faithful w (decode14 w lit) := by
  unfold decode14
  split <;> simp only [faithful_rsv_iff, faithful_ok_iff, faithful_error, fld_eq_iff] at * <;> delta encode Instr.isWord <;>
    simp only [Nat.cast_add, Nat.cast_mul, Nat.cast_ofNat, bits_toNat_cast, Nat.reduceAdd, Int.reducePow, true_and] at * <;> omega
theorem faithful_decode15 (hc : fld w 27 4 = 15) : Faithful w (decode15 w) := by
  unfold decode15
  split <;> simp only [faithful_rsv_iff, faithful_ok_iff, faithful_error, fld_eq_iff] at * <;> delta encode Instr.isWord <;>
    simp only [Nat.cast_add, Nat.cast_mul, Nat.cast_ofNat, bits_toNat_cast, Nat.reduceAdd, Int.reducePow, true_and] at * <;> omega

/-- Every class reads a word whole. -/
theorem faithful_decodeRaw (w : Nat) (lit : Word) : Faithful w (decodeRaw w lit) := by
  have hlt : fld w 27 4 < 16 := Nat.mod_lt _ (by decide)
  unfold decodeRaw
  split
  · exact faithful_decode0 ‹_›
  · exact faithful_decode1 ‹_›
  · exact faithful_decode2 ‹_›
  · exact faithful_decode3 lit ‹_›
  · exact faithful_decode4 ‹_›
  · exact faithful_decode5 ‹_›
  · exact faithful_decode6 ‹_›
  · exact faithful_decode7 ‹_›
  · exact faithful_decode8 ‹_›
  · exact faithful_decode9 ‹_›
  · exact faithful_decode10 ‹_›
  · exact faithful_decode11 ‹_›
  · exact faithful_decode12 ‹_›
  · exact faithful_decode13 ‹_›
  · exact faithful_decode14 lit ‹_›
  · refine faithful_decode15 ?_
    simp only [imp_false] at *
    omega

/-! ### The literal (R35) -/

/-- The words that take a literal are SEGE, RUNS and LOOPB, by their class and code. -/
theorem code_of_takesLiteral (h : takesLiteral (w % 2 ^ 31) = true) :
    fld w 27 4 = 3 ∧ fld w 23 4 = 9 ∨ fld w 27 4 = 14 ∧ (fld w 23 4 = 1 ∨ fld w 23 4 = 2) := by
  have hcode : fld (w % 2 ^ 31) 23 8 = fld w 23 8 := by simp only [fld]; omega
  have hclass : w / 2 ^ 27 = w / 2 ^ 23 / 2 ^ 4 := by rw [Nat.div_div_eq_div_mul, ← Nat.pow_add]
  simp only [takesLiteral, hcode, decide_eq_true_eq] at h
  simp only [fld, hclass] at h ⊢
  omega
theorem literal_of_decode3 {lit : Word} {i : Instr} (h : decode3 w lit = .ok i) (hop : fld w 23 4 = 9) : i.literal = lit := by
  simp only [decode3, hop, rsv_eq_ok, Except.ok.injEq] at h
  rw [← h.2]; rfl
theorem literal_of_decode14 {lit : Word} {i : Instr} (h : decode14 w lit = .ok i) (hop : fld w 23 4 = 1 ∨ fld w 23 4 = 2) : i.literal = lit := by
  rcases hop with hop | hop <;> simp only [decode14, hop, rsv_eq_ok, Except.ok.injEq] at h
  · rw [← h.2]; rfl
  · rw [← h]; rfl
theorem literal_of_decodeRaw {lit : Word} {i : Instr} (h : decodeRaw w lit = .ok i) (ht : takesLiteral (w % 2 ^ 31) = true) : i.literal = lit := by
  rcases code_of_takesLiteral ht with ⟨hc, hop⟩ | ⟨hc, hop⟩
  · exact literal_of_decode3 (decodeRaw_class3 lit hc ▸ h) hop
  · exact literal_of_decode14 (decodeRaw_class14 lit hc ▸ h) hop

/-- What decodes is the raw reading, and it keeps its field limits (R41). -/
theorem decode_eq_ok_iff {lit : Word} {i : Instr} : decode w lit = .ok i ↔ decodeRaw w lit = .ok i ∧ i.wellFormed = true := by
  unfold decode
  cases decodeRaw w lit with
  | error e => simp
  | ok j =>
    dsimp only
    split <;> aesop

/-- Settles O43: a word is read whole, class by class, and a literal word gives its literal. -/
theorem decodedWordsEncode : Obligations.DecodedWordsEncode := by
  intro w lit i h
  obtain ⟨hraw, hf⟩ := decode_eq_ok_iff.mp h
  obtain ⟨hw, he⟩ := faithful_decodeRaw w lit i hraw
  exact ⟨hw, hf, he, literal_of_decodeRaw hraw⟩

end
end Sys2Proof
end

section
/-! SUPPORT. Every word acts by its plan (R32, R33). -/

namespace Sys2Proof.Machine

/-- An instruction word does what its plan says; an event has no plan. -/
theorem exec_eq_resolve {i : Instr} (hw : i.isWord = true) (s : State) : exec i s = resolve s (planWord i s) := by
  cases i <;> cases hw <;> rfl

end Sys2Proof.Machine
end

section
/-! SUPPORT. The words that an engine executes, as the control core issues them: each places a one-step entry behind its engine's queue
(R33, R42, R140, R176). -/

namespace Sys2Proof.Machine

open Sys2Proof.Claim hiding fits

/-! ## Which words an engine executes (R42) -/

/-- The engine of a word by its name, as R307 numbers the units: 0 MX, 1 VX, 2 CP, and 3 the control core. -/
def engineNumber : Instr → Nat
  | .mma .. | .mldb .. | .mdrn .. | .mzero .. | .mfmt .. | .mhst .. => 0
  | .vadd .. | .vsub .. | .vadds .. | .vaddsu .. | .vmul .. | .vmulh .. | .vmin .. | .vmax .. | .vminu .. | .vmaxu .. | .vand .. | .vor ..
  | .vxor .. | .vshl .. | .vshr .. | .vsra .. => 1
  | .vfadd .. | .vfsub .. | .vfmul .. | .vfma .. | .vfmin .. | .vfmax .. | .vfabs .. | .vfneg .. | .vfrcp .. | .vfrsq .. | .vfexp2 ..
  | .vflog2 .. | .vfrsum .. | .vfrmax .. | .vfscl .. | .vfcpy .. => 1
  | .vcvt .. | .vexp .. | .vmxs .. | .vcmpeq .. | .vcmplt .. | .vcmple .. | .vfcmpeq .. | .vfcmplt .. | .vfcmple .. | .vsel .. | .vtrn ..
  | .vbcr .. | .vshuf .. | .vmov .. | .vrot .. | .vpck .. | .vupk .. | .viota .. | .vget .. | .vput .. | .vsete .. => 1
  | .cpt .. | .cpa .. | .cpm .. | .cpl .. | .cpk .. => 2
  | _ => 3

/-! An engine's words lie together among the encodings: VX's classes 8 to 10, MX's class 12, and CP's part of class 13. -/

theorem encode_lt (i : Instr) : encode i < 2147483648 := by
  cases i <;> dsimp only [encode] <;> omega
theorem engineNumber_of_class12 {i : Instr} (h : 1610612736 ≤ encode i) (h' : encode i < 1744830464) : engineNumber i = 0 := by
  cases i <;> dsimp only [encode, engineNumber] at * <;> omega
theorem engineNumber_of_class8_to_10 {i : Instr} (h : 1073741824 ≤ encode i) (h' : encode i < 1476395008) : engineNumber i = 1 := by
  cases i <;> dsimp only [encode, engineNumber] at * <;> omega
theorem engineNumber_of_copy {i : Instr} (h : 1744830464 ≤ encode i) (h' : encode i < 1828716544) : engineNumber i = 2 := by
  cases i <;> dsimp only [encode, engineNumber] at * <;> omega
/-- The engine that the bits of a word's encoding give is the one that its name gives. -/
theorem engineNumber_of_engineOf {i : Instr} {e : Nat} (h : engineOf i = some e) : engineNumber i = e ∧ e < 3 := by
  have hlt := encode_lt i
  unfold engineOf at h
  split at h
  · exact nomatch h
  · dsimp only at h
    split_ifs at h with h12 h8 h13 <;> cases h
    · exact ⟨engineNumber_of_class12 (by omega) (by omega), by decide⟩
    · exact ⟨engineNumber_of_class8_to_10 (by omega) (by omega), by decide⟩
    · exact ⟨engineNumber_of_copy (by omega) (by omega), by decide⟩

/-! ## A word that is placed (R33, R42) -/

/-- Every register, tile, accumulator and slot of the acting core has the tag k0. -/
def Untagged (s : State) : Prop := (∀ r, s.tag r = 0) ∧ ∀ x, s.cc.ttag x = 0 ∧ s.cc.atag x = 0 ∧ s.cc.btag x = 0
/-- A plan that places its word behind engine e's queue once some tags agree, which are all k0 where every register is untagged: MZERO,
which names its own tag, apart. -/
def Places (s : State) (e : Nat) (i : Instr) (p : Plan) : Prop :=
  ∃ tags, p = s.place e i tags ∧ (Untagged s → (∀ c k m, i ≠ .mzero c k m) → ∀ t ∈ tags, t = 0)

/-- The tags of a step are those of its tiles, its scalars and its other sources. -/
theorem EStep.allTags_untagged {s : State} {p : EStep} (h : Untagged s) (hp : ∀ t ∈ p.tags, t = 0) : ∀ t ∈ p.allTags s.cc, t = 0 := by
  obtain ⟨hreg, htile⟩ := h
  intro t ht
  simp only [EStep.allTags, List.mem_append, List.mem_map] at ht
  rcases ht with ((⟨x, -, rfl⟩ | ⟨r, -, rfl⟩) | ht) | ht
  · exact (htile x).1
  · exact hreg r
  · exact hp t ht
  · split at ht
    · split at ht
      · rw [List.mem_singleton.mp ht]; exact (htile _).1
      · exact absurd ht List.not_mem_nil
    · exact absurd ht List.not_mem_nil

section
variable {s : State} {i : Instr} {e : Nat}

theorem engineStep_places (hc : s.actor = .control) (he : engineOf i = some e) (h2 : e ≠ 2) (p : EStep) (body : Tag → List Act)
    (hp : Untagged s → (∀ c k m, i ≠ .mzero c k m) → ∀ t ∈ p.tags, t = 0) : Places s e i (engineStep s i p body) := by
  have hcls : (if encode i / 2 ^ 27 % 16 = 12 then 0 else 1) = e := by
    unfold engineOf at he
    split at he
    · exact nomatch he
    · dsimp only at he
      split_ifs at he ⊢ <;> cases he <;> omega
  refine ⟨p.allTags s.cc, ?_, fun hs hz => EStep.allTags_untagged hs (hp hs hz)⟩
  simp only [engineStep, hc, hcls]
theorem engineStep_places_noTags (hc : s.actor = .control) (he : engineOf i = some e) (h2 : e ≠ 2) (p : EStep) (body : Tag → List Act)
    (hp : p.tags = []) : Places s e i (engineStep s i p body) :=
  engineStep_places hc he h2 p body fun _ _ => hp ▸ List.forall_mem_nil _
theorem rowStep_places (hc : s.actor = .control) (he : engineOf i = some 1) (d L : Nat) (reads : List Nat) (b : Nat) (rdDst legal : Bool)
    (sides : List Nat) : Places s 1 i (rowStep s i d L reads b rdDst legal sides) := by
  unfold rowStep
  exact engineStep_places_noTags hc he (by decide) _ _ rfl
theorem copyStep_places (hc : s.actor = .control) (a b absent : Nat) (body : Plan) : Places s 2 i (copyStep s i a b absent body) := by
  refine ⟨[s.tag a, s.tag b], ?_, fun hs _ t ht => ?_⟩
  · simp only [copyStep, hc]; rfl
  · simp only [List.mem_cons, List.not_mem_nil, or_false] at ht
    rcases ht with rfl | rfl <;> exact hs.1 _

/-- Every engine's word but MFMT is placed, by the shape of its family's plan. -/
theorem planWord_places (hc : s.actor = .control) (he : engineOf i = some e) (hm : ∀ n a, i ≠ .mfmt n a) : Places s e i (planWord i s) := by
  obtain ⟨hn, hlt⟩ := engineNumber_of_engineOf he
  cases i with
  | mfmt n a => exact absurd rfl (hm n a)
  | mma c a b f z x m =>
    obtain rfl : 0 = e := hn
    refine engineStep_places hc he (by decide) _ _ fun hs _ t ht => ?_
    simp only [List.mem_cons] at ht
    rcases ht with rfl | ht
    · exact (hs.2 _).2.2
    · split at ht
      · exact absurd ht List.not_mem_nil
      · rw [List.mem_singleton.mp ht]; exact (hs.2 _).2.1
  | mdrn c d q f =>
    obtain rfl : 0 = e := hn
    refine engineStep_places hc he (by decide) _ _ fun hs _ t ht => ?_
    simp only [List.mem_cons, List.not_mem_nil, or_false] at ht
    rcases ht with rfl | rfl
    · exact (hs.2 _).2.1
    · exact (hs.2 _).1
  | mzero c k m =>
    obtain rfl : 0 = e := hn
    exact engineStep_places hc he (by decide) _ _ fun _ hz => absurd rfl (hz c k m)
  | mhst b =>
    obtain rfl : 0 = e := hn
    show Places s 0 _ (planMhst b s)
    exact engineStep_places_noTags hc he (by decide) _ _ rfl
  | mldb =>
    obtain rfl : 0 = e := hn
    refine engineStep_places_noTags hc he (by decide) _ _ ?_
    rfl
  | vsete d v =>
    obtain rfl : 1 = e := hn
    refine ⟨[], ?_, fun _ _ => List.forall_mem_nil _⟩
    show planVsete d v s = _
    simp only [planVsete, hc]
  | cpt | cpa | cpm | cpl | cpk =>
    obtain rfl : 2 = e := hn
    exact copyStep_places hc _ _ _ _
  | vtrn | vbcr | vget | vput =>
    obtain rfl : 1 = e := hn
    refine engineStep_places_noTags hc he (by decide) _ _ ?_
    rfl
  | vadd | vsub | vadds | vaddsu | vmul | vmulh | vmin | vmax | vminu | vmaxu | vand | vor | vxor | vshl | vshr | vsra
  | vfadd | vfsub | vfmul | vfma | vfmin | vfmax | vfabs | vfneg | vfrcp | vfrsq | vfexp2 | vflog2 | vfrsum | vfrmax | vfscl | vfcpy
  | vcvt | vexp | vmxs | vcmpeq | vcmplt | vcmple | vfcmpeq | vfcmplt | vfcmple | vsel | vshuf | vmov | vrot | vpck | vupk | viota =>
    obtain rfl : 1 = e := hn
    exact rowStep_places hc he ..
  | _ => exact absurd (show 3 = e from hn) (Nat.ne_of_gt hlt)
end

/-! ## How a placed word ends (R33, R140, R176) -/

theorem Core.commonFrom_zero (c : Core) : ∀ l : List Tag, (∀ t ∈ l, t = 0) → c.commonFrom 0 l = some 0
  | [], _ => rfl
  | t :: l, h => by
    obtain rfl := h t List.mem_cons_self
    have ih := c.commonFrom_zero l fun t ht => h t (List.mem_cons_of_mem _ ht)
    have h0 : c.defined 0 = true := rfl
    simp only [Core.commonFrom, h0, Bool.not_true, Bool.false_eq_true, if_false, if_true, ih]

section
variable {s : State} {i : Instr} {e : Nat} {p : Plan}

theorem State.timed_control (hc : s.actor = .control) : s.timed = s.inSeg := by simp only [State.timed, hc]
theorem queueFree_of_lt {c : Core} (h : (c.eng e).queue.length < 32) : queueFree c e = true := decide_eq_true h
theorem queueFree_of_le {c : Core} (h : 32 ≤ (c.eng e).queue.length) : queueFree c e = false := decide_eq_false (Nat.not_lt.mpr h)

/-- At a queue with room the entry is placed, or the tags disagree. -/
theorem Places.of_room (h : Places s e i p) (hq : (s.cc.eng e).queue.length < 32) :
    p = .acts [s.upd (.engPush e (s.oneStep i))] ∨ p = s.trap CLOCK := by
  obtain ⟨tags, rfl, -⟩ := h
  rw [State.place, queueFree_of_lt hq, State.unless_true]
  cases s.cc.common tags with
  | none => exact .inr rfl
  | some t => exact .inl rfl
theorem Places.of_untagged (h : Places s e i p) (hq : (s.cc.eng e).queue.length < 32) (hs : Untagged s) (hz : ∀ c k m, i ≠ .mzero c k m) :
    p = .acts [s.upd (.engPush e (s.oneStep i))] := by
  obtain ⟨tags, rfl, ht⟩ := h
  have hcommon : s.cc.common tags = some 0 := Core.commonFrom_zero _ _ (ht hs hz)
  simp only [State.place, queueFree_of_lt hq, State.unless_true, hcommon]
/-- At a full queue its turn never comes. -/
theorem Places.of_full (h : Places s e i p) (hc : s.actor = .control) (hq : 32 ≤ (s.cc.eng e).queue.length) :
    p = if s.inSeg then s.sched 2 e else .hold [] := by
  obtain ⟨tags, rfl, -⟩ := h
  simp only [State.place, queueFree_of_le hq, State.unless, Bool.false_eq_true, if_false, State.timed_control hc]

/-- The word is an MFMT whose tag is neither k0 nor k1 (R140). -/
def MistaggedFormat (s : State) (i : Instr) : Prop := ∃ n a, i = .mfmt n a ∧ ¬ (s.tag a.toNat = 0 ∨ s.tag a.toNat = 1)

/-- MFMT holds at a full queue in elastic code; then its tag is tested; and then it is placed as any other word. -/
theorem planMfmt_control (hc : s.actor = .control) (n : BitVec 4) (a : BitVec 6) : ∃ p, Places s 0 (.mfmt n a) p ∧
    planMfmt n a s = if !queueFree s.cc 0 && !s.inSeg then .hold [] else if !steer (s.tag a.toNat) then s.trap CLOCK else p := by
  have he : engineOf (.mfmt n a) = some 0 := by
    have hcls : encode (.mfmt n a) / 2 ^ 27 % 16 = 12 := by dsimp only [encode]; omega
    simp only [engineOf, Instr.isWord, hcls, Bool.not_true, Bool.false_eq_true, if_false, if_true]
  refine ⟨engineStep s (.mfmt n a) { scal := [a.toNat], legal := fld (fld (s.val a.toNat).toNat 0 32) 0 10 = 0, occ := 1, land := 1 }
      fun _ => [s.lands 1 0 [.fmt n.toNat (BitVec.ofNat 32 (fld (s.val a.toNat).toNat 0 32))]],
    engineStep_places_noTags hc he (by decide) _ _ rfl, ?_⟩
  simp only [planMfmt, State.holdFirst, State.placeable, hc, State.timed_control hc]

theorem engineOf_isWord (he : engineOf i = some e) : i.isWord = true := by
  cases hw : i.isWord with
  | true => rfl
  | false => simp only [engineOf, hw, Bool.not_false, if_true, reduceCtorEq] at he

/-- What the plan of an engine's word is: at a full queue in elastic code it holds, a mistagged MFMT then traps, and any other word is placed. -/
theorem planWord_engine (hc : s.actor = .control) (he : engineOf i = some e) : ∃ p, Places s e i p ∧
    (32 ≤ (s.cc.eng e).queue.length → s.inSeg = false → planWord i s = .hold []) ∧
    (s.inSeg = true ∨ (s.cc.eng e).queue.length < 32 → MistaggedFormat s i → planWord i s = s.trap CLOCK) ∧
    (s.inSeg = true ∨ (s.cc.eng e).queue.length < 32 → ¬ MistaggedFormat s i → planWord i s = p) := by
  by_cases hm : ∃ n a, i = .mfmt n a
  · obtain ⟨n, a, rfl⟩ := hm
    obtain rfl : 0 = e := (engineNumber_of_engineOf he).1
    obtain ⟨p, hp, hplan⟩ := planMfmt_control hc n a
    have hword : planWord (.mfmt n a) s = planMfmt n a s := rfl
    have hgo (h : s.inSeg = true ∨ (s.cc.eng 0).queue.length < 32) : (!queueFree s.cc 0 && !s.inSeg) = false := by
      rcases h with h | h
      · rw [h, Bool.not_true, Bool.and_false]
      · rw [queueFree_of_lt h, Bool.not_true, Bool.false_and]
    refine ⟨p, hp, fun hq hs => ?_, fun h ⟨n', a', heq, ht⟩ => ?_, fun h hn => ?_⟩
    · rw [hword, hplan, queueFree_of_le hq, hs]; rfl
    · cases heq
      have hst : steer (s.tag a.toNat) = false := decide_eq_false ht
      rw [hword, hplan, hgo h, hst]; rfl
    · have hst : steer (s.tag a.toNat) = true := decide_eq_true (not_not.mp fun ht => hn ⟨n, a, rfl, ht⟩)
      rw [hword, hplan, hgo h, hst]; rfl
  · have hp := planWord_places hc he fun n a h => hm ⟨n, a, h⟩
    refine ⟨_, hp, fun hq hs => ?_, fun _ ⟨n, a, h, _⟩ => absurd ⟨n, a, h⟩ hm, fun _ _ => rfl⟩
    rw [hp.of_full hc hq, hs]; rfl

/-- A word whose plan puts its entry in the queue issues, and only the queue changes. -/
theorem exec_places (hc : s.actor = .control) (hw : i.isWord = true) (hp : planWord i s = .acts [s.upd (.engPush e (s.oneStep i))]) :
    ∃ t, exec i s = .next t ∧ Issued s t (withEntry s e i) [] :=
  exec_issues [s.upd (.engPush e (s.oneStep i))] hc (hp ▸ exec_eq_resolve hw s)
    (all_local (by simp only [State.upd, List.all_cons, List.all_nil, decide_true, Bool.and_self]))
end

/-- Settles O24: the plan of an engine's word places its entry, and `place` tests the queue, then the tags; MFMT tests its own tag between. -/
theorem engineWordsArePlaced : Obligations.EngineWordsArePlaced := by
  intro s i e hc he
  have hw := engineOf_isWord he
  obtain ⟨p, hp, hheld, hmis, hplaced⟩ := planWord_engine hc he
  have hclock (h : planWord i s = s.trap CLOCK) : ∃ t, exec i s = .next t ∧ Trapped s t (s.fault CLOCK) :=
    exec_traps _ hc ((exec_eq_resolve hw s).trans (congrArg (resolve s) h))
  refine ⟨fun hq => ?_, fun hs ht hz hq => ?_, fun hq hs => ?_, fun n a hi ht h => ?_, fun hi hq hs => ?_⟩
  · by_cases hm : MistaggedFormat s i
    · exact .inr (hclock (hmis (.inr hq) hm))
    · rcases hp.of_room hq with h | h
      · exact .inl (exec_places hc hw ((hplaced (.inr hq) hm).trans h))
      · exact .inr (hclock ((hplaced (.inr hq) hm).trans h))
  · have hm : ¬ MistaggedFormat s i := fun ⟨_, a, _, h⟩ => h (.inl (hs a.toNat))
    exact exec_places hc hw ((hplaced (.inr hq) hm).trans (hp.of_untagged hq ⟨hs, ht⟩ hz))
  · exact exec_holds hc (hheld hq hs ▸ exec_eq_resolve hw s)
  · exact hclock (hmis h ⟨n, a, hi, ht⟩)
  · have hm : ¬ MistaggedFormat s i := fun ⟨n, a, h, ht⟩ => ht (hi n a h)
    have hplan : planWord i s = s.sched 2 e := by rw [hplaced (.inl hs) hm, hp.of_full hc hq, hs]; rfl
    exact exec_traps _ hc ((exec_eq_resolve hw s).trans (congrArg (resolve s) hplan))

end Sys2Proof.Machine
end

section
/-! SUPPORT. Held bundles are tried again, and waits end and expire (R33, R47, R161 to R165). -/

namespace Sys2Proof.Machine

open Sys2Proof.Claim hiding fits

/-! ## The plans of a bundle together (R33) -/

/-- What a plan asks for as it holds, the fault that it raises, and what it does. -/
def Plan.heldActs : Plan → Option (List Act)
  | .hold l => some l
  | _ => none
def Plan.raised : Plan → Option FaultInfo
  | .trap f => some f
  | _ => none
def Plan.ownActs : Plan → Option (List Act)
  | .acts l => some l
  | _ => none

theorem joinPlans_eq (ps : List Plan) : joinPlans ps = if ps.filterMap Plan.heldActs ≠ [] then .hold (ps.filterMap Plan.heldActs).flatten
    else match ps.filterMap Plan.raised with
      | f :: _ => .trap f
      | [] => .acts (ps.filterMap Plan.ownActs).flatten := rfl
theorem flatten_heldActs (ps : List Plan) : (ps.filterMap Plan.heldActs).flatten = ps.flatMap asked := by
  induction ps with
  | nil => rfl
  | cons p ps ih => cases p <;> simp only [List.filterMap_cons, Plan.heldActs, List.flatMap_cons, asked, List.nil_append, List.flatten_cons, ih]
theorem flatten_ownActs (ps : List Plan) : (ps.filterMap Plan.ownActs).flatten = ps.flatMap done := by
  induction ps with
  | nil => rfl
  | cons p ps ih => cases p <;> simp only [List.filterMap_cons, Plan.ownActs, List.flatMap_cons, done, List.nil_append, List.flatten_cons, ih]
theorem heldActs_eq_nil {ps : List Plan} (h : ∀ l, Plan.hold l ∉ ps) : ps.filterMap Plan.heldActs = [] :=
  List.filterMap_eq_nil_iff.mpr fun p hp => by
    cases p with
    | hold l => exact absurd hp (h l)
    | _ => rfl
/-- The first trap of a list is the one that no trap stands before. -/
theorem raised_first {f : FaultInfo} : ∀ {ps : List Plan} {k : Nat}, ps[k]? = some (.trap f) →
    (∀ (j : Nat) g, j < k → ps[j]? ≠ some (.trap g)) → ∃ fs, ps.filterMap Plan.raised = f :: fs
  | [], _, h, _ => nomatch h
  | p :: ps, 0, h, _ => by
    obtain rfl : p = .trap f := Option.some.inj h
    exact ⟨_, rfl⟩
  | p :: ps, k + 1, h, hfirst => by
    obtain ⟨fs, hfs⟩ := raised_first (ps := ps) (k := k) h fun j g hj => hfirst (j + 1) g (Nat.succ_lt_succ hj)
    cases p with
    | trap g => exact absurd rfl (hfirst 0 g (Nat.succ_pos k))
    | _ => exact ⟨fs, hfs⟩

theorem joinPlans_of_hold {ps : List Plan} {l : List Act} (h : Plan.hold l ∈ ps) : joinPlans ps = .hold (ps.flatMap asked) := by
  have hne : ps.filterMap Plan.heldActs ≠ [] := List.ne_nil_of_mem (List.mem_filterMap.mpr ⟨_, h, rfl⟩)
  rw [joinPlans_eq, if_pos hne, flatten_heldActs]
theorem joinPlans_of_trap {ps : List Plan} {k : Nat} {f : FaultInfo} (hold : ∀ l, Plan.hold l ∉ ps) (hk : ps[k]? = some (.trap f))
    (hfirst : ∀ (j : Nat) g, j < k → ps[j]? ≠ some (.trap g)) : joinPlans ps = .trap f := by
  obtain ⟨fs, hfs⟩ := raised_first hk hfirst
  rw [joinPlans_eq, heldActs_eq_nil hold, hfs]
  rfl
theorem joinPlans_of_acts {ps : List Plan} (h : ∀ p ∈ ps, ∃ l, p = .acts l) : joinPlans ps = .acts (ps.flatMap done) := by
  have hheld : ps.filterMap Plan.heldActs = [] := heldActs_eq_nil fun l hl => by
    obtain ⟨m, hm⟩ := h _ hl
    exact nomatch hm
  have hraised : ps.filterMap Plan.raised = [] := List.filterMap_eq_nil_iff.mpr fun p hp => by
    obtain ⟨m, rfl⟩ := h p hp
    rfl
  rw [joinPlans_eq, hheld, hraised, flatten_ownActs]
  rfl
/-- A single word's plan is its bundle's. -/
theorem joinPlans_singleton (p : Plan) : joinPlans [p] = p := by
  cases p with
  | acts l => exact congrArg Plan.acts (List.append_nil l)
  | trap f => rfl
  | hold l => exact congrArg Plan.hold (List.append_nil l)

/-- A plan that traps leaves all as it was but for the trap. -/
theorem trapped_run {b : State} (hb : b.actor = .control) (f : FaultInfo) : Trapped b (b.applyAll ((Plan.trap f).run b)) f := by
  obtain ⟨t, ht, htrap⟩ := resolve_trap hb f
  obtain rfl : b.applyAll ((Plan.trap f).run b) = t := Host.Outcome.next.inj ht
  exact htrap
/-- The joined plans of a bundle end it as R33 gives. -/
theorem endsTogether_joinPlans {b : State} (hb : b.actor = .control) (ps : List Plan) :
    endsTogether b (b.applyAll ((joinPlans ps).run b)) ps := by
  refine ⟨fun ⟨l, hl⟩ => ?_, fun k f hhold hk hfirst => ?_, fun h => ?_⟩
  · simp only [joinPlans_of_hold hl, Plan.run, hb, State.applyAll_append]
  · rw [joinPlans_of_trap hhold hk hfirst]
    exact trapped_run hb f
  · simp only [joinPlans_of_acts h, Plan.run, hb, State.applyAll_append]

/-- The plan of a bundle of one word is the word's own, but where it sees what the engines of its cycle have still to do. -/
theorem planWords_single {i : Instr} {b : State} (h : b.enginesToCome = false ∨ (afterEngines i = false ∧ ∃ l, planWord i b = .acts l)) :
    planWords [.ok i] b = [planWord i b] := by
  have hown : planWordsOn [.ok i] b b = [planWord i b] := by
    rcases h with h | ⟨h, -⟩ <;> simp [planWordsOn, planInOrder, planDecoded, h]
  rcases h with h | ⟨-, l, hl⟩
  · simp only [planWords, hown, h, Bool.not_false, Bool.true_or, if_true]
  · simp only [planWords, hown, hl, allAct, List.all_cons, List.all_nil, Bool.and_self, Bool.or_true, if_true]

/-! ## A bundle as it begins to issue (R55, R73) -/

section
variable (b : State) (n : Nat)

/-- The core at whose pc a bundle of length n begins. -/
def Core.begun (c : Core) (n : Nat) : Core := { c with issPc := c.pc, npc := c.pc + n, ncost := c.divisor 0, xfer := 0 }

/-- What the updates at a bundle's beginning change: the word at hand, and the acting core's stream. -/
theorem applyAll_begin (v p q d : Nat) :
    let t := b.applyAll [.pkg (.word v), b.upd (.issPc p), b.upd (.npc q d), b.upd (.xfer 0)]
    t = { b with word := v, cores := t.cores } ∧ t.core b.cur = { b.cc with issPc := p, npc := q, ncost := d, xfer := 0 } ∧
    (∀ id, id ≠ b.cur → t.core id = b.core id) ∧ t.rr = b.rr := by
  have hword (id : Nat) : (Act.apply b (.pkg (.word v))).core id = b.core id := rfl
  simp only [State.applyAll_cons, State.applyAll_nil, State.upd]
  refine ⟨rfl, ?_, fun id hid => ?_, rfl⟩
  · rw [Act.core_core_same, Act.core_core_same, Act.core_core_same, hword]
    rfl
  · rw [Act.core_core_other _ _ hid, Act.core_core_other _ _ hid, Act.core_core_other _ _ hid, hword]
theorem beginBundle_spec : beginBundle b n = { b with word := (beginBundle b n).word, cores := (beginBundle b n).cores } ∧
    (beginBundle b n).core b.cur = b.cc.begun n ∧ (∀ id, id ≠ b.cur → (beginBundle b n).core id = b.core id) ∧ (beginBundle b n).rr = b.rr := by
  obtain ⟨hrest, hcore, hothers, hrr⟩ := applyAll_begin b (packed (b.rr.codeAt b.cc) b.cc.pc) b.cc.pc (b.cc.pc + n) (b.cc.divisor 0)
  have hword := congrArg State.word hrest
  dsimp only at hword
  refine ⟨hrest.trans ?_, hcore, hothers, hrr⟩
  rw [← hword]
  rfl
theorem beginBundle_cur : (beginBundle b n).cur = b.cur := by rw [(beginBundle_spec b n).1]
theorem beginBundle_actor : (beginBundle b n).actor = b.actor := by rw [(beginBundle_spec b n).1]
theorem beginBundle_enginesToCome : (beginBundle b n).enginesToCome = b.enginesToCome := by
  have htodo : (beginBundle b n).todo = b.todo := by rw [(beginBundle_spec b n).1]
  rw [State.enginesToCome, htodo, beginBundle_cur]
  rfl
theorem beginBundle_rr : (beginBundle b n).rr = b.rr := (beginBundle_spec b n).2.2.2
theorem beginBundle_cc : (beginBundle b n).cc = b.cc.begun n := by
  rw [State.cc, beginBundle_cur]
  exact (beginBundle_spec b n).2.1
theorem beginBundle_code : (beginBundle b n).rr.codeAt (beginBundle b n).cc = b.rr.codeAt b.cc := by rw [beginBundle_cc, beginBundle_rr]; rfl
theorem beginBundle_pc : (beginBundle b n).cc.pc = b.cc.pc := by rw [beginBundle_cc]; rfl
end

/-- From a state in which the core acts, its bundle has begun. -/
theorem begun_beginBundle {s b : State} {who : Nat} {rest : List Turn}
    (hb : b = { correctedAs s b with todo := rest, cur := who, actor := .control }) (he : onlyCorrects s b) (n : Nat) :
    Begun s (beginBundle b n) who n rest := by
  have hcur : b.cur = who := congrArg State.cur hb
  have hcore (id : Nat) : b.core id = s.core id := by rw [hb]; rfl
  obtain ⟨hspec, hbegun, hothers, -⟩ := beginBundle_spec b n
  obtain ⟨v, hv⟩ : ∃ v, v = (beginBundle b n).word := ⟨_, rfl⟩
  obtain ⟨cs, hcs⟩ : ∃ cs, cs = (beginBundle b n).cores := ⟨_, rfl⟩
  rw [← hv, ← hcs] at hspec
  rw [hcur] at hbegun hothers
  refine ⟨?_, ?_, ?_, fun id hid => (hothers id hid).trans (hcore id)⟩
  · rw [← hv, ← hcs, hspec]
    exact congrArg (fun x : State => { x with word := v, cores := cs }) hb
  · rw [hspec]
    exact he
  · rw [hbegun, State.cc, hcur, hcore]
    rfl

/-- The bundle at pc may be the one of the cycle that closes an open segment (R73). -/
theorem segmentEnds_none {s : State} (h : ∀ g, s.cc.seg = some g → s.cyc + 1 = g.start + g.len →
    ∃ lit m, soleInstr (s.rr.codeAt s.cc) s.cc.pc = some (.sege lit, m)) : segmentEnds s = none := by
  unfold segmentEnds
  cases hg : s.cc.seg with
  | none => rfl
  | some g =>
    by_cases hlast : s.cyc + 1 = g.start + g.len
    · obtain ⟨lit, m, hs⟩ := h g hg hlast
      simp only [hs, Bool.not_true, Bool.false_eq_true, and_false, if_false]
    · simp only [hlast, false_and, if_false]
theorem beginBundle_segmentEnds (b : State) (n : Nat) (h : segmentEnds b = none) : segmentEnds (beginBundle b n) = none := by
  have hcyc : (beginBundle b n).cyc = b.cyc := congrArg Region.cyc (beginBundle_rr b n)
  have hseg : (beginBundle b n).cc.seg = b.cc.seg := by rw [beginBundle_cc]; rfl
  unfold segmentEnds at h ⊢
  rw [hseg, beginBundle_code, beginBundle_pc, hcyc]
  cases hg : b.cc.seg with
  | none => rfl
  | some g =>
    rw [hg] at h
    dsimp only at h ⊢
    split_ifs at h ⊢ with hlast
    rfl
/-- The plan of a bundle that has begun is its words' plans joined. -/
theorem planBundle_beginBundle {b : State} {ws : List Nat} {k : Nat} (n : Nat) (hf : fetchBundle (b.rr.codeAt b.cc) b.cc.pc = some (ws, k))
    (hs : segmentEnds b = none) : planBundle (beginBundle b n) =
      joinPlans (planWords (ws.map (decodeAt (b.rr.codeAt b.cc) b.cc.pc)) (beginBundle b n)) := by
  rw [planBundle, beginBundle_segmentEnds b n hs, beginBundle_code, beginBundle_pc, hf]

/-- A core's issue begins the bundle at its pc, and runs the bundle's plan. -/
theorem applyAll_issueActs {b : State} {ws : List Nat} {n : Nat} (hf : fetchBundle (b.rr.codeAt b.cc) b.cc.pc = some (ws, n))
    (hs : segmentEnds b = none) : b.applyAll (issueActs b) = (beginBundle b n).applyAll
      ((joinPlans (planWords (ws.map (decodeAt (b.rr.codeAt b.cc) b.cc.pc)) (beginBundle b n))).run (beginBundle b n)) := by
  rw [← planBundle_beginBundle n hf hs]
  simp only [issueActs, hf, State.applyAll_append]
  rfl

theorem soleInstr_eq_some {code : SMap Word} {pc k : Nat} {i : Instr} (h : soleInstr code pc = some (i, k)) :
    ∃ w, fetchBundle code pc = some ([w], k) ∧ decodeAt code pc w = .ok i := by
  unfold soleInstr at h
  split at h
  · next w n hf =>
    split at h
    · next j hd =>
      cases h
      exact ⟨w, hf, hd⟩
    · exact nomatch h
  · exact nomatch h

/-- The issue of a single word is the word's own meaning. -/
theorem exec_of_issue {b : State} {n : Nat} {i : Instr} (hsole : soleInstr (b.rr.codeAt b.cc) b.cc.pc = some (i, n))
    (hs : segmentEnds b = none) (hw : i.isWord = true)
    (h : (beginBundle b n).enginesToCome = false ∨ (afterEngines i = false ∧ ∃ l, planWord i (beginBundle b n) = .acts l)) :
    exec i (beginBundle b n) = .next (b.applyAll (issueActs b)) := by
  obtain ⟨w, hf, hd⟩ := soleInstr_eq_some hsole
  rw [applyAll_issueActs hf hs, List.map_cons, List.map_nil, hd, planWords_single h, joinPlans_singleton, exec_eq_resolve hw]
  rfl

/-! ## Lists of updates of the acting core, alone or after one of its region -/

section
variable (s : State)

/-- The acting core alone takes updates of itself. -/
theorem onlyCore_upds (l : List CAct) : OnlyCore s (s.applyAll (l.map s.upd)) s.cur (l.foldl CAct.apply s.cc) := by
  have hl : (l.map s.upd).all Act.isCore = true := List.all_eq_true.mpr fun a ha => by
    obtain ⟨c, -, rfl⟩ := List.mem_map.mp ha
    rfl
  obtain ⟨hrest, hcore⟩ := applyAll_cores (l.map s.upd) s hl
  refine ⟨hrest, ?_, fun id hid => ?_⟩
  · rw [hcore, show l.map s.upd = l.map (.core s.cur) from rfl, updatesOf_same]
    rfl
  · rw [hcore, show l.map s.upd = l.map (.core s.cur) from rfl, updatesOf_other (Ne.symm hid)]
    rfl

/-- An update of the acting region, and then updates of the acting core. -/
theorem applyAll_reg_upds (a : RAct) (l : List CAct) : let t := s.applyAll (.reg s.ctx a :: l.map s.upd)
    t.cc = l.foldl CAct.apply s.cc ∧ t.mem = s.mem ∧ t.rr = RAct.apply s s.rr a ∧ ∀ id, id ≠ s.cur → t.core id = s.core id := by
  obtain ⟨r, hr⟩ : ∃ r, r = Act.apply s (.reg s.ctx a) := ⟨_, rfl⟩
  have hcur : r.cur = s.cur := by rw [hr, Act.reg_cur]
  have hupd : l.map s.upd = l.map r.upd := List.map_congr_left fun c _ => congrArg (Act.core · c) hcur.symm
  rw [State.applyAll_cons, ← hr, hupd]
  obtain ⟨hrest, hcore, hothers⟩ := onlyCore_upds r l
  have hcores (id : Nat) : r.core id = s.core id := by rw [hr, Act.reg_core]
  have hregions : (r.applyAll (l.map r.upd)).region s.ctx = r.region s.ctx := by rw [hrest]; rfl
  rw [hcur] at hcore hothers
  refine ⟨?_, ?_, ?_, fun id hid => (hothers id hid).trans (hcores id)⟩
  · have hc : (r.applyAll (l.map r.upd)).cur = s.cur := by rw [hrest]; exact hcur
    rw [State.cc, hc, hcore, State.cc, hcur, hcores]
    rfl
  · rw [hrest, hr]; exact Act.reg_mem s s.ctx a
  · have hx : (r.applyAll (l.map r.upd)).ctx = s.ctx := by rw [hrest]; exact congrArg (· / 2048) hcur
    rw [State.rr, hx, hregions, hr, Act.reg_region_same]
    rfl
end

/-! ## A wait's end (R161) -/

/-- What the core does after its one wait: it waits no more, and its next bundle issues no earlier than the next cycle. -/
def goOn (s : State) : List CAct := [.waits [], .nextAt (max s.cc.nextAt (s.cyc + 1))]

section
variable {s : State} {w : Wait}

/-- The one wait of a core ends where its condition holds. -/
theorem evWaitEnd_one (hw : s.cc.waits = [w]) (hlock : lockFails s w = false) (hmet : waitMet s w = true) :
    evWaitEnd s = waitDone s w ++ (goOn s).map s.upd := by
  simp [evWaitEnd, hw, hlock, hmet, goOn]
/-- A wait that only holds the stream, and one that changes its core, end in their core alone. -/
theorem exec_waitEnd_core (hw : s.cc.waits = [w]) (hlock : lockFails s w = false) (hmet : waitMet s w = true) (l : List CAct)
    (hl : waitDone s w = l.map s.upd) : ∃ t, exec .waitEnd s = .next t ∧
      OnlyCore s t s.cur ((l ++ goOn s).foldl CAct.apply s.cc) := by
  refine ⟨s.applyAll (evWaitEnd s), rfl, ?_⟩
  rw [evWaitEnd_one hw hlock hmet, hl, ← List.map_append]
  exact onlyCore_upds s _
/-- A wait that also changes its region. -/
theorem exec_waitEnd_region (hw : s.cc.waits = [w]) (hlock : lockFails s w = false) (hmet : waitMet s w = true) (a : RAct) (l : List CAct)
    (hl : waitDone s w = .reg s.ctx a :: l.map s.upd) : ∃ t, exec .waitEnd s = .next t ∧
      t.cc = (l ++ goOn s).foldl CAct.apply s.cc ∧ t.mem = s.mem ∧
      t.rr = RAct.apply s s.rr a ∧ ∀ id, id ≠ s.cur → t.core id = s.core id := by
  refine ⟨s.applyAll (evWaitEnd s), rfl, ?_⟩
  rw [evWaitEnd_one hw hlock hmet, hl, List.cons_append, ← List.map_append]
  exact applyAll_reg_upds s a _

/-- A wait whose end is its whole effect is met, and does nothing more. -/
theorem waitMet_of_plainEnd (h : plainEnd s w.kind) : lockFails s w = false ∧ waitMet s w = true ∧ waitDone s w = [] := by
  obtain ⟨kind, since, due⟩ := w
  cases kind with
  | lwait d =>
    refine ⟨rfl, ?_, rfl⟩
    show (awaited s.cc d).isEmpty = true
    rw [List.isEmpty_iff, awaited, List.filter_eq_nil_iff]
    intro u hu hd
    obtain ⟨h0, hne⟩ := h u hu
    rcases of_decide_eq_true hd with h | h
    · exact h0 h
    · exact hne h
  | qdrn g => exact ⟨rfl, List.all_eq_true.mpr h, rfl⟩
  | sbwt b ph => exact ⟨rfl, beq_iff_eq.mpr h, rfl⟩
  | barw b => exact ⟨rfl, congrArg (!·) h, rfl⟩
  | fence => exact ⟨rfl, List.isEmpty_iff.mpr h, rfl⟩
  | _ => exact h.elim
end

/-- R161 to R164, R182, R219: each kind of wait by its own condition and its own end. -/
theorem waitsEnd : Claim.WaitsEnd := by
  intro s w hw
  refine ⟨fun h => ?_, fun x hk ht => ?_, fun ch hk hmet => ?_, fun d addr target tg keys ord v bad hk hv hle => ?_, fun lo len l hk hl => ?_⟩
  · obtain ⟨hlock, hmet, hdone⟩ := waitMet_of_plainEnd h
    exact exec_waitEnd_core hw hlock hmet [] hdone
  · refine exec_waitEnd_core hw ?_ ?_ [.tokenSub x] ?_
    · rw [lockFails, hk]
    · rw [waitMet, hk]; exact decide_eq_true ht
    · rw [waitDone, hk]; rfl
  · obtain ⟨t, ht, hcc, hmem, hrr, hothers⟩ := exec_waitEnd_region hw (by rw [lockFails, hk]) (by rw [waitMet, hk]; exact hmet)
      (.qwaited ch) [] (by rw [waitDone, hk]; rfl)
    exact ⟨t, ht, hcc, hmem, hrr, hothers⟩
  · obtain ⟨t, ht, hcc, hmem, hrr, hothers⟩ := exec_waitEnd_region hw (by rw [lockFails, hk]) (by simp only [waitMet, hk, hv, hle, decide_true])
      (.sched { s.key (s.cyc + 1) 1 with issue := w.since } (if bad then .uecc s.cur addr d v tg false else .land s.cur [.reg d v tg false]))
      (if keys = [] then [] else [.fencedAt s.cc.serial]) (by
        simp only [waitDone, hk, hv, apply_ite (List.map s.upd), List.map_cons, List.map_nil])
    refine ⟨t, ht, hmem, ?_, hrr, hothers⟩
    rw [hcc]
    split <;> rfl
  · refine exec_waitEnd_core hw ?_ ?_ [.tlb l] ?_
    · simp only [lockFails, hk, hl]
    · simp only [waitMet, hk, hl]
    · simp only [waitDone, hk, hl, List.map_cons, List.map_nil]

/-! ## A wait's bound (R161, R165) -/

/-- A trap of a wait names WAITEXP, the core, and no address. -/
theorem expired_code (s : State) (w : Wait) : (expired s w).code = WAITEXP ∧ (expired s w).core = s.cur ∧ (expired s w).faddr = 0 := by
  unfold expired
  cases w.kind <;> exact ⟨rfl, rfl, rfl⟩
/-- What the record of an expired wait names, by the kind of the wait. -/
theorem expired_names (s : State) (w : Wait) : expiryNames s w.since w.kind (expired s w) := by
  obtain ⟨kind, since, due⟩ := w
  cases kind with
  | mwait d addr target tg keys ord =>
    refine ⟨rfl, rfl, fun v hv => ?_, fun hv => ?_⟩
    · simp only [expired, hv, Option.map_some, Option.getD_some]
    · simp only [expired, hv, Option.map_none, Option.getD_none]
  | qdrn g =>
    refine ⟨fun hg hd => ?_, rfl⟩
    have hidle : engIdle s.cc g = false := hd
    have he : ((engines g).find? fun e => !engIdle s.cc e) = some g := by
      simp only [engines, Nat.ne_of_lt hg, if_false, List.find?_cons, hidle, Bool.not_false]
    simp only [expired, he, Option.getD_some, and_self]
  | lwait | qwait | waitt | sbwt | barw | rbegin | rend => exact ⟨rfl, rfl, rfl⟩
  | fence | tlblk => trivial

/-- What a wait's trap does to its core. -/
theorem foldl_waitTrap (c : Core) (p : Nat) :
    [CAct.waits [], .trapped true, .pc p].foldl CAct.apply c = { c with waits := [], trapped := true, pc := p } := rfl
/-- A wait's trap stops its stream at the bundle that waits. -/
theorem applyAll_waitTrap (s : State) (f : FaultInfo) : let t := s.applyAll (waitTrap s f)
    t.cc = { s.cc with waits := [], trapped := true, pc := s.cc.issPc } ∧ t.mem = s.mem ∧ t.rr = RAct.apply s s.rr (.raise f) ∧
    ∀ id, id ≠ s.cur → t.core id = s.core id := by
  have htrap : waitTrap s f = .reg s.ctx (.raise f) :: [CAct.waits [], .trapped true, .pc s.cc.issPc].map s.upd := rfl
  obtain ⟨hcc, hrest⟩ := applyAll_reg_upds s (.raise f) [.waits [], .trapped true, .pc s.cc.issPc]
  rw [htrap]
  exact ⟨hcc.trans (foldl_waitTrap s.cc s.cc.issPc), hrest⟩

/-- R161, R165: the wait's one trap, after the channel of a QWAIT. -/
theorem waitsExpire : Claim.WaitsExpire := by
  intro s w n hw hdue hn
  obtain ⟨hcode, hcore, haddr⟩ := expired_code s w
  refine ⟨s.applyAll (evWaitexp s), expired s w, rfl, hcode, hcore, haddr, expired_names s w, ?_⟩
  simp only [evWaitexp, hw, List.find?_cons, hdue, hn, decide_true]
  generalize expired s w = f
  cases w.kind with
  | qwait ch =>
    have htrap : waitTrap s f = waitTrap (Act.apply s (.reg s.ctx (.qwaited ch))) f := rfl
    have hrr : (Act.apply s (.reg s.ctx (.qwaited ch))).rr = { s.rr with qwaited := ch :: s.rr.qwaited } := Act.reg_region_same s s.ctx _
    simp only [List.cons_append, List.nil_append, State.applyAll_cons, htrap]
    obtain ⟨hcc, hmem, htrr, hothers⟩ := applyAll_waitTrap (Act.apply s (.reg s.ctx (.qwaited ch))) f
    refine ⟨hcc, hmem, ?_, hothers⟩
    rw [htrr, hrr]
    rfl
  | _ =>
    simp only [List.nil_append]
    exact applyAll_waitTrap s f

/-- R33, R47: a held bundle's issue is its bundle's plan on the state with which it begins again. -/
theorem heldBundlesIssue : Claim.HeldBundlesIssue := by
  intro s ws n hc code hf hseg
  have hs : segmentEnds s = none := segmentEnds_none hseg
  refine ⟨beginBundle s n, s.applyAll (issueActs s), rfl, ?_, ?_, fun i k hsole hw h => ?_⟩
  · refine begun_beginBundle ?_ ⟨fun e he => he, fun _ => rfl⟩ n
    rw [← hc]
    rfl
  · rw [applyAll_issueActs hf hs]
    exact endsTogether_joinPlans ((beginBundle_actor s n).trans hc) _
  · obtain ⟨w, hf', -⟩ := soleInstr_eq_some hsole
    obtain rfl : n = k := (Prod.mk.inj (Option.some.inj (hf.symm.trans hf'))).2
    exact exec_of_issue hsole hs hw ((beginBundle_enginesToCome s n).symm ▸ h)

/-- Settles O49: a held bundle issues as its joined plans, and each wait ends or expires by its kind. -/
theorem waitsEndAndExpire : Obligations.WaitsEndAndExpire := ⟨heldBundlesIssue, waitsEnd, waitsExpire⟩

end Sys2Proof.Machine
end

section
/-! SUPPORT. A step runs the decoded instruction: what stands at a core's pc, the corrections of single-bit errors that go before it, and
the turns that run it (R31 to R36, R55, R173, R221, R353). -/

namespace Sys2Proof.Machine

open Sys2Proof.Claim hiding fits

/-! ## What stands at a word address (R32, R33, R35, R36) -/

section
variable (code : SMap Word) (pc : Nat)

/-- The word at an address. -/
def codeWord (i : Nat) : Nat := (SMap.get 0 code i).toNat

theorem codeWord_high (i : Nat) : codeWord code i / 2 ^ 31 = 0 ∨ codeWord code i / 2 ^ 31 = 1 := by
  have h : codeWord code i < 2 ^ 32 := (SMap.get 0 code i).isLt
  omega

/-- The bundle of one, two and three words, word by word. -/
theorem isBundle_one_iff {a n : Nat} : isBundle code pc [a] n ↔
    a = codeWord code pc ∧ a / 2 ^ 31 = 1 ∧ n = (if takesLiteral (a % 2 ^ 31) then 2 else 1) ∧ pc + n ≤ 8192 := by
  constructor
  · rintro ⟨-, -, hlen, hn, hwords, -⟩
    obtain ⟨ha, hlast, -⟩ := hwords 0 a rfl
    simp only [List.any_cons, List.any_nil, Bool.or_false, List.length_singleton] at hn
    exact ⟨ha, hlast.mpr rfl, hn, hlen⟩
  · rintro ⟨ha, hlast, hn, hlen⟩
    refine ⟨Nat.le_refl 1, by simp, hlen, ?_, fun k w hk => ?_, fun k x y _ hy => ?_⟩
    · simpa only [List.any_cons, List.any_nil, Bool.or_false, List.length_singleton] using hn
    · match k, hk with
      | 0, hk => cases hk; exact ⟨ha, iff_of_true hlast rfl, fun _ => rfl⟩
      | k + 1, hk => exact nomatch hk
    · exact nomatch hy
theorem isBundle_two_iff {a b n : Nat} : isBundle code pc [a, b] n ↔
    (a = codeWord code pc ∧ a / 2 ^ 31 ≠ 1 ∧ takesLiteral (a % 2 ^ 31) = false) ∧
    (b = codeWord code (pc + 1) ∧ b / 2 ^ 31 = 1 ∧ takesLiteral (b % 2 ^ 31) = false) ∧
    slotGroup a < slotGroup b ∧ n = 2 ∧ pc + 2 ≤ 8192 := by
  constructor
  · rintro ⟨-, -, hlen, hn, hwords, hslots⟩
    obtain ⟨ha, hla, hta⟩ := hwords 0 a rfl
    obtain ⟨hb, hlb, htb⟩ := hwords 1 b rfl
    have hna : takesLiteral (a % 2 ^ 31) = false := Bool.eq_false_iff.mpr fun h => nomatch hta h
    have hnb : takesLiteral (b % 2 ^ 31) = false := Bool.eq_false_iff.mpr fun h => nomatch htb h
    simp only [List.any_cons, List.any_nil, hna, hnb, Bool.or_false, Bool.false_eq_true, if_false, List.length_cons, List.length_nil] at hn
    subst hn
    exact ⟨⟨ha, fun h => (nomatch hla.mp h), hna⟩, ⟨hb, hlb.mpr rfl, hnb⟩, hslots 0 a b rfl rfl, rfl, hlen⟩
  · rintro ⟨⟨ha, hla, hna⟩, ⟨hb, hlb, hnb⟩, hab, rfl, hlen⟩
    refine ⟨by simp, by simp, hlen, ?_, fun k w hk => ?_, fun k x y hx hy => ?_⟩
    · simp only [List.any_cons, List.any_nil, hna, hnb, Bool.or_false, Bool.false_eq_true, if_false, List.length_cons, List.length_nil]
    · match k, hk with
      | 0, hk => cases hk; exact ⟨ha, iff_of_false hla (by simp), fun h => (nomatch hna.symm.trans h)⟩
      | 1, hk => cases hk; exact ⟨hb, iff_of_true hlb rfl, fun h => (nomatch hnb.symm.trans h)⟩
      | k + 2, hk => exact nomatch hk
    · match k, hx, hy with
      | 0, hx, hy => cases hx; cases hy; exact hab
      | k + 1, _, hy => exact nomatch hy
theorem isBundle_three_iff {a b c n : Nat} : isBundle code pc [a, b, c] n ↔
    (a = codeWord code pc ∧ a / 2 ^ 31 ≠ 1 ∧ takesLiteral (a % 2 ^ 31) = false) ∧
    (b = codeWord code (pc + 1) ∧ b / 2 ^ 31 ≠ 1 ∧ takesLiteral (b % 2 ^ 31) = false) ∧
    (c = codeWord code (pc + 2) ∧ c / 2 ^ 31 = 1 ∧ takesLiteral (c % 2 ^ 31) = false) ∧ slotGroup a < slotGroup b ∧ slotGroup b < slotGroup c ∧ n = 3 ∧
    pc + 3 ≤ 8192 := by
  constructor
  · rintro ⟨-, -, hlen, hn, hwords, hslots⟩
    obtain ⟨ha, hla, hta⟩ := hwords 0 a rfl
    obtain ⟨hb, hlb, htb⟩ := hwords 1 b rfl
    obtain ⟨hc, hlc, htc⟩ := hwords 2 c rfl
    have hna : takesLiteral (a % 2 ^ 31) = false := Bool.eq_false_iff.mpr fun h => nomatch hta h
    have hnb : takesLiteral (b % 2 ^ 31) = false := Bool.eq_false_iff.mpr fun h => nomatch htb h
    have hnc : takesLiteral (c % 2 ^ 31) = false := Bool.eq_false_iff.mpr fun h => nomatch htc h
    simp only [List.any_cons, List.any_nil, hna, hnb, hnc, Bool.or_false, Bool.false_eq_true, if_false, List.length_cons, List.length_nil] at hn
    subst hn
    exact ⟨⟨ha, fun h => (nomatch hla.mp h), hna⟩, ⟨hb, fun h => (nomatch hlb.mp h), hnb⟩,
      ⟨hc, hlc.mpr rfl, hnc⟩, hslots 0 a b rfl rfl, hslots 1 b c rfl rfl, rfl, hlen⟩
  · rintro ⟨⟨ha, hla, hna⟩, ⟨hb, hlb, hnb⟩, ⟨hc, hlc, hnc⟩, hab, hbc, rfl, hlen⟩
    refine ⟨by simp, by simp, hlen, ?_, fun k w hk => ?_, fun k x y hx hy => ?_⟩
    · simp only [List.any_cons, List.any_nil, hna, hnb, hnc, Bool.or_false, Bool.false_eq_true, if_false, List.length_cons, List.length_nil]
    · match k, hk with
      | 0, hk => cases hk; exact ⟨ha, iff_of_false hla (by simp), fun h => (nomatch hna.symm.trans h)⟩
      | 1, hk => cases hk; exact ⟨hb, iff_of_false hlb (by simp), fun h => (nomatch hnb.symm.trans h)⟩
      | 2, hk => cases hk; exact ⟨hc, iff_of_true hlc rfl, fun h => (nomatch hnc.symm.trans h)⟩
      | k + 3, hk => exact nomatch hk
    · match k, hx, hy with
      | 0, hx, hy => cases hx; cases hy; exact hab
      | 1, hx, hy => cases hx; cases hy; exact hbc
      | k + 2, _, hy => exact nomatch hy
/-- A bundle has one, two or three words. -/
theorem isBundle_length {ws : List Nat} {n : Nat} (h : isBundle code pc ws n) :
    (∃ a, ws = [a]) ∨ (∃ a b, ws = [a, b]) ∨ ∃ a b c, ws = [a, b, c] := by
  obtain ⟨h1, h3, -⟩ := h
  match ws, h1, h3 with
  | [a], _, _ => exact .inl ⟨a, rfl⟩
  | [a, b], _, _ => exact .inr (.inl ⟨a, b, rfl⟩)
  | [a, b, c], _, _ => exact .inr (.inr ⟨a, b, c, rfl⟩)

/-- The fetch, one test after another, in the words' names. -/
theorem fetchBundle_eq : fetchBundle code pc =
    if 8192 ≤ pc then none
    else if takesLiteral (codeWord code pc % 2 ^ 31) then
      (if codeWord code pc / 2 ^ 31 = 1 ∧ pc + 1 < 8192 then some ([codeWord code pc], 2) else none)
    else if codeWord code pc / 2 ^ 31 = 1 then some ([codeWord code pc], 1)
    else if 8192 ≤ pc + 1 ∨ takesLiteral (codeWord code (pc + 1) % 2 ^ 31) ∨ slotGroup (codeWord code (pc + 1)) ≤ slotGroup (codeWord code pc) then none
    else if codeWord code (pc + 1) / 2 ^ 31 = 1 then some ([codeWord code pc, codeWord code (pc + 1)], 2)
    else if 8192 ≤ pc + 2 ∨ takesLiteral (codeWord code (pc + 2) % 2 ^ 31) ∨
        slotGroup (codeWord code (pc + 2)) ≤ slotGroup (codeWord code (pc + 1)) ∨ codeWord code (pc + 2) / 2 ^ 31 = 0 then none
    else some ([codeWord code pc, codeWord code (pc + 1), codeWord code (pc + 2)], 3) := rfl

theorem isBundle_of_fetchBundle {ws : List Nat} {n : Nat} (h : fetchBundle code pc = some (ws, n)) : isBundle code pc ws n := by
  have hhigh := codeWord_high code (pc + 2)
  rw [fetchBundle_eq] at h
  split_ifs at h with hpc hlit hlast hlast hb hlastb hc <;> cases h
  · exact (isBundle_one_iff code pc).mpr ⟨rfl, hlast.1, (if_pos hlit).symm, hlast.2⟩
  · exact (isBundle_one_iff code pc).mpr ⟨rfl, hlast, (if_neg hlit).symm, Nat.not_le.mp hpc⟩
  · simp only [not_or, Nat.not_le] at hb
    obtain ⟨hpc1, hlitb, hslot⟩ := hb
    exact (isBundle_two_iff code pc).mpr ⟨⟨rfl, hlast, Bool.eq_false_iff.mpr hlit⟩, ⟨rfl, hlastb, Bool.eq_false_iff.mpr hlitb⟩, hslot, rfl, hpc1⟩
  · simp only [not_or, Nat.not_le] at hb hc
    obtain ⟨hpc1, hlitb, hslot⟩ := hb
    obtain ⟨hpc2, hlitc, hslot2, hlow⟩ := hc
    exact (isBundle_three_iff code pc).mpr ⟨⟨rfl, hlast, Bool.eq_false_iff.mpr hlit⟩, ⟨rfl, hlastb, Bool.eq_false_iff.mpr hlitb⟩,
      ⟨rfl, hhigh.resolve_left hlow, Bool.eq_false_iff.mpr hlitc⟩, hslot, hslot2, rfl, hpc2⟩
theorem fetchBundle_of_isBundle {ws : List Nat} {n : Nat} (h : isBundle code pc ws n) : fetchBundle code pc = some (ws, n) := by
  rw [fetchBundle_eq]
  rcases isBundle_length code pc h with ⟨a, rfl⟩ | ⟨a, b, rfl⟩ | ⟨a, b, c, rfl⟩
  · obtain ⟨rfl, hlast, hn, hlen⟩ := (isBundle_one_iff code pc).mp h
    split_ifs at hn with hlit
    · rw [if_neg (by omega), if_pos hlit, if_pos ⟨hlast, by omega⟩, hn]
    · rw [if_neg (by omega), if_neg hlit, if_pos hlast, hn]
  · obtain ⟨⟨rfl, hla, hna⟩, ⟨rfl, hlb, hnb⟩, hab, rfl, hlen⟩ := (isBundle_two_iff code pc).mp h
    have hb : ¬ (8192 ≤ pc + 1 ∨ takesLiteral (codeWord code (pc + 1) % 2 ^ 31) = true ∨
        slotGroup (codeWord code (pc + 1)) ≤ slotGroup (codeWord code pc)) := by
      simp only [not_or, Nat.not_le]
      exact ⟨hlen, Bool.eq_false_iff.mp hnb, hab⟩
    rw [if_neg (by omega), if_neg (Bool.eq_false_iff.mp hna), if_neg hla, if_neg hb, if_pos hlb]
  · obtain ⟨⟨rfl, hla, hna⟩, ⟨rfl, hlb, hnb⟩, ⟨rfl, hlc, hnc⟩, hab, hbc, rfl, hlen⟩ := (isBundle_three_iff code pc).mp h
    have hb : ¬ (8192 ≤ pc + 1 ∨ takesLiteral (codeWord code (pc + 1) % 2 ^ 31) = true ∨
        slotGroup (codeWord code (pc + 1)) ≤ slotGroup (codeWord code pc)) := by
      simp only [not_or, Nat.not_le]
      exact ⟨by omega, Bool.eq_false_iff.mp hnb, hab⟩
    have hc : ¬ (8192 ≤ pc + 2 ∨ takesLiteral (codeWord code (pc + 2) % 2 ^ 31) = true ∨
        slotGroup (codeWord code (pc + 2)) ≤ slotGroup (codeWord code (pc + 1)) ∨ codeWord code (pc + 2) / 2 ^ 31 = 0) := by
      simp only [not_or, Nat.not_le]
      exact ⟨hlen, Bool.eq_false_iff.mp hnc, hbc, fun h0 => absurd (hlc.symm.trans h0) (by decide)⟩
    rw [if_neg (by omega), if_neg (Bool.eq_false_iff.mp hna), if_neg hla, if_neg hb, if_neg hlb, if_neg hc]

/-- The length that a bundle is given without its form is the one that it has. -/
theorem bundleLen_of_fetchBundle {ws : List Nat} {n : Nat} (h : fetchBundle code pc = some (ws, n)) : bundleLen code pc = n := by
  have hlen : bundleLen code pc = if takesLiteral (codeWord code pc % 2 ^ 31) then 2
    else if codeWord code pc / 2 ^ 31 = 1 then 1 else if codeWord code (pc + 1) / 2 ^ 31 = 1 then 2 else 3 := rfl
  rw [fetchBundle_eq] at h
  rw [hlen]
  split_ifs at h ⊢ <;> cases h <;> rfl
end

/-- R32, R33, R35, R36: the fetch tests the form of a bundle word by word. -/
theorem bundlesAreFetched : Claim.BundlesAreFetched := by
  refine ⟨fun code pc ws n => ⟨isBundle_of_fetchBundle code pc, fetchBundle_of_isBundle code pc⟩, fun r c => ⟨fun h => ?_, fun h hlo hhi => ?_⟩⟩
  · simp only [Region.codeAt, h, Bool.false_and, Bool.false_eq_true, if_false]
  · simp only [Region.codeAt, h, hlo, hhi, decide_true, Bool.and_self, if_true]

/-! ## Corrections of single-bit errors (R221) -/

/-- Updates that at most correct and journal some of the errors of a list. -/
def Corrects (soft : List Soft) (l : List Act) : Prop :=
  l = [] ∨ soft ≠ [] ∧ ∃ (rest fixed : List Soft) (ent : Soft → JEnt), (∀ e ∈ rest, e ∈ soft) ∧
    l = .pkg (.soft rest) :: fixed.map fun e => .pkg (.journal e.die (ent e))

theorem corrects_eccActs (s : State) (reads : List Words) (l : List Act) : Corrects s.soft (eccActs s reads l) := by
  unfold eccActs
  split
  · exact .inl rfl
  · next hsoft =>
    dsimp only
    split
    · exact .inl rfl
    · exact .inr ⟨hsoft, _, _, _, fun e he => (List.mem_filter.mp he).1, rfl⟩
theorem corrects_eventEcc (s : State) (i : Instr) : Corrects s.soft (eventEcc s i) := by
  unfold eventEcc
  split
  · exact .inl rfl
  · exact corrects_eccActs s _ _
theorem corrects_wordEcc (s : State) (i : Instr) : Corrects s.soft (wordEcc s i) := by
  unfold wordEcc
  split
  · exact .inl rfl
  · split
    · exact corrects_eccActs s _ _
    · exact .inl rfl
theorem corrects_bundleFix (s : State) : Corrects s.soft (bundleFix s) := by
  unfold bundleFix bundleEcc
  split
  · exact .inl rfl
  · split
    · exact corrects_eccActs s _ _
    · exact .inl rfl

theorem correctedAs_eq_iff {s m : State} :
    correctedAs s m = s ↔ m.soft = s.soft ∧ m.journal = s.journal ∧ m.jhead = s.jhead ∧ m.jlost = s.jlost := by
  refine ⟨fun h => ⟨?_, ?_, ?_, ?_⟩, fun ⟨hsoft, hjournal, hjhead, hjlost⟩ => by rw [correctedAs, hsoft, hjournal, hjhead, hjlost]⟩
  · exact show (correctedAs s m).soft = s.soft from congrArg State.soft h
  · exact show (correctedAs s m).journal = s.journal from congrArg State.journal h
  · exact show (correctedAs s m).jhead = s.jhead from congrArg State.jhead h
  · exact show (correctedAs s m).jlost = s.jlost from congrArg State.jlost h
/-- Corrections change the errors that stand and the journal, and nothing else. -/
theorem applyAll_corrects {s : State} {l : List Act} (h : Corrects s.soft l) :
    s.applyAll l = correctedAs s (s.applyAll l) ∧ onlyCorrects s (s.applyAll l) := by
  rcases h with rfl | ⟨hsoft, rest, fixed, ent, hrest, rfl⟩
  · exact ⟨rfl, fun _ he => he, fun _ => rfl⟩
  · have h := applyAll_journal fixed Soft.die ent { s with soft := rest }
    have happly : s.applyAll (.pkg (.soft rest) :: fixed.map fun e => .pkg (.journal e.die (ent e))) =
      ({ s with soft := rest } : State).applyAll (fixed.map fun e => .pkg (.journal e.die (ent e))) := rfl
    rw [happly]
    generalize ({ s with soft := rest } : State).applyAll (fixed.map fun e => .pkg (.journal e.die (ent e))) = t at h
    dsimp only at h
    have hs : t.soft = rest := by rw [h]
    refine ⟨h.trans ?_, fun e he => hrest e (hs ▸ he), fun h0 => absurd h0 hsoft⟩
    rw [← hs]
    rfl

/-! ## A unit's turn (R12) -/

/-- From s, core's unit has its turn, after the corrections that go before what it does. -/
structure Turned (s m : State) (who : Nat) (a : Actor) (rest : List Turn) : Prop where
  rest : m = { correctedAs s m with todo := rest, cur := who, actor := a }
  errors : onlyCorrects s m

/-- A turn that corrects errors before it does anything else. -/
theorem turned_of_corrects {s u : State} {who : Nat} {a : Actor} {rest : List Turn} (hu : u = { s with todo := rest, cur := who, actor := a })
    {l : List Act} (hl : Corrects u.soft l) : Turned s (u.applyAll l) who a rest := by
  obtain ⟨hrest, herr, hnone⟩ := applyAll_corrects hl
  generalize u.applyAll l = m at *
  subst hu
  refine ⟨hrest, herr, fun h => ?_⟩
  have hm := correctedAs_eq_iff.mp (hnone h)
  exact correctedAs_eq_iff.mpr hm

section
variable {s m : State} {who : Nat} {a : Actor} {rest : List Turn} (h : Turned s m who a rest)
include h

theorem Turned.cur : m.cur = who := by rw [h.rest]
theorem Turned.actor : m.actor = a := by rw [h.rest]
theorem Turned.cc : m.cc = s.core who := by rw [h.rest]; rfl
theorem Turned.rr : m.rr = s.region (who / 2048) := by rw [h.rest]; rfl
theorem Turned.cyc : m.cyc = (s.region (who / 2048)).cyc := congrArg Region.cyc h.rr
theorem Turned.beginActs (n : Nat) {u : State} (hu : Turned s u who a rest) : beginActs m n = beginActs u n := by
  simp only [Machine.beginActs, State.upd, h.rr, h.cc, h.cur, hu.rr, hu.cc, hu.cur]
end
theorem Turned.begun {s m : State} {who : Nat} {rest : List Turn} (h : Turned s m who .control rest) (n : Nat) :
    Begun s (beginBundle m n) who n rest := begun_beginBundle h.rest h.errors n

/-! ## A control core's turn that may issue (R47, R55, R73) -/

/-- Segment ends are seen in a unit's turn as they stood before it. -/
theorem Turned.segmentEnds_none {s m : State} {who : Nat} {a : Actor} {rest : List Turn} (h : Turned s m who a rest)
    (hseg : ∀ g, (s.core who).seg = some g → (s.region (who / 2048)).cyc + 1 = g.start + g.len →
      ∃ lit n, soleInstr ((s.region (who / 2048)).codeAt (s.core who)) (s.core who).pc = some (.sege lit, n)) : segmentEnds m = none := by
  refine Machine.segmentEnds_none ?_
  rw [h.cc, h.rr, h.cyc]
  exact hseg

/-- The state in which a control core's turn begins, and the one on which its bundle then begins, once the errors that it meets are
corrected. -/
def opened (s : State) (core : Nat) (early : Bool) (rest : List Turn) : State :=
  s.applyAll (if early then [.pkg (.cur core .control)] else [give rest, .pkg (.cur core .control)])
def ready (s : State) (core : Nat) (early : Bool) (rest : List Turn) : State :=
  (opened s core early rest).applyAll (bundleFix (opened s core early rest))

section
variable {s : State} {core : Nat} {early : Bool} {rest : List Turn}

theorem opened_eq (h : s.todo = .control core early :: rest) :
    opened s core early rest = { s with todo := after early core rest, cur := core, actor := .control } := by
  cases early with
  | false => rfl
  | true =>
    show ({ s with cur := core, actor := .control } : State) = { s with todo := .control core true :: rest, cur := core, actor := .control }
    rw [← h]
theorem turned_opened (h : s.todo = .control core early :: rest) : Turned s (opened s core early rest) core .control (after early core rest) :=
  turned_of_corrects (l := []) (opened_eq h) (.inl rfl)
theorem turned_ready (h : s.todo = .control core early :: rest) : Turned s (ready s core early rest) core .control (after early core rest) :=
  turned_of_corrects (opened_eq h) (corrects_bundleFix _)
theorem waits_of_mayIssue {r : Region} {c : Core} (h : mayIssue r c = true) : c.waits = [] := by
  simp only [mayIssue, Bool.and_eq_true, List.isEmpty_iff] at h
  exact h.1.1.1

/-- In its own turn a single word runs, and any other bundle issues as a whole. -/
theorem doing_control (h : MayIssue s core false rest) : s.doing =
    match soleInstr ((s.region (core / 2048)).codeAt (s.core core)) (s.core core).pc with
    | some (i, n) => if (segmentEnds (opened s core false rest)).isNone
        then .run ([give rest, .pkg (.cur core .control)] ++ bundleFix (opened s core false rest) ++ beginActs (opened s core false rest) n) i
        else .acts ([give rest, .pkg (.cur core .control)] ++ bundleFix (opened s core false rest) ++ issueActs (ready s core false rest))
    | none => .acts ([give rest, .pkg (.cur core .control)] ++ bundleFix (opened s core false rest) ++ issueActs (ready s core false rest)) := by
  have hwaits := waits_of_mayIssue h.issues
  unfold State.doing
  rw [h.turn]
  simp only [doTurn, doControl, Bool.false_eq_true, if_false, h.acts, h.issues, h.fresh, hwaits, Bool.not_true, ne_eq, not_true_eq_false]
  rfl
theorem step_runs (h : MayIssue s core false rest) {i : Instr} {n : Nat}
    (hi : soleInstr ((s.region (core / 2048)).codeAt (s.core core)) (s.core core).pc = some (i, n))
    (hseg : segmentEnds (opened s core false rest) = none) : step s = exec i (beginBundle (ready s core false rest) n) := by
  have hbegin : beginActs (opened s core false rest) n = beginActs (ready s core false rest) n :=
    (turned_opened h.turn).beginActs n (turned_ready h.turn)
  unfold step
  rw [doing_control h, hi]
  simp only [hseg, Option.isNone_none, if_true, State.applyAll_append, hbegin]
  rfl
theorem step_issues (h : MayIssue s core false rest)
    (hi : soleInstr ((s.region (core / 2048)).codeAt (s.core core)) (s.core core).pc = none) :
    step s = .next ((ready s core false rest).applyAll (issueActs (ready s core false rest))) := by
  unfold step
  rw [doing_control h, hi]
  simp only [State.applyAll_append]
  rfl
/-- Ahead of the engines a bundle issues that acts, and places an entry or takes a token. -/
theorem step_early (h : MayIssue s core true rest) (hfirst : (wordsAt (s.region (core / 2048)) (s.core core)).any actsFirst = true) {n : Nat}
    (hn : bundleLen ((s.region (core / 2048)).codeAt (s.core core)) (s.core core).pc = n) {l : List Act}
    (hacts : planBundle (beginBundle (ready s core true rest) n) = .acts l) :
    step s = .next ((ready s core true rest).applyAll (issueActs (ready s core true rest))) := by
  have hturn := turned_opened h.turn
  have hwaits := waits_of_mayIssue h.issues
  have hdoing : controlFirst (opened s core true rest) =
      some (.acts ([.pkg (.cur core .control)] ++ bundleFix (opened s core true rest) ++ issueActs (ready s core true rest))) := by
    unfold controlFirst
    simp only [hturn.cur, hturn.cc, hturn.rr, h.acts, h.issues, hfirst, hwaits, hn, List.any_nil, Bool.not_true, Bool.false_eq_true, if_false, if_true]
    rw [show (opened s core true rest).applyAll (bundleFix (opened s core true rest)) = ready s core true rest from rfl, hacts]
  have hearly : s.doing = .acts ([.pkg (.cur core .control)] ++ bundleFix (opened s core true rest) ++ issueActs (ready s core true rest)) := by
    unfold State.doing
    rw [h.turn]
    simp only [doTurn, if_true, doEarly]
    rw [show s.applyAll [.pkg (.cur core .control)] = opened s core true rest from rfl, hdoing]
  unfold step
  rw [hearly]
  simp only [State.applyAll_append]
  rfl
end

/-! ## The words of a bundle that acts first (R12, R172, R182) -/

/-- A word of the classes of an engine, or another that acts before the engines of its cycle, reads nothing that they leave. -/
theorem afterEngines_of_actsFirst {i : Instr} (h : actsFirst i = true) : afterEngines i = false := by
  have hclass {n : Nat} (hn : n / 2 ^ 27 % 16 = 5 ∨ n / 2 ^ 27 % 16 = 11 ∨ n / 2 ^ 27 % 16 = 14) :
      (n / 2 ^ 27 % 16 = 8 || n / 2 ^ 27 % 16 = 9 || n / 2 ^ 27 % 16 = 10 || n / 2 ^ 27 % 16 = 12) = false := by
    rcases hn with hn | hn | hn <;> rw [hn] <;> rfl
  cases i with
  | qseq | whenT | mergeT | tld | tst | tlds | tsts | tstm =>
    dsimp only [actsFirst, placesEntry] at h
    rw [hclass, Bool.and_false, Bool.or_false] at h
    · exact absurd h Bool.false_ne_true
    · dsimp only [encode]
      omega
  | _ => rfl

/-! ## A step runs the decoded instruction (R55, R173, R353) -/

section
variable {s : State} {core n : Nat} {early : Bool} {rest : List Turn} {i : Instr}

theorem wordsAt_of_soleInstr {r : Region} {c : Core} (h : soleInstr (r.codeAt c) c.pc = some (i, n)) : wordsAt r c = [i] := by
  obtain ⟨w, hf, hd⟩ := soleInstr_eq_some h
  simp only [wordsAt, hf, List.filterMap_cons, List.filterMap_nil, hd, Except.toOption]
/-- The bundle that a core's turn begins has one word, which runs in its own turn, and ahead of the engines where it acts and acts first. -/
theorem step_sole (h : MayIssue s core early rest)
    (hi : soleInstr ((s.region (core / 2048)).codeAt (s.core core)) (s.core core).pc = some (i, n)) (hw : i.isWord = true)
    (hseg : ∀ g, (s.core core).seg = some g → (s.region (core / 2048)).cyc + 1 = g.start + g.len → ∃ lit, i = .sege lit) :
    early = false ∨ (actsFirst i = true ∧ ∃ l, planWord i (beginBundle (ready s core early rest) n) = .acts l) →
      step s = exec i (beginBundle (ready s core early rest) n) := by
  have hends (g : Seg) (hg : (s.core core).seg = some g) (hlast : (s.region (core / 2048)).cyc + 1 = g.start + g.len) :
      ∃ lit m, soleInstr ((s.region (core / 2048)).codeAt (s.core core)) (s.core core).pc = some (.sege lit, m) := by
    obtain ⟨lit, rfl⟩ := hseg g hg hlast
    exact ⟨lit, n, hi⟩
  have hready := turned_ready h.turn
  have hnone := hready.segmentEnds_none hends
  rintro (rfl | ⟨hfirst, l, hl⟩)
  · exact step_runs h hi ((turned_opened h.turn).segmentEnds_none hends)
  · have hafter := afterEngines_of_actsFirst hfirst
    cases early with
    | false => exact step_runs h hi ((turned_opened h.turn).segmentEnds_none hends)
    | true =>
      obtain ⟨w, hf, hd⟩ := soleInstr_eq_some hi
      have hplan : planBundle (beginBundle (ready s core true rest) n) = .acts l := by
        rw [planBundle_beginBundle (ws := [w]) (k := n) n (by rw [hready.rr, hready.cc]; exact hf) hnone, hready.rr, hready.cc, List.map_cons,
          List.map_nil, hd, planWords_single (.inr ⟨hafter, l, hl⟩), joinPlans_singleton, hl]
      have hany : (wordsAt (s.region (core / 2048)) (s.core core)).any actsFirst = true := by
        rw [wordsAt_of_soleInstr hi, List.any_cons, hfirst, Bool.true_or]
      rw [step_early h hany (bundleLen_of_fetchBundle _ _ hf) hplan]
      refine (exec_of_issue ?_ hnone hw (.inr ⟨hafter, l, hl⟩)).symm
      rw [hready.rr, hready.cc]
      exact hi
end

/-- An event of a region leaves the agenda and, after the corrections that it makes, runs. -/
theorem agenda_corrects {s u : State} {ctx core : Nat} {a : Actor} {r : Region} {l : List Act}
    (hu : u = { s with regions := SMap.set {} s.regions ctx r }) (hl : Corrects u.soft l) :
    let m := Act.apply (u.applyAll l) (.pkg (.cur core a))
    onlyCorrects s m ∧ m = { correctedAs s m with cur := core, actor := a, regions := m.regions } ∧ m.region ctx = r ∧
      ∀ x, x ≠ ctx → m.region x = s.region x := by
  obtain ⟨hrest, herr, hnone⟩ := applyAll_corrects hl
  generalize u.applyAll l = t at *
  subst hu
  have hregions : t.regions = SMap.set {} s.regions ctx r := by rw [hrest]; rfl
  refine ⟨⟨herr, fun h => ?_⟩, ?_, ?_, fun x hx => ?_⟩
  · have hm := correctedAs_eq_iff.mp (hnone h)
    exact correctedAs_eq_iff.mpr hm
  · refine (congrArg (fun x : State => ({ x with cur := core, actor := a } : State)) hrest).trans ?_
    show _ = ({ correctedAs s t with cur := core, actor := a, regions := t.regions } : State)
    rw [hregions]
    rfl
  · show SMap.get {} t.regions ctx = r
    rw [hregions, SMap.get_set_same]
  · show SMap.get {} t.regions x = SMap.get {} s.regions x
    rw [hregions, SMap.get_set_other _ _ hx]

/-- In an engine's turn the micro-order at its head runs, where its step is due (R173). -/
theorem step_engine {s : State} {core e : Nat} {rest : List Turn} {i : Instr} (hturn : s.todo = .engine core e :: rest)
    (hgo : ((s.region (core / 2048)).phase = .run ∨ (s.region (core / 2048)).phase = .stopping) ∧ (s.core core).ended = false ∧
      stepDue (s.region (core / 2048)) (s.core core) e = true) (hmicro : microOrder (s.core core) e = some i) :
    ∃ m, step s = exec i m ∧ Turned s m core (.engine e) rest := by
  have hu : s.applyAll [give rest, .pkg (.cur core (.engine e))] = { s with todo := rest, cur := core, actor := .engine e } := rfl
  refine ⟨_, ?_, turned_of_corrects hu (corrects_wordEcc (s.applyAll [give rest, .pkg (.cur core (.engine e))]) i)⟩
  have hdoing : s.doing = .run ([give rest, .pkg (.cur core (.engine e))] ++
      wordEcc (s.applyAll [give rest, .pkg (.cur core (.engine e))]) i) i := by
    unfold State.doing
    rw [hturn]
    simp only [doTurn, doEngine]
    rw [if_pos hgo, doStep, hmicro]
  unfold step
  rw [hdoing]
  simp only [State.applyAll_append]
/-- In the agenda's turn the event that is due leaves the agenda and runs (R24). -/
theorem step_agenda {s : State} {ctx core : Nat} {rest : List Turn} {k : Key} {a : Actor} {i : Instr} {more : List (Key × Item)}
    (hturn : s.todo = .agenda ctx :: rest) (hag : (s.region ctx).agenda = (k, .ev core a i) :: more)
    (hcounts : (s.region ctx).phase.counts = true) (hdue : k.due ≤ (s.region ctx).cyc) : ∃ m, step s = exec i m ∧
      onlyCorrects s m ∧ m = { correctedAs s m with cur := core, actor := a, regions := m.regions } ∧
      m.region ctx = { s.region ctx with agenda := more } ∧ ∀ x, x ≠ ctx → m.region x = s.region x := by
  have hu : Act.apply s (.reg ctx (.agenda more)) =
      { s with regions := SMap.set {} s.regions ctx { s.region ctx with agenda := more } } := rfl
  have hcorr : Corrects (Act.apply s (.reg ctx (.agenda more))).soft (eventEcc (s.applyAll [.reg ctx (.agenda more), .pkg (.cur core a)]) i) :=
    corrects_eventEcc _ i
  refine ⟨_, ?_, agenda_corrects (core := core) (a := a) hu hcorr⟩
  have hgo : ¬ ((!(s.region ctx).phase.counts) = true ∨ (s.region ctx).cyc < k.due) := by
    rw [hcounts]
    exact not_or.mpr ⟨Bool.false_ne_true, Nat.not_lt.mpr hdue⟩
  have hdoing : s.doing = .run ([.reg ctx (.agenda more)] ++
      eventEcc (s.applyAll [.reg ctx (.agenda more), .pkg (.cur core a)]) i ++ [.pkg (.cur core a)]) i := by
    unfold State.doing
    rw [hturn]
    simp only [doTurn, doAgenda, hag]
    rw [if_neg hgo]
    rfl
  unfold step
  rw [hdoing]
  simp only [State.applyAll_append]
  rfl
/-- In the turn of inputs the first one that has arrived runs, or leaves the queue (R353). -/
theorem doing_inputs {s : State} {rest : List Turn} {x : Nat × Nat × Instr} (hturn : s.todo = .inputs :: rest)
    (hfind : (s.inputs.find? fun x => decide (x.1 ≤ s.now)) = some x) : s.doing =
      if x.2.2.isWord || (s.recovery && !answersInRecovery x.2.2) then .acts [.pkg (.inputs (s.inputs.erase x))]
      else eventAt [.pkg (.inputs (s.inputs.erase x))] x.2.1 .control x.2.2 := by
  unfold State.doing
  rw [hturn]
  simp only [doTurn, doInputs]
  rw [hfind]

/-- R31, R35, R55, R173, R353: turn by turn. -/
theorem turnsRunTheDecodedInstruction : Claim.StepRunsTheDecodedInstruction := by
  intro s rest
  refine ⟨fun core early i => ?_, fun core e i => ?_, fun ctx k core a i more hturn hag hcounts hdue => step_agenda hturn hag hcounts hdue,
    fun x hturn hfind hword => ⟨fun h => ?_, fun hrec hans => ?_⟩⟩
  · intro r c code w n h hlast hlen hdec hseg
    obtain ⟨hw, -⟩ := decodedWordsEncode w _ i hdec
    have hf : fetchBundle code c.pc = some ([w], n) := fetchBundle_of_isBundle code c.pc ((isBundle_one_iff code c.pc).mpr ⟨rfl, hlast, rfl, hlen⟩)
    have hi : soleInstr code c.pc = some (i, n) := by
      have hd : decodeAt code c.pc w = .ok i := hdec
      simp only [soleInstr, hf, hd]
    exact ⟨_, (turned_ready h.turn).begun n, step_sole h hi hw hseg⟩
  · intro r c hturn hphase hended hrun hstop hdue hgrid hmicro
    have hstep : stepDue r c e = true := by
      simp only [stepDue, hstop, hrun, hdue, hgrid, Bool.not_false, decide_true, Bool.and_self]
    obtain ⟨m, hexec, hm⟩ := step_engine hturn ⟨hphase, hended, hstep⟩ hmicro
    exact ⟨m, hexec, hm.errors, hm.rest⟩
  · have hgo : (s.recovery && !answersInRecovery x.2.2) = false := by
      rcases h with h | h
      · rw [h, Bool.false_and]
      · rw [h, Bool.not_true, Bool.and_false]
    unfold step
    rw [doing_inputs hturn hfind, hword, hgo]
    rfl
  · have hstay : (s.recovery && !answersInRecovery x.2.2) = true := by rw [hrec, hans]; rfl
    unfold step
    rw [doing_inputs hturn hfind, hstay, Bool.or_true]
    rfl

/-! ## A bundle issues together (R33) -/

theorem soleInstr_eq_none {code : SMap Word} {pc n : Nat} {ws : List Nat} (hf : fetchBundle code pc = some (ws, n))
    (h : 2 ≤ ws.length ∨ ∃ w e, ws = [w] ∧ decodeAt code pc w = .error e) : soleInstr code pc = none := by
  rw [soleInstr, hf]
  rcases h with h | ⟨w, e, rfl, he⟩
  · match ws, h with
    | _ :: _ :: _, _ => rfl
  · simp only [he]
theorem soleInstr_of_malformed {code : SMap Word} {pc : Nat} (hf : fetchBundle code pc = none) : soleInstr code pc = none := by
  rw [soleInstr, hf]

/-- R31, R32, R33, R40, R73: the bundle's joined plans, on the state with which it begins. -/
theorem bundlesIssueTogether : Claim.BundlesIssueTogether := by
  intro s rest core early h r c code hseg
  have hready := turned_ready h.turn
  have hnone : segmentEnds (ready s core early rest) = none := hready.segmentEnds_none fun g hg hlast => absurd hlast (hseg g hg)
  have hcode : (ready s core early rest).rr.codeAt (ready s core early rest).cc = code := by rw [hready.rr, hready.cc]
  have hpc : (ready s core early rest).cc.pc = c.pc := by rw [hready.cc]
  refine ⟨fun ws n hf hws => ⟨_, hready.begun n, ?_⟩, fun hf hearly => ?_⟩
  · have hf' : fetchBundle ((ready s core early rest).rr.codeAt (ready s core early rest).cc) (ready s core early rest).cc.pc = some (ws, n) := by
      rw [hcode, hpc]; exact hf
    have hbegun : (beginBundle (ready s core early rest) n).actor = .control := (beginBundle_actor _ n).trans hready.actor
    have hends : endsTogether (beginBundle (ready s core early rest) n) ((ready s core early rest).applyAll (issueActs (ready s core early rest)))
        (planWords (ws.map (decodeAt code c.pc)) (beginBundle (ready s core early rest) n)) := by
      rw [applyAll_issueActs hf' hnone, hcode, hpc]
      exact endsTogether_joinPlans hbegun _
    refine ⟨fun hearly => ⟨_, ?_, hends⟩, fun hearly hfirst hacts => ⟨_, ?_, hends⟩⟩
    · subst hearly
      exact step_issues h (soleInstr_eq_none hf hws)
    · subst hearly
      have hplan := planBundle_beginBundle n hf' hnone
      rw [hcode, hpc, joinPlans_of_acts hacts] at hplan
      exact step_early h hfirst (bundleLen_of_fetchBundle _ _ hf) hplan
  · subst hearly
    have hf' : fetchBundle ((ready s core false rest).rr.codeAt (ready s core false rest).cc) (ready s core false rest).cc.pc = none := by
      rw [hcode, hpc]; exact hf
    refine ⟨beginBundle (ready s core false rest) 1, _, step_issues h (soleInstr_of_malformed hf), hready.begun 1, ?_⟩
    have hplan : planBundle (beginBundle (ready s core false rest) 1) = .trap ((beginBundle (ready s core false rest) 1).fault ILLEGAL) := by
      rw [planBundle, beginBundle_segmentEnds _ 1 hnone, beginBundle_code, beginBundle_pc, hf']
      rfl
    have hissue : (ready s core false rest).applyAll (issueActs (ready s core false rest)) = (beginBundle (ready s core false rest) 1).applyAll
        ((planBundle (beginBundle (ready s core false rest) 1)).run (beginBundle (ready s core false rest) 1)) := by
      simp only [issueActs, hf', State.applyAll_append]
      rfl
    rw [hissue, hplan]
    exact trapped_run ((beginBundle_actor _ 1).trans hready.actor) _

/-! ## The plan of each word (R12, R33) -/

/-- What a plan places leaves the acting core's name. -/
theorem placements_cur (s : State) (id : Nat) (p : Plan) : (s.applyAll (p.placements id)).cur = s.cur := by
  have hcore : (p.placements id).all Act.isCore = true := by
    rw [List.all_eq_true]
    intro a ha
    cases p with
    | acts l =>
      have hkept := (List.mem_filter.mp ha).2
      cases a with
      | core j b => rfl
      | _ => exact absurd hkept Bool.false_ne_true
    | _ => exact nomatch ha
  rw [(applyAll_cores _ s hcore).1]
/-- In order, each word is planned with what the words before it place. -/
theorem planInOrder_spec (ws : List (Except DecodeError Instr)) : ∀ on : State, (planInOrder ws on).length = ws.length ∧
    ∀ (k : Nat) w, ws[k]? = some w → (planInOrder ws on)[k]? =
      some (planDecoded w (on.applyAll (((planInOrder ws on).take k).flatMap (Plan.placements on.cur)))) := by
  induction ws with
  | nil => exact fun on => ⟨rfl, fun k w hk => nomatch hk⟩
  | cons v ws ih =>
    intro on
    obtain ⟨hlen, hplan⟩ := ih (on.applyAll ((planDecoded v on).placements on.cur))
    rw [placements_cur] at hplan
    refine ⟨congrArg (· + 1) hlen, fun k w hk => ?_⟩
    cases k with
    | zero => cases hk; rfl
    | succ k =>
      refine (hplan k w hk).trans ?_
      rw [planInOrder, List.take_succ_cons, List.flatMap_cons, State.applyAll_append]

/-- The plan of a word ahead of its engines: the one it has in order, or, where it sees what they do, its own on the state that they leave. -/
def planAfter (seen : State) (p : Plan) : Except DecodeError Instr → Plan
  | .ok i => if afterEngines i then planWord i seen else p
  | .error _ => p
/-- The acting core as its engines leave it, with what some plans place. -/
def afterPlans (b : State) (ps : List Plan) : State :=
  { b with cores := SMap.set {} b.cores b.cur (coreAfterEngines b (ps.flatMap (Plan.placements b.cur))) }

theorem planWordsOn_behind {b : State} (h : b.enginesToCome = false) (ws : List (Except DecodeError Instr)) (on : State) :
    planWordsOn ws on b = planInOrder ws on := by
  simp only [planWordsOn, h, Bool.not_false, if_true]
theorem planWordsOn_ahead {b : State} (h : b.enginesToCome = true) (ws : List (Except DecodeError Instr)) (on : State) :
    planWordsOn ws on b = (ws.zip (planInOrder ws on)).map fun p => planAfter (afterPlans b (planInOrder ws on)) p.2 p.1 := by
  simp only [planWordsOn, h, Bool.not_true, Bool.false_eq_true, if_false]
  rfl
theorem planWordsOn_length (ws : List (Except DecodeError Instr)) (on b : State) : (planWordsOn ws on b).length = ws.length := by
  have hlen := (planInOrder_spec ws on).1
  cases h : b.enginesToCome with
  | false => rw [planWordsOn_behind h, hlen]
  | true => rw [planWordsOn_ahead h, List.length_map, List.length_zip, hlen, Nat.min_self]
theorem planWordsOn_getElem? {b : State} (h : b.enginesToCome = true) {ws : List (Except DecodeError Instr)} {on : State} {k : Nat}
    {w : Except DecodeError Instr} {p : Plan} (hw : ws[k]? = some w) (hp : (planInOrder ws on)[k]? = some p) :
    (planWordsOn ws on b)[k]? = some (planAfter (afterPlans b (planInOrder ws on)) p w) := by
  rw [planWordsOn_ahead h, List.getElem?_map, List.getElem?_zip_eq_some (z := (w, p)) |>.mpr ⟨hw, hp⟩]
  rfl

/-- R12, R18, R33, R34, R172, R176: the plans in order, and of the words that see their engines the plans after them. -/
theorem wordsPlanOnTheirBundlesState : Claim.WordsPlanOnTheirBundlesState := by
  intro ws b
  refine ⟨fun on => ⟨planWordsOn_length ws on b, fun k w hk => ?_⟩, ⟨fun h => ?_, fun hcome hps hqs hfits => ?_⟩, fun e => rfl, fun i => rfl⟩
  · have hplan := (planInOrder_spec ws on).2 k w hk
    refine ⟨hplan, fun h => ?_, fun i hi hafter hcome => ?_⟩
    · cases hcome : b.enginesToCome with
      | false => rw [planWordsOn_behind hcome]
      | true =>
        rw [planWordsOn_getElem? hcome hk hplan, hplan]
        cases w with
        | error e => rfl
        | ok i =>
          have hafter : afterEngines i = false := h.resolve_left (fun h => Bool.noConfusion (hcome.symm.trans h)) i rfl
          simp only [planAfter, hafter, Bool.false_eq_true, if_false]
    · subst hi
      rw [planWordsOn_getElem? hcome hk hplan]
      simp only [planAfter, hafter, if_true]
      rfl
  · rw [planWords]
    rcases h with h | h | h | h
    · simp only [h, Bool.not_false, Bool.true_or, if_true]
    · simp only [h, Bool.or_true, if_true]
    · simp only [h, Bool.false_and, Bool.false_eq_true, if_false, ite_self]
    · simp only [h, Bool.and_false, Bool.false_eq_true, if_false, ite_self]
  · simp only [planWords, hcome, hps, hqs, hfits, Bool.not_true, Bool.or_self, Bool.false_eq_true, if_false, Bool.and_self, if_true]

/-- Settles O40: the turns, the fetch, the bundle's joined plans, the plans in order, and every word by its own plan. -/
theorem stepRunsTheDecodedInstruction : Obligations.StepRunsTheDecodedInstruction :=
  ⟨turnsRunTheDecodedInstruction, bundlesAreFetched, bundlesIssueTogether, wordsPlanOnTheirBundlesState, fun _ s hw => exec_eq_resolve hw s⟩

end Sys2Proof.Machine
end

section
/-! SUPPORT. Classes 0 to 2: each word's plan is one scalar result, whose value is the one that the spec's tables give (R53, R57 to R63). -/

namespace Sys2Proof.Machine

open Sys2Proof.Claim hiding fits

/-- An update of the acting core is local to it. -/
theorem State.upd_local (s : State) (a : CAct) : (s.upd a).isLocal s := rfl

/-! ## How a scalar result ends (R28, R53, R321) -/

section
variable {s : State} {i : Instr} {srcs : List Nat} {d L : Nat} {v w : DWord} {fl : Nat} {tg : Tag}

theorem State.scalar_mistagged (ht : s.cc.common (srcs.map fun r => (s.cc.reg r).tag) = none) : s.scalar srcs d L 0 v fl = s.trap CLOCK := by
  simp only [State.scalar, ht]
theorem State.scalar_absent (ht : s.cc.common (srcs.map fun r => (s.cc.reg r).tag) = some tg) (hp : s.cc.present tg = false) :
    s.scalar srcs d L 0 v fl = .acts [] := by
  simp only [State.scalar, ht, hp, Bool.not_false, if_true]
theorem State.scalar_erroneous (ht : s.cc.common (srcs.map fun r => (s.cc.reg r).tag) = some tg) (hp : s.cc.present tg = true)
    (hb : (srcs.any fun r => (s.cc.reg r).bad) = true) : s.scalar srcs d L 0 v fl = s.trap UECC := by
  simp only [State.scalar, ht, hp, hb, Bool.not_true, Bool.false_eq_true, if_false, if_true]

/-- A scalar result's value, written another way. -/
theorem exec_scalar_congr (hv : v = w) (he : exec i s = resolve s (s.scalar srcs d L 0 v fl)) :
    exec i s = resolve s (s.scalar srcs d L 0 w fl) := hv ▸ he
end

/-! ## Values (R57, R60 to R63) -/

/-- Where x and y are equal it does not matter on which side of the test they fall. -/
theorem ite_slt_eq_ite_le {x y p q : DWord} (h : x = y → p = q) : (if x.slt y then p else q) = if x.toInt ≤ y.toInt then p else q := by
  by_cases he : x = y
  · rw [h he, ite_self, ite_self]
  · have hne : x.toInt ≠ y.toInt := fun hi => he (BitVec.eq_of_toInt_eq hi)
    have hiff : x.slt y = true ↔ x.toInt ≤ y.toInt := by rw [BitVec.slt_iff_toInt_lt]; omega
    simp only [hiff]
theorem ite_ult_eq_ite_le {x y p q : DWord} (h : x = y → p = q) : (if x.ult y then p else q) = if x.toNat ≤ y.toNat then p else q := by
  by_cases he : x = y
  · rw [h he, ite_self, ite_self]
  · have hne : x.toNat ≠ y.toNat := fun hi => he (BitVec.eq_of_toNat_eq hi)
    have hiff : x.ult y = true ↔ x.toNat ≤ y.toNat := by rw [BitVec.ult_iff_lt, BitVec.lt_def]; omega
    simp only [hiff]
theorem bool64_decide (p : Prop) [Decidable p] : bool64 (decide p) = flag p := by
  simp only [bool64, flag, decide_eq_true_eq]
theorem popc_eq (x : DWord) : popc x = BitVec.ofNat 64 ((List.range 64).countP fun i => x.getLsbD i) := by
  rw [popc, List.countP_eq_length_filter]
/-- The mask of width min(b[12:6], 64): all ones from 64 on, and below that 2 to the width, less 1 (R60). -/
theorem fieldMask_eq (b : DWord) : fieldMask b = lowMask b := by
  have hfld : fld b.toNat 6 7 = b.toNat / 64 % 128 := rfl
  unfold fieldMask lowMask
  rw [hfld]
  generalize b.toNat / 64 % 128 = w
  dsimp only
  split
  · rename_i h
    rw [Nat.min_eq_right h]; rfl
  · rename_i h
    have hlt : 2 ^ w < 2 ^ 64 := Nat.pow_lt_pow_right (by decide) (Nat.not_le.mp h)
    have hpos : 0 < 2 ^ w := Nat.two_pow_pos w
    have hone : (1 : DWord).toNat = 1 := rfl
    rw [Nat.min_eq_left (Nat.le_of_not_le h)]
    apply BitVec.eq_of_toNat_eq
    rw [Nat.one_shiftLeft, BitVec.natCast_eq_ofNat, BitVec.toNat_sub, BitVec.toNat_ofNat, BitVec.toNat_ofNat, hone]
    omega
theorem bextV_eq (x b : DWord) : bextV x b = (x >>> (b.toNat % 64)) &&& lowMask b := by
  rw [bextV, fieldMask_eq]; rfl
theorem binsV_eq (d x b : DWord) : binsV d x b =
    (d &&& ~~~(lowMask b <<< (b.toNat % 64))) ||| ((x &&& lowMask b) <<< (b.toNat % 64)) := by
  rw [binsV, fieldMask_eq]; rfl
theorem slti_eq (x : DWord) (i : BitVec 12) : bool64 (x.slt (sext12 i)) = flag (x.toInt < i.toInt) := by
  rw [← bool64_decide, BitVec.slt, sext12, BitVec.toInt_signExtend_of_le (by decide)]
theorem movf_eq (i : BitVec 19) : (0#32 ++ i ++ 0#13 : DWord) = BitVec.ofNat 64 (i.toNat * 8192) := by
  have hi := i.isLt
  apply BitVec.eq_of_toNat_eq
  rw [toNat_append_eq_add, toNat_append_eq_add, BitVec.toNat_ofNat]
  simp only [BitVec.toNat_ofNat]
  omega

/-- DIV truncates toward zero; the one quotient that does not fit wraps (R58). -/
theorem divS_eq (x y : DWord) : divS x y = if y = 0 then BitVec.allOnes 64 else x.sdiv y := by
  have hdiv : BitVec.ofInt 64 (x.toInt.tdiv y.toInt) = x.sdiv y := by
    apply BitVec.eq_of_toInt_eq
    rw [BitVec.toInt_ofInt, BitVec.toInt_sdiv]
  rw [divS, hdiv]
theorem remS_eq (x y : DWord) : remS x y = if y = 0 then x else x.srem y := by
  have hrem : BitVec.ofInt 64 (x.toInt.tmod y.toInt) = x.srem y := by rw [← BitVec.toInt_srem, BitVec.ofInt_toInt]
  rw [remS, hrem]
theorem divU_eq (x y : DWord) : divU x y = if y = 0 then BitVec.allOnes 64 else x / y := by
  have hdiv : BitVec.ofNat 64 (x.toNat / y.toNat) = x / y := by rw [← BitVec.toNat_udiv, BitVec.ofNat_toNat, BitVec.setWidth_eq]
  rw [divU, hdiv]
theorem remU_eq (x y : DWord) : remU x y = if y = 0 then x else x % y := by
  have hrem : BitVec.ofNat 64 (x.toNat % y.toNat) = x % y := by rw [← BitVec.toNat_umod, BitVec.ofNat_toNat, BitVec.setWidth_eq]
  rw [remU, hrem]

/-! ## Scalar words (R57, R60 to R63) -/

/-- Every scalar word but the divider's is the scalar result that the spec's tables give it. -/
theorem exec_of_scalarTable {i : Instr} {s : State} {x : Scalar} (h : scalarTable s.val i = some x) :
    exec i s = resolve s (s.scalar x.srcs x.d x.lat 0 x.val x.flags) := by
  cases i with
  | min d a b => cases h; exact exec_scalar_congr (ite_slt_eq_ite_le fun h => h) rfl
  | max d a b => cases h; exact exec_scalar_congr (ite_slt_eq_ite_le fun h => h.symm) rfl
  | minu d a b => cases h; exact exec_scalar_congr (ite_ult_eq_ite_le fun h => h) rfl
  | maxu d a b => cases h; exact exec_scalar_congr (ite_ult_eq_ite_le fun h => h.symm) rfl
  | seq d a b => cases h; exact exec_scalar_congr (bool64_decide _) rfl
  | slt d a b => cases h; exact exec_scalar_congr (bool64_decide _) rfl
  | sltu d a b => cases h; exact exec_scalar_congr (bool64_decide _) rfl
  | sel d a b => cases h; exact exec_scalar_congr (ite_not ..) rfl
  | popc d a => cases h; exact exec_scalar_congr (popc_eq _) rfl
  | bext d a b => cases h; exact exec_scalar_congr (bextV_eq _ _) rfl
  | bins d a b => cases h; exact exec_scalar_congr (binsV_eq _ _ _) rfl
  | slti d a n => cases h; exact exec_scalar_congr (slti_eq _ _) rfl
  | movf d n => cases h; exact exec_scalar_congr (movf_eq _) rfl
  | add | sub | mul | mulh | mulhu | andS | orS | xorS | andn | shl | shr | sra | rot | clz | ctz | addsat | subsat | addi | andi | ori | xori
  | shli | shri | srai | movi | insh | inst => cases h; rfl
  | _ => exact nomatch h

/-- R53, R57, R60 to R63: the one landing of a scalar result. -/
theorem scalarResultsLand : Claim.ScalarResultsLand := by
  intro i s x tg hx hs
  have he := exec_of_scalarTable hx
  rw [State.scalar_ok hs.tags hs.present hs.clean] at he
  exact exec_schedules_one hs.actor _ he

/-- R53, R28, R54, R321: each clause is one branch of a scalar result. -/
theorem scalarClockRules : Claim.ScalarClockRules := by
  intro i s x hx hc
  have he := exec_of_scalarTable hx
  refine ⟨fun ht => ?_, fun tg ht hp => ?_, fun tg ht hp hb => ?_⟩
  · exact exec_traps _ hc (he.trans (congrArg (resolve s) (State.scalar_mistagged ht)))
  · exact exec_issues [] hc (he.trans (congrArg (resolve s) (State.scalar_absent ht hp))) (List.forall_mem_nil _)
  · exact exec_traps _ hc (he.trans (congrArg (resolve s) (State.scalar_erroneous ht hp hb)))

/-- Settles O2: every scalar word is one scalar result, and each clause is one of its branches. -/
theorem scalarWordsLand : Obligations.ScalarWordsLand := ⟨scalarResultsLand, scalarClockRules⟩

/-! ## The divider (R58, R59) -/

section
variable {s : State} {d a b : Nat} {f : DWord → DWord → DWord}

/-- At a free divider the word occupies it beside what its scalar result does, unless that traps. -/
theorem divide_acts {l : List Act} (hf : s.cc.divFree ≤ s.cyc) (h : s.scalar [a, b] d 18 0 (f (s.val a) (s.val b)) 0 = .acts l) :
    divide s d a b f = .acts (s.upd (.divFree (s.cyc + 18 * s.mul)) :: l) := by
  have hbinary : binary s d a b Config.divCycles f = .acts l := h
  rw [divide, decide_eq_true hf, State.unless_true, hbinary]
  rfl
theorem divide_mistagged (hf : s.cc.divFree ≤ s.cyc) (ht : s.cc.common ([a, b].map fun r => (s.cc.reg r).tag) = none) :
    divide s d a b f = s.trap CLOCK := by
  rw [divide, decide_eq_true hf, State.unless_true, binary, State.scalar_mistagged ht]
  rfl
/-- At an occupied divider timed code raises SCHED, and elastic code holds. -/
theorem divide_occupied (hc : s.actor = .control) (hf : s.cyc < s.cc.divFree) :
    divide s d a b f = if s.inSeg then s.sched 5 0 else .hold [] := by
  rw [divide, decide_eq_false (Nat.not_le.mpr hf), State.unless, State.timed_control hc]; rfl
end

/-- Every word of the divider's family divides by a function whose value the spec's tables give. -/
theorem exec_of_divideTable {i : Instr} {s : State} {x : Scalar} (h : divideTable s.val i = some x) :
    ∃ d a b f, exec i s = resolve s (divide s d a b f) ∧ x = ⟨[a, b], d, 18, f (s.val a) (s.val b), 0⟩ := by
  cases i with
  | div d a b => cases h; exact ⟨_, _, _, divS, rfl, by rw [divS_eq]⟩
  | divu d a b => cases h; exact ⟨_, _, _, divU, rfl, by rw [divU_eq]⟩
  | rem d a b => cases h; exact ⟨_, _, _, remS, rfl, by rw [remS_eq]⟩
  | remu d a b => cases h; exact ⟨_, _, _, remU, rfl, by rw [remU_eq]⟩
  | _ => exact nomatch h

/-- Settles O1: `divide` tests the divider first and then the word's scalar result; each clause is one branch of the two. -/
theorem divisionsLand : Obligations.DivisionsLand := by
  intro i s x hx hc
  obtain ⟨d, a, b, f, he, rfl⟩ := exec_of_divideTable hx
  refine ⟨fun hf => ⟨fun tg hs => ?_, fun tg ht hp => ?_, fun ht => ?_⟩, fun hf => ⟨fun hseg => ?_, fun tg ht hseg => ?_⟩⟩
  · exact exec_issues _ hc (he.trans (congrArg (resolve s) (divide_acts hf (State.scalar_ok hs.tags hs.present hs.clean))))
      (List.forall_mem_cons.mpr ⟨s.upd_local _, List.forall_mem_singleton.mpr (s.lands_local _ _ _)⟩)
  · exact exec_issues _ hc (he.trans (congrArg (resolve s) (divide_acts hf (State.scalar_absent ht hp))))
      (List.forall_mem_singleton.mpr (s.upd_local _))
  · exact exec_traps _ hc (he.trans (congrArg (resolve s) (divide_mistagged hf ht)))
  · rw [divide_occupied hc hf, hseg] at he
    exact exec_holds hc he
  · rw [divide_occupied hc hf, hseg] at he
    exact exec_traps _ hc he

end Sys2Proof.Machine
end

section
/-! SUPPORT. Class 3: the branches of each control word's plan, and how a word that transfers goes on (R54, R55, R64 to R79). -/

namespace Sys2Proof.Machine

open Sys2Proof.Claim hiding fits

/-! ## What steers, and what may not stand in a segment (R54, R65) -/

section
variable {s : State} {i : Instr} {a : Nat} {p : Plan}

theorem State.notTimed_inSeg (h : s.inSeg = true) (p : Plan) : s.notTimed p = s.trap TIMING := if_pos h
theorem steered_ok (hm : maySteer s a) (hs : s.inSeg = false) (p : Plan) : steered s a p = p := by
  obtain ⟨ht, hb⟩ := hm
  have hst : steer (s.tag a) = true := decide_eq_true ht
  simp only [steered, hst, hb, State.notTimed_ok hs, Bool.not_true, Bool.false_eq_true, if_false]
theorem steered_mistagged (ht : ¬ (s.tag a = 0 ∨ s.tag a = 1)) (p : Plan) : steered s a p = s.trap CLOCK := by
  have hst : steer (s.tag a) = false := decide_eq_false ht
  simp only [steered, hst, Bool.not_false, if_true]
theorem steered_inSeg (ht : s.tag a = 0 ∨ s.tag a = 1) (hs : s.inSeg = true) (p : Plan) : steered s a p = s.trap TIMING := by
  have hst : steer (s.tag a) = true := decide_eq_true ht
  simp only [steered, hst, State.notTimed_inSeg hs, Bool.not_true, Bool.false_eq_true, if_false]

/-- A word that a scalar steers goes on as its own plan says, or raises CLOCK, or TIMING, before any of it. -/
theorem exec_steered_ok (hm : maySteer s a) (hs : s.inSeg = false) (he : exec i s = resolve s (steered s a p)) : exec i s = resolve s p :=
  steered_ok hm hs p ▸ he
theorem exec_steered_mistagged (hc : s.actor = .control) (ht : ¬ (s.tag a = 0 ∨ s.tag a = 1)) (he : exec i s = resolve s (steered s a p)) :
    ∃ u, exec i s = .next u ∧ Trapped s u (s.fault CLOCK) :=
  exec_traps _ hc (he.trans (congrArg (resolve s) (steered_mistagged ht p)))
theorem exec_steered_inSeg (hc : s.actor = .control) (ht : s.tag a = 0 ∨ s.tag a = 1) (hs : s.inSeg = true)
    (he : exec i s = resolve s (steered s a p)) : ∃ u, exec i s = .next u ∧ Trapped s u (s.fault TIMING) :=
  exec_traps _ hc (he.trans (congrArg (resolve s) (steered_inSeg ht hs p)))
theorem exec_notTimed_ok (hs : s.inSeg = false) (he : exec i s = resolve s (s.notTimed p)) : exec i s = resolve s p :=
  State.notTimed_ok hs p ▸ he
theorem exec_notTimed_inSeg (hc : s.actor = .control) (hs : s.inSeg = true) (he : exec i s = resolve s (s.notTimed p)) :
    ∃ u, exec i s = .next u ∧ Trapped s u (s.fault TIMING) :=
  exec_traps _ hc (he.trans (congrArg (resolve s) (State.notTimed_inSeg hs p)))
end

theorem goTo_local (s : State) (n kind : Nat) : ∀ a ∈ goTo s n kind, a.isLocal s :=
  List.forall_mem_cons.mpr ⟨s.upd_local _, List.forall_mem_singleton.mpr (s.upd_local _)⟩
/-- A word that only updates the acting core, once, issues. -/
theorem exec_updates_once {i : Instr} {s : State} (a : CAct) (hc : s.actor = .control) (he : exec i s = resolve s (.acts [s.upd a])) :
    ∃ t, exec i s = .next t ∧ Issued s t (CAct.apply s.cc a) [] :=
  exec_issues _ hc he (List.forall_mem_singleton.mpr (s.upd_local a))

/-! ## Transfers (R55, R67, R78) -/

section
variable {s : State} {i : Instr} {n kind : Nat}

/-- A transfer leaves the bundle as its kind says, or, in a handler that lies over the image's words, as a CALL would: either way the stream
goes on at the target, with no idle cycle. -/
theorem loopsAfter_gone (hk : kind = 1 ∨ kind = 2) (fwAt iss next : Nat) (ls : List LoopRun) :
    (loopsAfter ((gone s n kind).leave fwAt) iss next ls).2 = (next, 0) := by
  unfold Core.leave
  split
  · exact loopsAfter_call iss next ls
  · rcases hk with rfl | rfl
    · exact loopsAfter_jump iss next ls
    · exact loopsAfter_call iss next ls

/-- An issue whose core is that of a transfer goes on at the target one cycle of the unit later. -/
theorem Issued.goes {t : State} {ev : List (Key × Item)} (hk : kind = 1 ∨ kind = 2) (h : Issued s t (gone s n kind) ev) :
    Goes s t n kind ev := by
  have hafter := loopsAfter_gone (s := s) (n := n) hk (s.region s.ctx).fwAt (gone s n kind).issPc (gone s n kind).npc (gone s n kind).loops
  refine ⟨h, ?_, ?_⟩
  · rw [show t.cc.pc = _ from congrArg Prod.snd h.next, hafter]; rfl
  · rw [h.issue, hafter, Nat.zero_mul]; rfl

/-- A word that does nothing but go to a target goes there. -/
theorem exec_goes (hc : s.actor = .control) (hk : kind = 1 ∨ kind = 2) (he : exec i s = resolve s (.acts (goTo s n kind))) :
    ∃ u, exec i s = .next u ∧ Goes s u n kind [] := by
  obtain ⟨u, hu, h⟩ := exec_issues _ hc he (goTo_local s _ _)
  exact ⟨u, hu, Issued.goes hk h⟩
/-- A word that does nothing issues, and its stream goes on in sequence. -/
theorem exec_issues_nothing (hc : s.actor = .control) (he : exec i s = resolve s (.acts [])) :
    ∃ u, exec i s = .next u ∧ Issued s u s.cc [] := exec_issues [] hc he (List.forall_mem_nil _)

/-- CALL goes on at its target, and the address of the next bundle lands in s63 (R67). -/
theorem exec_call (hc : s.actor = .control) (hs : s.inSeg = false) (t : BitVec 13) : ∃ u, exec (.call t) s = .next u ∧
    Goes s u t.toNat 2 [landing s 1 0 [.reg 63 (BitVec.ofNat 64 s.cc.npc) 0 false]] := by
  obtain ⟨u, hu, h⟩ := exec_issues (s.lands 1 0 [.reg 63 (BitVec.ofNat 64 s.cc.npc) 0 false] :: goTo s t.toNat 2) hc
    (exec_notTimed_ok (i := .call t) hs rfl) (List.forall_mem_cons.mpr ⟨s.lands_local _ _ _, goTo_local s _ _⟩)
  exact ⟨u, hu, Issued.goes (.inr rfl) h⟩

theorem planNexts_pastTable {a : BitVec 6} {n : BitVec 5} {b : BitVec 12} (h : s.rr.segs.length < b.toNat + n.toNat) :
    planNexts a n b s = s.trap ILLEGAL := if_pos h
/-- Within the segment table NEXTS is a steered transfer to the entry chosen by the clamped index (R78). -/
theorem exec_nexts {a : BitVec 6} {n : BitVec 5} {b : BitVec 12} (h : b.toNat + n.toNat ≤ s.rr.segs.length) :
    exec (.nexts a n b) s = resolve s (steered s a.toNat
      (.acts (goTo s (s.rr.segs.getD (b.toNat + min (s.val a.toNat).toNat (n.toNat - 1)) (0, 0, 1)).1 1))) :=
  congrArg (resolve s) (if_neg (Nat.not_lt.mpr h))
end

/-- R55, R67, R78: each word is a transfer to its target, or does nothing. -/
theorem transfersReachTheirTargets : Claim.TransfersReachTheirTargets := by
  intro s hc
  refine ⟨fun t => ?_, fun a t hm hs hv => ?_, fun a t hm hs hv => ?_, fun a t hm hs hv => ?_, fun a t hm hs hv => ?_, fun t hs => ?_,
    fun hm hs => ?_, fun a n b hm hs hn => ?_⟩
  · exact exec_goes hc (.inl rfl) rfl
  · exact exec_goes hc (.inl rfl) ((exec_steered_ok hm hs rfl).trans (by rw [if_pos hv]))
  · exact exec_issues_nothing hc ((exec_steered_ok hm hs rfl).trans (by rw [if_neg (not_not.mpr hv)]))
  · exact exec_goes hc (.inl rfl) ((exec_steered_ok hm hs rfl).trans (by rw [if_pos hv]))
  · exact exec_issues_nothing hc ((exec_steered_ok hm hs rfl).trans (by rw [if_neg hv]))
  · exact exec_call hc hs t
  · have hfld : fld (s.val 63).toNat 0 13 = (s.val 63).toNat % 8192 := by rw [fld, Nat.pow_zero, Nat.div_one]; rfl
    exact hfld ▸ exec_goes hc (.inr rfl) (exec_steered_ok hm hs rfl)
  · exact exec_goes hc (.inl rfl) (exec_steered_ok hm hs (exec_nexts hn))

/-- R65, R54, R78: what each word tests before its own plan. -/
theorem controlWordsTrapWhereTheyMayNotStand : Claim.ControlWordsTrapWhereTheyMayNotStand := by
  intro s hc
  refine ⟨fun a t l n ht => ⟨?_, ?_, ?_⟩, fun a n b hn ht => ?_, fun ht => ?_, fun a t l n ht hs => ⟨?_, ?_, ?_⟩, fun a n b hn ht hs => ?_,
    fun ht hs => ?_, fun a n b hn => ?_, fun i t v n w hi hs => ?_⟩
  · exact exec_steered_mistagged hc ht rfl
  · exact exec_steered_mistagged hc ht rfl
  · exact exec_steered_mistagged hc ht rfl
  · exact exec_steered_mistagged hc ht (exec_nexts hn)
  · exact exec_steered_mistagged hc ht rfl
  · exact exec_steered_inSeg hc ht hs rfl
  · exact exec_steered_inSeg hc ht hs rfl
  · exact exec_steered_inSeg hc ht hs rfl
  · exact exec_steered_inSeg hc ht hs (exec_nexts hn)
  · exact exec_steered_inSeg hc ht hs rfl
  · exact exec_traps _ hc (congrArg (resolve s) (planNexts_pastTable hn))
  · rcases hi with rfl | rfl | rfl | rfl | rfl <;> exact exec_notTimed_inSeg hc hs rfl

/-- Settles O3: a transfer's own plan, and the tests that stand before it. -/
theorem controlTransfers : Obligations.ControlTransfers := ⟨transfersReachTheirTargets, controlWordsTrapWhereTheyMayNotStand⟩

/-! ## IDLE and WAITS (R66, R79) -/

/-- Settles O4: both words set the delay of the next bundle; WAITS tests its stamp first. -/
theorem idleAndWaitsDelayTheStream : Obligations.IdleAndWaitsDelayTheStream := by
  intro s hc
  refine ⟨fun n => exec_updates_once (.npc s.cc.npc (n.toNat * s.cc.divisor 0)) hc rfl, fun w hs hlt => ?_, fun w hs hle => ?_⟩
  · exact exec_updates_once (.npc s.cc.npc (s.rr.ibase + w.toNat - s.cyc)) hc ((exec_notTimed_ok hs rfl).trans (by rw [if_neg (by omega)]))
  · exact exec_traps _ hc ((exec_notTimed_ok hs rfl).trans (by rw [if_pos (by omega)]))

/-! ## Loops (R68, R69) -/

/-- A core in its handler, at word 16 of the firmware's code, where a LOOP stands; its body is the one word at 17. The image has no words
there, and reads of them give 0, which is the first word of a bundle of three (R32, R214, R374). -/
def loopInHandler : State :=
  { State.reset with
    cores := [(2048, { pc := 16, issPc := 16, npc := 17, mode := .system, inHandler := true })]
    regions := [(1, { phase := .run, ctx := 1, fwAt := 16, fw := [(16, 0x9B000201), (17, 0x98000001)] })]
    cur := 2048
    actor := .control }

/-- The body ends where the handler's own word ends. -/
theorem exec_loopInHandler : ∃ t, exec (.loop 0 2 1) loopInHandler = .next t ∧ t.cc.loops.map LoopRun.stop = [18] :=
  ⟨_, rfl, by decide +kernel⟩

/-- Refutes O5: a LOOP in the handler counts its body in the firmware's words, which the core is fetching (R36), and the statement counts it in
the image's words. The two differ where bundles of another length stand there, as at loopInHandler. -/
theorem not_loopsOpen : ¬ Obligations.LoopsOpen := by
  intro h
  obtain ⟨hopens, -⟩ := h loopInHandler rfl 0 1 (.loop 0 2 1) 2 (.inl ⟨2, rfl, rfl⟩)
  obtain ⟨t, ht, hissued⟩ := hopens (by unfold mayLoop; decide +kernel) (by decide)
  have hstated : t.cc.loops.map LoopRun.stop = [20] := by
    rw [show t.cc.loops = _ from congrArg Prod.fst hissued.next]; decide +kernel
  obtain ⟨u, hu, hstop⟩ := exec_loopInHandler
  have htu : t = u := Host.Outcome.next.inj (ht.symm.trans hu)
  rw [htu, hstop] at hstated
  exact absurd hstated (by decide)

/-! ## Timed segments (R73, R75, R295) -/

/-- Settles O6: SEGB tests the divisor, and SEGE the length and then the signature. -/
theorem segmentsOpenAndClose : Obligations.SegmentsOpenAndClose := by
  intro s hc
  refine ⟨fun v n hs hv => ?_, fun v n hs hv => ?_, fun lit hg => ?_, fun lit g hg => ?_⟩
  · exact exec_updates_once (.seg (some ⟨s.cyc, n.toNat, v.toNat + 1, 0xFFFFFFFF, s.cc.issPc⟩)) hc
      ((exec_notTimed_ok hs rfl).trans (by rw [if_neg (not_not.mpr hv)]; rfl))
  · exact exec_traps _ hc ((exec_notTimed_ok hs rfl).trans (by rw [if_pos hv]))
  · exact exec_traps _ hc (congrArg (resolve s) (by simp only [planSege, hg]; rfl))
  · refine ⟨fun hlen hcrc => ?_, fun hlen => ?_, fun hlen hcrc => ?_⟩
    · exact exec_updates_once (.seg none) hc (congrArg (resolve s) (by
        simp only [planSege, hg]; rw [if_neg (not_not.mpr hlen), if_neg (not_not.mpr hcrc)]))
    · exact exec_traps _ hc (congrArg (resolve s) (by simp only [planSege, hg]; rw [if_pos hlen]))
    · exact exec_traps _ hc (congrArg (resolve s) (by simp only [planSege, hg]; rw [if_neg (not_not.mpr hlen), if_pos hcrc]))

/-! ## The end of an instant (R76, R77) -/

/-- Settles O7: outside a segment ENDI arrives; KEND arrives and ends the group, or first waits for its levels to close. -/
theorem instantsEnd : Obligations.InstantsEnd := by
  intro s hc hs
  refine ⟨?_, fun hl => ?_, fun hl => ?_⟩
  · exact exec_updates_once (.arrived true 0) hc (exec_notTimed_ok hs rfl)
  · exact exec_issues [s.upd (.kend true), s.upd (.arrived true 0)] hc
      ((exec_notTimed_ok hs rfl).trans (by rw [hl]; rfl))
      (List.forall_mem_cons.mpr ⟨s.upd_local _, List.forall_mem_singleton.mpr (s.upd_local _)⟩)
  · exact exec_issues [s.upd (.kendPend true), s.upd (.wait ⟨.rend true, s.cyc, none⟩)] hc
      ((exec_notTimed_ok hs rfl).trans (by rw [if_pos (List.length_pos_iff.mpr hl)]))
      (List.forall_mem_cons.mpr ⟨s.upd_local _, List.forall_mem_singleton.mpr (s.upd_local _)⟩)

end Sys2Proof.Machine
end

section
/-! SUPPORT. The words of the spec's examples (R62 to R217). -/

namespace Sys2Proof

/-- Settles O41: the words are literals, and decoding them is evaluation. -/
theorem exampleWordsDecode : Obligations.ExampleWordsDecode := by
  unfold Obligations.ExampleWordsDecode
  decide

end Sys2Proof
end

section
/-! SUPPORT. WHEN and MERGE, of scalars and of tiles: the issue checks as the spec words them, and what each word plans, case by case. -/

namespace Sys2Proof.Machine

open Sys2Proof.Claim hiding fits

/-! ## The issue checks (R83, R84, R90) -/

theorem whenOk_eq_true_iff (s : State) (src k : Tag) :
    whenOk s.cc src k = true ↔ isDefined s k ∧ Claim.fits s src (sourceClock s k) := by
  rw [whenOk, Bool.and_eq_true, Core.defined_eq_true_iff, tagOn_eq_true_iff]; rfl
theorem whenOk_eq_false_iff (s : State) (src k : Tag) :
    whenOk s.cc src k = false ↔ ¬ (isDefined s k ∧ Claim.fits s src (sourceClock s k)) := by
  rw [← whenOk_eq_true_iff, Bool.not_eq_true]
theorem mergeOk_eq_true_iff {k : Tag} (hk : 2 ≤ k.toNat) (s : State) (src old : Tag) :
    mergeOk s.cc src old k = true ↔ merges s src old k := by
  have hold := Core.defined_eq_true_iff s old
  have hsrc := tagOn_eq_true_iff s src k
  simp only [mergeOk, merges, Bool.and_eq_true, decide_eq_true_eq, hold, hsrc, hk, true_and, and_assoc]
  rfl
theorem mergeOk_eq_false_iff {k : Tag} (hk : 2 ≤ k.toNat) (s : State) (src old : Tag) :
    mergeOk s.cc src old k = false ↔ ¬ merges s src old k := by
  rw [← mergeOk_eq_true_iff hk, Bool.not_eq_true]
theorem Core.present_eq_false_iff (s : State) (k : Tag) : s.cc.present k = false ↔ ¬ isPresent s k := by
  rw [← Core.present_eq_true_iff, Bool.not_eq_true]

/-! ## WHEN (R83) -/

section
variable {s : State} {d a : BitVec 7} {k : BitVec 4}

theorem planWhen_fixed (hk : k = 0) : planWhen d a k s = s.trap ILLEGAL := if_pos hk
theorem planWhen_mistagged (hk : k ≠ 0) (ht : ¬ Claim.fits s (s.tag a.toNat) (sourceClock s k)) : planWhen d a k s = s.trap CLOCK := by
  have hok := (whenOk_eq_false_iff s (s.tag a.toNat) k).mpr fun h => ht h.2
  simp only [planWhen, hk, hok, Bool.not_false, if_false, if_true]
theorem planWhen_absent (hk : k ≠ 0) (hd : isDefined s k) (hp : ¬ isPresent s k)
    (ht : Claim.fits s (s.tag a.toNat) (sourceClock s k)) : planWhen d a k s = .acts [] := by
  have hok := (whenOk_eq_true_iff s _ k).mpr ⟨hd, ht⟩
  have hp := (Core.present_eq_false_iff s k).mpr hp
  simp only [planWhen, hk, hok, hp, Bool.not_true, Bool.not_false, Bool.false_eq_true, if_false, if_true]
theorem planWhen_ok (hk : k ≠ 0) (hp : isPresent s k) (ht : Claim.fits s (s.tag a.toNat) (sourceClock s k))
    (hb : s.bad a.toNat = false) : planWhen d a k s = .acts [s.lands 1 0 [.reg d.toNat (s.val a.toNat) k false]] := by
  have hok := (whenOk_eq_true_iff s _ k).mpr ⟨hp.1, ht⟩
  have hp := (Core.present_eq_true_iff s k).mpr hp
  simp only [planWhen, hk, hok, hp, hb, Bool.not_true, Bool.false_eq_true, if_false]

/-! ## MERGE (R84) -/

theorem planMerge_fixed (hk : k.toNat < 2) : planMerge d a k s = s.trap ILLEGAL := if_pos hk
theorem planMerge_mistagged (hk : 2 ≤ k.toNat) (hm : ¬ merges s (s.tag a.toNat) (s.tag d.toNat) k) :
    planMerge d a k s = s.trap CLOCK := by
  have hok := (mergeOk_eq_false_iff hk s _ _).mpr hm
  simp only [planMerge, Nat.not_lt.mpr hk, hok, Bool.not_false, if_false, if_true]
theorem planMerge_absent (hm : merges s (s.tag a.toNat) (s.tag d.toNat) k) (hp : ¬ isPresent s (s.cc.clock k.toNat).parent) :
    planMerge d a k s = .acts [] := by
  have hok := (mergeOk_eq_true_iff hm.1 s _ _).mpr hm
  have hp := (Core.present_eq_false_iff s _).mpr hp
  simp only [planMerge, Nat.not_lt.mpr hm.1, hok, hp, Bool.not_true, Bool.not_false, Bool.false_eq_true, if_false, if_true]
/-- The value that lands is tA's where the clock is present, and tD's otherwise. -/
theorem planMerge_ok (hm : merges s (s.tag a.toNat) (s.tag d.toNat) k) (hp : isPresent s (s.cc.clock k.toNat).parent)
    (ha : s.bad a.toNat = false) (hd : s.bad d.toNat = false) :
    planMerge d a k s = .acts [s.lands 1 0 [.reg d.toNat
      (if (s.cc.clock k.toNat).present then s.val a.toNat else s.val d.toNat) (s.cc.clock k.toNat).parent false]] := by
  have hok := (mergeOk_eq_true_iff hm.1 s _ _).mpr hm
  have hp := (Core.present_eq_true_iff s _).mpr hp
  have hsrc := Core.present_of_defined hm.2.1
  simp only [planMerge, Nat.not_lt.mpr hm.1, hok, hp, hsrc, Bool.not_true, Bool.false_eq_true, if_false]
  cases (s.cc.clock k.toNat).present <;>
    simp only [ha, hd, Bool.false_eq_true, if_false, if_true]
end

/-- Settles O12: each clause is one branch of WHEN's plan or of MERGE's. -/
theorem valuesChangeTheirClock : Obligations.ValuesChangeTheirClock := by
  intro s d a k hc
  refine ⟨fun hk hp ht hb => ?_, fun hk hd hp ht => ?_, fun hk ht => ?_, fun hm hp hb => ?_, fun hm hp => ?_, fun hk hm => ?_,
    fun hk => ?_, fun hk => ?_⟩
  · exact exec_schedules_one hc _ (congrArg (resolve s) (planWhen_ok hk hp ht hb))
  · exact exec_issues_nothing hc (congrArg (resolve s) (planWhen_absent hk hd hp ht))
  · exact exec_traps _ hc (congrArg (resolve s) (planWhen_mistagged hk ht))
  · exact exec_schedules_one hc _ (congrArg (resolve s) (planMerge_ok hm hp hb.1 hb.2))
  · exact exec_issues_nothing hc (congrArg (resolve s) (planMerge_absent hm hp))
  · exact exec_traps _ hc (congrArg (resolve s) (planMerge_mistagged hk hm))
  · exact exec_traps _ hc (congrArg (resolve s) (planWhen_fixed hk))
  · exact exec_traps _ hc (congrArg (resolve s) (planMerge_fixed hk))

end Sys2Proof.Machine
end

section
/-! SUPPORT. WHEN.T and MERGE.T: the tile tests that may hold them, what each plans, case by case, and the rows they land. -/

namespace Sys2Proof.Machine

open Sys2Proof.Claim hiding fits

/-! ## Words that only put entries into the agenda -/

/-- An entry, as the update that puts it into the agenda of the acting region. -/
def State.puts (s : State) (e : Key × Item) : Act := .reg s.ctx (.sched e.1 e.2)

/-- Such updates put their entries and do nothing else. -/
theorem acts_of_map_puts (s : State) (ev : List (Key × Item)) : coreActs (ev.map s.puts) = [] ∧ schedActs (ev.map s.puts) = ev ∧
    laterActs (ev.map s.puts) = [] ∧ freeActs (ev.map s.puts) = 0 := by
  induction ev with
  | nil => exact ⟨rfl, rfl, rfl, rfl⟩
  | cons e ev ih =>
    obtain ⟨hcore, hsched, hlater, hfree⟩ := ih
    exact ⟨hcore, congrArg (e :: ·) hsched, hlater, hfree⟩
/-- A word that puts entries into the agenda and does nothing else issues with them, the core as its stream leaves it. -/
theorem exec_schedules {i : Instr} {s : State} (hc : s.actor = .control) (ev : List (Key × Item))
    (he : exec i s = resolve s (.acts (ev.map s.puts))) : ∃ t, exec i s = .next t ∧ Issued s t s.cc ev := by
  obtain ⟨t, ht, hissued⟩ := exec_issues _ hc he fun a ha => by
    obtain ⟨e, -, rfl⟩ := List.mem_map.mp ha
    rfl
  obtain ⟨hcore, hsched, hlater, hfree⟩ := acts_of_map_puts s ev
  rw [Core.after, hcore, hsched, hlater, hfree] at hissued
  exact ⟨t, ht, hissued⟩
/-- The rows of a moved tile, its sidecar and its tag are entries of the agenda (R85). -/
theorem moveTile_eq_map_puts (s : State) (d a : Nat) (tg : Tag) : moveTile s d a tg = (tileMoves s d a tg).map s.puts := by
  simp only [moveTile, tileMoves, List.map_cons, List.map_map]
  rfl

/-! ## The tile tests (R12, R33, R85) -/

/-- Tile t is uncoupled or full, and may be read (R12). -/
def MayRead (s : State) (t : Nat) : Prop := s.cc.coupling t = 0 ∨ s.cc.tfull t = true
/-- Tile d may take what WHEN.T reads from tile a: it is that tile, or uncoupled or empty (R12, R85). -/
def MayTake (s : State) (d a : BitVec 7) : Prop := d = a ∨ writable s d.toNat

theorem tileOk_full_iff (s : State) (t : Nat) : s.cc.tileOk t true = true ↔ MayRead s t := by
  simp only [Core.tileOk, MayRead, Bool.or_eq_true, decide_eq_true_eq]
theorem same_or_tileOk_empty_iff (s : State) (d a : BitVec 7) :
    (decide (d = a) || s.cc.tileOk d.toNat false) = true ↔ MayTake s d a := by
  simp only [Core.tileOk, MayTake, writable, Bool.or_eq_true, decide_eq_true_eq]

section
variable {s : State} {k : Tag} {x y : Bool} {A D : Prop}

/-- A word with two tile tests goes on to its checks in a timed segment, where its clock is absent, and where both tests hold. -/
theorem State.holdFirst_goes (hc : s.actor = .control) (hx : x = true ↔ A) (hy : y = true ↔ D)
    (h : s.inSeg = true ∨ ¬ isPresent s k ∨ A ∧ D) (p : Plan) : s.holdFirst (!s.cc.present k || (x && y)) p = p := by
  have htests : (!s.cc.present k || (x && y)) = true ∨ s.timed = true := by
    rw [State.timed_control hc, Bool.or_eq_true, Bool.and_eq_true, Bool.not_eq_true', Core.present_eq_false_iff, hx, hy]
    exact or_comm.mp h
  rcases htests with h | h
  · rw [h, State.holdFirst_true]
  · simp only [State.holdFirst, h, Bool.not_true, Bool.and_false, Bool.false_eq_true, if_false]
/-- In elastic code it holds before its checks where its clock is present and a test fails. -/
theorem State.holdFirst_waits (hc : s.actor = .control) (hx : x = true ↔ A) (hy : y = true ↔ D)
    (hp : isPresent s k) (h : ¬ (A ∧ D)) (hs : s.inSeg = false) (p : Plan) :
    s.holdFirst (!s.cc.present k || (x && y)) p = .hold [] := by
  have htests : (x && y) = false := by rw [← hx, ← hy, ← Bool.and_eq_true, Bool.not_eq_true] at h; exact h
  have hpresent := (Core.present_eq_true_iff s k).mpr hp
  simp only [State.holdFirst, State.timed_control hc, hs, hpresent, htests, Bool.not_true, Bool.not_false, Bool.or_self, Bool.and_self, if_true]
/-- In a timed segment a condition that fails raises SCHED. -/
theorem State.unless_inSeg (hc : s.actor = .control) (hs : s.inSeg = true) (hx : x = true ↔ A) (h : ¬ A) (cause obj : Nat) (p : Plan) :
    s.unless x cause obj p = s.sched cause obj := by
  have hfails : x = false := by rw [← hx, Bool.not_eq_true] at h; exact h
  simp only [State.unless, State.timed_control hc, hs, hfails, Bool.false_eq_true, if_false, if_true]
end

/-! ## WHEN.T -/

section
variable {s : State} {d a : BitVec 7} {k : BitVec 4}

theorem planWhenT_held (hc : s.actor = .control) (hp : isPresent s k) (h : ¬ (MayRead s a.toNat ∧ MayTake s d a)) (hs : s.inSeg = false) :
    planWhenT d a k s = .hold [] :=
  State.holdFirst_waits hc (tileOk_full_iff s _) (same_or_tileOk_empty_iff s d a) hp h hs _
theorem planWhenT_mistagged (hc : s.actor = .control) (hk : k ≠ 0)
    (ht : ¬ (isDefined s k ∧ Claim.fits s (s.cc.ttag a.toNat) (sourceClock s k)))
    (h : s.inSeg = true ∨ ¬ isPresent s k ∨ MayRead s a.toNat ∧ MayTake s d a) : planWhenT d a k s = s.trap CLOCK := by
  have hok := (whenOk_eq_false_iff s _ k).mpr ht
  refine (State.holdFirst_goes hc (tileOk_full_iff s _) (same_or_tileOk_empty_iff s d a) h _).trans ?_
  simp only [hk, hok, Bool.not_false, if_false, if_true]
theorem planWhenT_absent (hc : s.actor = .control) (hk : k ≠ 0) (hd : isDefined s k) (hp : ¬ isPresent s k)
    (ht : Claim.fits s (s.cc.ttag a.toNat) (sourceClock s k)) : planWhenT d a k s = .acts [] := by
  have hok := (whenOk_eq_true_iff s _ k).mpr ⟨hd, ht⟩
  refine (State.holdFirst_goes hc (tileOk_full_iff s _) (same_or_tileOk_empty_iff s d a) (.inr (.inl hp)) _).trans ?_
  simp only [hk, hok, (Core.present_eq_false_iff s k).mpr hp, Bool.not_true, Bool.not_false, Bool.false_eq_true, if_false, if_true]

/-- On a present clock and with a tag that fits, what is left of WHEN.T is its two tile tests and the move. -/
theorem planWhenT_tested (hc : s.actor = .control) (hk : k ≠ 0) (hp : isPresent s k)
    (ht : Claim.fits s (s.cc.ttag a.toNat) (sourceClock s k)) (h : s.inSeg = true ∨ MayRead s a.toNat ∧ MayTake s d a) :
    planWhenT d a k s = (s.unless (s.cc.tileOk a.toNat true) 6 a.toNat <|
      s.unless (decide (d = a) || s.cc.tileOk d.toNat false) 6 d.toNat <|
      if s.cc.tileErr a.toNat then s.trap UECC
      else .acts (moveTile s d.toNat a.toNat k ++
        if s.cc.coupling d.toNat = 0 ∨ d = a then [] else [s.after 17 0 (.full s.cur d.toNat true)])) := by
  have hok := (whenOk_eq_true_iff s _ k).mpr ⟨hp.1, ht⟩
  refine (State.holdFirst_goes hc (tileOk_full_iff s _) (same_or_tileOk_empty_iff s d a) (h.imp_right .inr) _).trans ?_
  simp only [hk, hok, (Core.present_eq_true_iff s k).mpr hp, Bool.not_true, Bool.false_eq_true, if_false]
theorem planWhenT_lateSource (hc : s.actor = .control) (hk : k ≠ 0) (hp : isPresent s k)
    (ht : Claim.fits s (s.cc.ttag a.toNat) (sourceClock s k)) (hs : s.inSeg = true) (ha : ¬ MayRead s a.toNat) :
    planWhenT d a k s = s.sched 6 a.toNat := by
  rw [planWhenT_tested hc hk hp ht (.inl hs), State.unless_inSeg hc hs (tileOk_full_iff s _) ha]
theorem planWhenT_lateDestination (hc : s.actor = .control) (hk : k ≠ 0) (hp : isPresent s k)
    (ht : Claim.fits s (s.cc.ttag a.toNat) (sourceClock s k)) (hs : s.inSeg = true) (ha : MayRead s a.toNat) (hd : ¬ MayTake s d a) :
    planWhenT d a k s = s.sched 6 d.toNat := by
  rw [planWhenT_tested hc hk hp ht (.inl hs), (tileOk_full_iff s _).mpr ha, State.unless_true,
    State.unless_inSeg hc hs (same_or_tileOk_empty_iff s d a) hd]
theorem planWhenT_ok (hc : s.actor = .control) (hk : k ≠ 0) (hp : isPresent s k)
    (ht : Claim.fits s (s.cc.ttag a.toNat) (sourceClock s k)) (ha : readable s a.toNat) (hd : MayTake s d a) :
    planWhenT d a k s = .acts (List.map s.puts (tileMoves s d.toNat a.toNat k ++
      if s.cc.coupling d.toNat = 0 ∨ d = a then [] else [(s.key (s.cyc + 17 * s.mul) 0, .full s.cur d.toNat true)])) := by
  obtain ⟨hread, hclean⟩ := ha
  rw [planWhenT_tested hc hk hp ht (.inr ⟨hread, hd⟩), (tileOk_full_iff s _).mpr hread, (same_or_tileOk_empty_iff s d a).mpr hd,
    State.unless_true, State.unless_true, hclean, moveTile_eq_map_puts, List.map_append, apply_ite (List.map s.puts)]
  rfl

/-! ## MERGE.T -/

theorem planMergeT_held (hc : s.actor = .control) (hp : isPresent s (s.cc.clock k.toNat).parent)
    (h : ¬ (MayRead s a.toNat ∧ MayRead s d.toNat)) (hs : s.inSeg = false) : planMergeT d a k s = .hold [] :=
  State.holdFirst_waits hc (tileOk_full_iff s _) (tileOk_full_iff s _) hp h hs _
theorem planMergeT_mistagged (hc : s.actor = .control) (hk : 2 ≤ k.toNat)
    (hm : ¬ merges s (s.cc.ttag a.toNat) (s.cc.ttag d.toNat) k)
    (h : s.inSeg = true ∨ ¬ isPresent s (s.cc.clock k.toNat).parent ∨ MayRead s a.toNat ∧ MayRead s d.toNat) :
    planMergeT d a k s = s.trap CLOCK := by
  have hok := (mergeOk_eq_false_iff hk s _ _).mpr hm
  refine (State.holdFirst_goes hc (tileOk_full_iff s _) (tileOk_full_iff s _) h _).trans ?_
  simp only [Nat.not_lt.mpr hk, hok, Bool.not_false, if_false, if_true]
theorem planMergeT_absent (hc : s.actor = .control) (hm : merges s (s.cc.ttag a.toNat) (s.cc.ttag d.toNat) k)
    (hp : ¬ isPresent s (s.cc.clock k.toNat).parent) : planMergeT d a k s = .acts [] := by
  have hok := (mergeOk_eq_true_iff hm.1 s _ _).mpr hm
  refine (State.holdFirst_goes hc (tileOk_full_iff s _) (tileOk_full_iff s _) (.inr (.inl hp)) _).trans ?_
  simp only [Nat.not_lt.mpr hm.1, hok, (Core.present_eq_false_iff s _).mpr hp, Bool.not_true, Bool.not_false, Bool.false_eq_true, if_false,
    if_true]

/-- On a present parent and with tags that merge, what is left of MERGE.T is its two tile tests and the move. -/
theorem planMergeT_tested (hc : s.actor = .control) (hm : merges s (s.cc.ttag a.toNat) (s.cc.ttag d.toNat) k)
    (hp : isPresent s (s.cc.clock k.toNat).parent) (h : s.inSeg = true ∨ MayRead s a.toNat ∧ MayRead s d.toNat) :
    planMergeT d a k s = (s.unless (s.cc.tileOk a.toNat true) 6 a.toNat <| s.unless (s.cc.tileOk d.toNat true) 6 d.toNat <|
      if s.cc.tileErr (if (s.cc.clock k.toNat).present then a.toNat else d.toNat) then s.trap UECC
      else .acts (if (s.cc.clock k.toNat).present then moveTile s d.toNat a.toNat (s.cc.clock k.toNat).parent
        else [s.lands 2 0 [.tileTag d.toNat (s.cc.clock k.toNat).parent]])) := by
  have hok := (mergeOk_eq_true_iff hm.1 s _ _).mpr hm
  refine (State.holdFirst_goes hc (tileOk_full_iff s _) (tileOk_full_iff s _) (h.imp_right .inr) _).trans ?_
  simp only [Nat.not_lt.mpr hm.1, hok, (Core.present_eq_true_iff s _).mpr hp, Core.present_of_defined hm.2.1, Bool.not_true,
    Bool.false_eq_true, if_false]
theorem planMergeT_lateSource (hc : s.actor = .control) (hm : merges s (s.cc.ttag a.toNat) (s.cc.ttag d.toNat) k)
    (hp : isPresent s (s.cc.clock k.toNat).parent) (hs : s.inSeg = true) (ha : ¬ MayRead s a.toNat) :
    planMergeT d a k s = s.sched 6 a.toNat := by
  rw [planMergeT_tested hc hm hp (.inl hs), State.unless_inSeg hc hs (tileOk_full_iff s _) ha]
theorem planMergeT_lateDestination (hc : s.actor = .control) (hm : merges s (s.cc.ttag a.toNat) (s.cc.ttag d.toNat) k)
    (hp : isPresent s (s.cc.clock k.toNat).parent) (hs : s.inSeg = true) (ha : MayRead s a.toNat) (hd : ¬ MayRead s d.toNat) :
    planMergeT d a k s = s.sched 6 d.toNat := by
  rw [planMergeT_tested hc hm hp (.inl hs), (tileOk_full_iff s _).mpr ha, State.unless_true,
    State.unless_inSeg hc hs (tileOk_full_iff s _) hd]
/-- Where the clock is present tile a moves, and otherwise only tile d's tag changes. -/
theorem planMergeT_ok (hc : s.actor = .control) (hm : merges s (s.cc.ttag a.toNat) (s.cc.ttag d.toNat) k)
    (hp : isPresent s (s.cc.clock k.toNat).parent) (ha : readable s a.toNat) (hd : readable s d.toNat) :
    planMergeT d a k s = .acts ((if (s.cc.clock k.toNat).present then tileMoves s d.toNat a.toNat (s.cc.clock k.toNat).parent
      else [landing s 2 0 [.tileTag d.toNat (s.cc.clock k.toNat).parent]]).map s.puts) := by
  obtain ⟨hreadA, hcleanA⟩ := ha
  obtain ⟨hreadD, hcleanD⟩ := hd
  rw [planMergeT_tested hc hm hp (.inr ⟨hreadA, hreadD⟩), (tileOk_full_iff s _).mpr hreadA, (tileOk_full_iff s _).mpr hreadD,
    State.unless_true, State.unless_true, moveTile_eq_map_puts, apply_ite s.cc.tileErr, hcleanA, hcleanD, ite_self,
    apply_ite (List.map s.puts)]
  rfl
end

/-- Settles O13: an elastic bundle holds before the checks, a timed one meets its tile tests after them; each clause is one branch of
WHEN.T's plan or of MERGE.T's. -/
theorem tilesChangeTheirClock : Obligations.TilesChangeTheirClock := by
  intro s d a k hc
  refine ⟨fun hk hp ht ha hd => ?_, fun hm hp ha hd => ?_, fun hp h hs => ?_, fun hp h hs => ?_,
    fun hk hp ht hs => ⟨fun ha => ?_, fun ha hd => ?_⟩, fun hm hp hs => ⟨fun ha => ?_, fun ha hd => ?_⟩,
    fun hk hd hp ht => ?_, fun hm hp => ?_, fun hk ht h => ?_, fun hk hm h => ?_⟩
  · exact exec_schedules hc _ (congrArg (resolve s) (planWhenT_ok hc hk hp ht ha hd))
  · exact exec_schedules hc _ (congrArg (resolve s) (planMergeT_ok hc hm hp ha hd))
  · exact exec_holds hc (congrArg (resolve s) (planWhenT_held hc hp h hs))
  · exact exec_holds hc (congrArg (resolve s) (planMergeT_held hc hp h hs))
  · exact exec_traps _ hc (congrArg (resolve s) (planWhenT_lateSource hc hk hp ht hs ha))
  · exact exec_traps _ hc (congrArg (resolve s) (planWhenT_lateDestination hc hk hp ht hs ha hd))
  · exact exec_traps _ hc (congrArg (resolve s) (planMergeT_lateSource hc hm hp hs ha))
  · exact exec_traps _ hc (congrArg (resolve s) (planMergeT_lateDestination hc hm hp hs ha hd))
  · exact exec_issues_nothing hc (congrArg (resolve s) (planWhenT_absent hc hk hd hp ht))
  · exact exec_issues_nothing hc (congrArg (resolve s) (planMergeT_absent hc hm hp))
  · exact exec_traps _ hc (congrArg (resolve s) (planWhenT_mistagged hc hk ht h))
  · exact exec_traps _ hc (congrArg (resolve s) (planMergeT_mistagged hc hk hm h))

end Sys2Proof.Machine
end

section
/-! SUPPORT. Matrix sums land: an exact command's updates of its accumulator, and what each element then holds (R103, R135). -/

namespace Sys2Proof.Machine

open Sys2Proof.Claim

/-! ## A list of pairs written into a map -/

section
variable {α : Type} [DecidableEq α] (d : α)

/-- Where no key is written twice, each reads what was written to it. -/
theorem SMap.get_setAll_of_mem {k : Nat} {v : α} (l : List (Nat × α)) : ∀ m : SMap α, (l.map Prod.fst).Nodup → (k, v) ∈ l →
    SMap.get d (SMap.setAll d m l) k = v := by
  induction l with
  | nil => exact fun _ _ h => absurd h List.not_mem_nil
  | cons q l ih =>
    intro m hn h
    obtain ⟨hq, hn⟩ := List.nodup_cons.mp hn
    rcases List.mem_cons.mp h with rfl | h
    · have hlater : ∀ p ∈ l, p.1 ≠ k := fun p hp hpk => hq (List.mem_map.mpr ⟨p, hp, hpk⟩)
      exact (SMap.get_setAll_other d l _ _ hlater).trans (SMap.get_set_same d v k m)
    · exact ih _ hn h
end

/-! ## Writes of an accumulator's elements -/

/-- Elements of accumulator c, each at its position 16·row + column, and the keys at which a core keeps them. -/
def accUpdates (c : Nat) (l : List (Nat × AccElem)) : List CAct := l.map fun q => .acc c (q.1 / 16) (q.1 % 16) q.2
def accPairs (c : Nat) (l : List (Nat × AccElem)) : List (Nat × AccElem) := l.map fun q => (c * 256 + q.1, q.2)

section
variable (c : Nat) (l : List (Nat × AccElem))

theorem accUpdates_foldl : ∀ k : Core, (accUpdates c l).foldl CAct.apply k = { k with accs := SMap.setAll {} k.accs (accPairs c l) } := by
  induction l with
  | nil => exact fun _ => rfl
  | cons q l ih =>
    intro k
    have hkey : c * 256 + q.1 / 16 * 16 + q.1 % 16 = c * 256 + q.1 := by omega
    refine (ih _).trans ?_
    rw [CAct.apply_acc, hkey]
    rfl

variable {c l} (m : SMap AccElem)

theorem get_accPairs_of_mem {p : Nat} {e : AccElem} (hn : (l.map Prod.fst).Nodup) (h : (p, e) ∈ l) :
    SMap.get {} (SMap.setAll {} m (accPairs c l)) (c * 256 + p) = e := by
  have hkeys : (accPairs c l).map Prod.fst = (l.map Prod.fst).map (c * 256 + ·) := by simp [accPairs]
  have hmem : (c * 256 + p, e) ∈ accPairs c l := List.mem_map_of_mem (f := fun q => (c * 256 + q.1, q.2)) h
  exact SMap.get_setAll_of_mem {} _ m (hkeys ▸ hn.map fun _ _ => Nat.add_left_cancel) hmem
theorem get_accPairs_of_not_mem {p : Nat} (h : p ∉ l.map Prod.fst) :
    SMap.get {} (SMap.setAll {} m (accPairs c l)) (c * 256 + p) = SMap.get {} m (c * 256 + p) := by
  refine SMap.get_setAll_other {} _ m _ fun q hq heq => ?_
  obtain ⟨r, hr, rfl⟩ := List.mem_map.mp hq
  exact h (Nat.add_left_cancel heq ▸ List.mem_map_of_mem hr)
end

/-! ## Zeroing (R135) -/

/-- What Z writes first, and what an element then holds before its sum. -/
def zeroing (zero : Bool) : List (Nat × AccElem) := if zero then (List.range 256).map fun p => (p, {}) else []
def elemBefore (k : Core) (c : Nat) (zero : Bool) (p : Nat) : AccElem := if zero then {} else SMap.get {} k.accs (c * 256 + p)

theorem get_zeroing (k : Core) (c : Nat) (zero : Bool) {p : Nat} (hp : p < 256) :
    SMap.get {} (SMap.setAll {} k.accs (accPairs c (zeroing zero))) (c * 256 + p) = elemBefore k c zero p := by
  cases zero with
  | false => rfl
  | true =>
    have hkeys : ((zeroing true).map Prod.fst).Nodup := by
      have : (zeroing true).map Prod.fst = List.range 256 := by simp [zeroing, Function.comp_def]
      exact this ▸ List.nodup_range
    exact get_accPairs_of_mem _ hkeys (List.mem_map.mpr ⟨p, List.mem_range.mpr hp, rfl⟩)

/-! ## The landing of an exact command -/

/-- At fidelity 0 the accumulator makes no band operation and reports no error. -/
theorem landElem_exact (el : AccElem) (width spec : Nat) (S g : Int) (idx : Nat) : (landElem el width 0 spec S g idx).2 = (0, false) := by
  unfold landElem
  split
  · rfl
  · rw [if_pos (.inl rfl)]

section
variable (k : Core) (c : Nat) (zero : Bool) (sums : List (Nat × Nat × Int × Int × Bool × Nat)) (width : Nat)

/-- What becomes of a sum at fidelity 0: its position, the element after it, the band operations it counts, and whether a check fired. -/
def exactResult (q : Nat × Nat × Int × Int × Bool × Nat) : Nat × AccElem × Nat × Bool :=
  let r := landElem (elemBefore k c zero q.1) width 0 q.2.1 q.2.2.1 q.2.2.2.1 q.2.2.2.2.2
  (q.1, r.1, 1 + r.2.1, q.2.2.2.2.1 || r.2.2)
/-- The elements after their sums. -/
def summed : List (Nat × AccElem) := sums.map fun q => ((exactResult k c zero width q).1, (exactResult k c zero width q).2.1)
/-- The updates of the core as an exact command lands: zeroing, the sums, the tag, and IE of an invalid operation (R135). -/
def exactLanding (tag : Tag) (invalid : Bool) : List CAct :=
  accUpdates c (zeroing zero) ++ accUpdates c (summed k c zero sums width) ++ [.accTag c tag] ++ if invalid then [.orFlags 8] else []

theorem summed_positions : (summed k c zero sums width).map Prod.fst = sums.map Prod.fst := by
  simp [summed, exactResult, Function.comp_def]
/-- A check fires only where the dequeue found an error, as no band operation is made. -/
theorem exactResult_checks (q : Nat × Nat × Int × Int × Bool × Nat) : (exactResult k c zero width q).2.2.2 = q.2.2.2.2.1 := by
  rw [exactResult, landElem_exact, Bool.or_false]
theorem map_zeroing (id : Nat) : (accUpdates c (zeroing zero)).map (Act.core id) =
    if zero then (List.range 256).map fun p => .core id (.acc c (p / 16) (p % 16) {}) else [] := by
  cases zero with
  | false => rfl
  | true => simp [accUpdates, zeroing, Function.comp_def]

/-- At fidelity 0 no report is injected and no operations are counted. -/
theorem mmaLand_at_fidelity0 (s : State) (key : Key) (id : Nat) (tag : Tag) (invalid : Bool) (seq : Nat) (timed : Bool) :
    mmaLand s key id c zero sums width 0 tag invalid seq timed =
      (if zero then (List.range 256).map fun p => .core id (.acc c (p / 16) (p % 16) {}) else []) ++
        (sums.map (exactResult (s.core id) c zero width)).map (fun r => .core id (.acc c (r.1 / 16) (r.1 % 16) r.2.1)) ++
        [.core id (.accTag c tag)] ++ (if invalid then [.core id (.orFlags 8)] else []) ++
        if !(s.region (id / 2048)).rollback ∨ ((sums.map (exactResult (s.core id) c zero width)).filter fun r => r.2.2.2).length = 0 then []
        else lateFault s { code := FIDERR, core := id, eng := 0, fseq := seq, timed := timed } :=
  congrArg (· ++ _) ((List.append_nil (_ ++ [])).trans (List.append_nil _))
/-- A command at fidelity 0 whose sums report no error lands on its core alone. -/
theorem mmaLand_exact (s : State) (key : Key) (id : Nat) (tag : Tag) (invalid : Bool) (seq : Nat) (timed : Bool)
    (hdet : ∀ q ∈ sums, q.2.2.2.2.1 = false) :
    mmaLand s key id c zero sums width 0 tag invalid seq timed =
      (exactLanding (s.core id) c zero sums width tag invalid).map (.core id) := by
  have hfired : (sums.map (exactResult (s.core id) c zero width)).filter (fun r => r.2.2.2) = [] := by
    refine List.filter_eq_nil_iff.mpr fun r hr => ?_
    obtain ⟨q, hq, rfl⟩ := List.mem_map.mp hr
    rw [exactResult_checks, hdet q hq]
    exact Bool.false_ne_true
  rw [mmaLand_at_fidelity0, hfired, List.length_nil, if_pos (Or.inr rfl), ← map_zeroing]
  simp only [exactLanding, accUpdates, summed, List.map_append, List.map_map, List.append_nil, apply_ite (List.map (Act.core id)),
    Function.comp_def, List.map_cons, List.map_nil]

theorem exactLanding_foldl (tag : Tag) : (exactLanding k c zero sums width tag false).foldl CAct.apply k =
    { k with accs := SMap.setAll {} (SMap.setAll {} k.accs (accPairs c (zeroing zero))) (accPairs c (summed k c zero sums width))
             accTag := SMap.set 0 k.accTag c tag } := by
  rw [exactLanding, List.foldl_append, List.foldl_append, List.foldl_append, accUpdates_foldl, accUpdates_foldl]
  rfl
end

/-- Updates of one core change that core alone. -/
theorem onlyCore_map_core (s : State) (id : Nat) (l : List CAct) :
    OnlyCore s (s.applyAll (l.map (.core id))) id (l.foldl CAct.apply (s.core id)) := by
  have hl : (l.map (Act.core id)).all Act.isCore = true := List.all_eq_true.mpr fun a ha => by
    obtain ⟨u, -, rfl⟩ := List.mem_map.mp ha
    rfl
  obtain ⟨hrest, hcore⟩ := applyAll_cores (l.map (.core id)) s hl
  exact ⟨hrest, by rw [hcore, updatesOf_same], fun j hj => by rw [hcore, updatesOf_other (Ne.symm hj)]; rfl⟩

/-- Settles O28: an INT8 command's landing is a list of updates of its core, and each element reads the last write to it. -/
theorem integerSumsLand : Obligations.IntegerSumsLand := by
  intro s key id c zero sums tg seq timed hsums hn t old
  have hdet : ∀ q ∈ sums, q.2.2.2.2.1 = false := fun q hq => (hsums q hq).2.2
  have honly : OnlyCore s t id ((exactLanding (s.core id) c zero sums 0 tg false).foldl CAct.apply (s.core id)) := by
    rw [show t = s.applyAll ((exactLanding (s.core id) c zero sums 0 tg false).map (.core id)) from
      congrArg s.applyAll (mmaLand_exact c zero sums 0 s key id tg false seq timed hdet)]
    exact onlyCore_map_core s id _
  rw [exactLanding_foldl] at honly
  obtain ⟨hrest, hcore, hothers⟩ := honly
  have hpositions := summed_positions (s.core id) c zero sums 0
  refine ⟨⟨hrest, by rw [hcore], hothers⟩, ?_, fun q hq => ?_, fun p hp hnot => ?_⟩
  · rw [hcore]
    exact SMap.get_set_same 0 tg c _
  · have hsum : (q.1, addInt (elemBefore (s.core id) c zero q.1) q.2.2.1) ∈ summed (s.core id) c zero sums 0 := List.mem_map_of_mem hq
    rw [hcore]
    exact get_accPairs_of_mem _ (hpositions ▸ hn) hsum
  · rw [hcore]
    exact (get_accPairs_of_not_mem _ (hpositions ▸ hnot)).trans (get_zeroing (s.core id) c zero hp)

end Sys2Proof.Machine
end

section
/-! SUPPORT. A step of MX or VX, branch by branch: what it does where it dequeues, and where it waits or stops its engine instead (R28, R111,
R116, R129, R142, R143). -/

namespace Sys2Proof.Machine

open Sys2Proof.Claim hiding fits

/-! ## What a list of local updates does -/

/-- A list of updates that are local to the acting core, its region's agenda and the free values, with what it does to each. -/
structure Does (s : State) (l : List Act) (updates : List CAct) (ev : List (Key × Item)) (free : Nat) : Prop where
  isLocal : ∀ a ∈ l, a.isLocal s
  updates : coreActs l = updates
  entries : schedActs l = ev
  later : laterActs l = []
  free : freeActs l = free

section
variable {s : State}

theorem Does.append {l m : List Act} {u v : List CAct} {ev ew : List (Key × Item)} {n k : Nat} (hl : Does s l u ev n) (hm : Does s m v ew k) :
    Does s (l ++ m) (u ++ v) (ev ++ ew) (n + k) where
  isLocal a ha := (List.mem_append.mp ha).elim (hl.isLocal a) (hm.isLocal a)
  updates := by rw [coreActs_append, hl.updates, hm.updates]
  entries := by rw [schedActs_append, hl.entries, hm.entries]
  later := by rw [laterActs_append, hl.later, hm.later, List.append_nil]
  free := by rw [freeActs_append, hl.free, hm.free]
theorem does_nothing (s : State) : Does s [] [] [] 0 := ⟨List.forall_mem_nil _, rfl, rfl, rfl, rfl⟩
theorem does_puts (s : State) (ev : List (Key × Item)) : Does s (ev.map s.puts) [] ev 0 := by
  obtain ⟨hcore, hsched, hlater, hfree⟩ := acts_of_map_puts s ev
  refine ⟨fun a ha => ?_, hcore, hsched, hlater, hfree⟩
  obtain ⟨e, -, rfl⟩ := List.mem_map.mp ha
  rfl
theorem does_upds (s : State) (l : List CAct) : Does s (l.map s.upd) l [] 0 := by
  induction l with
  | nil => exact does_nothing s
  | cons a l ih =>
    refine ⟨List.forall_mem_cons.mpr ⟨s.upd_local a, ih.isLocal⟩, congrArg (a :: ·) ih.updates, ?_, ?_, ?_⟩
    exacts [ih.entries, ih.later, ih.free]
theorem does_takeFree (s : State) (n : Nat) : Does s [.pkg (.takeFree n)] [] [] n := ⟨List.forall_mem_singleton.mpr trivial, rfl, rfl, rfl, rfl⟩

/-- A step that does such a list dequeues, its core having taken the updates. -/
theorem Does.dequeues {i : Instr} {e : Nat} {l : List Act} {u : List CAct} {ev : List (Key × Item)} {n : Nat} (h : Does s l u ev n)
    (ha : s.actor = .engine e) (he : exec i s = resolve s (.acts l)) :
    ∃ t, exec i s = .next t ∧ Dequeued s t e (u.foldl CAct.apply s.cc) ev [] n := by
  obtain ⟨t, ht, hd⟩ := exec_dequeues l ha he h.isLocal
  rw [Core.after, h.updates, h.entries, h.later, h.free] at hd
  exact ⟨t, ht, hd⟩
end

/-! ## The parts of a step -/

section
variable {s : State} {e : Nat}

/-- What a step's end leaves of the core: its engine, busy (R142, R175). -/
theorem does_stepDone (s : State) (occ land copies : Nat) : Does s [s.stepDone occ land copies]
    [.stepDone s.unit (s.cyc + occ * s.mul) (s.cyc + land * s.mul) copies] [] 0 := does_upds s [_]
theorem apply_stepDone (ha : s.actor = .engine e) (c : Core) (occ land copies : Nat) :
    CAct.apply c (.stepDone s.unit (s.cyc + occ * s.mul) (s.cyc + land * s.mul) copies) = busy s c e occ land copies := by
  have hunit : s.unit = e := by simp only [State.unit, ha]
  rw [hunit]; rfl

/-- The coupled tiles that a step consumes go empty at its last read, and the one that it only writes goes full (R116, R145). -/
theorem EStep.bits_eq (s : State) (p : EStep) (e : Nat) : p.bits s (e + 1) =
    (consumed s p e).map (fun y => if p.readEnd = 0 then s.upd (.tileFull y false) else s.puts (readAt s p.readEnd (.full s.cur y false))) ++
      (filled s p).map s.puts := by
  refine congrArg (List.append _) ?_
  unfold filled
  cases p.dst with
  | none => rfl
  | some d =>
    simp only [apply_ite (List.map s.puts), List.map_nil, Bool.or_eq_true, decide_eq_true_eq, List.contains_iff_mem, or_assoc]
    rfl
theorem does_bits_later (s : State) (p : EStep) (e : Nat) (h : p.readEnd ≠ 0) : Does s (p.bits s (e + 1)) []
    ((consumed s p e).map (fun y => readAt s p.readEnd (.full s.cur y false)) ++ filled s p) 0 := by
  have hbits : p.bits s (e + 1) = ((consumed s p e).map (fun y => readAt s p.readEnd (.full s.cur y false)) ++ filled s p).map s.puts := by
    simp only [EStep.bits_eq, h, if_false, List.map_append, List.map_map]
    rfl
  rw [hbits]; exact does_puts s _
theorem does_bits_now (s : State) (p : EStep) (e : Nat) (h : p.readEnd = 0) : Does s (p.bits s (e + 1))
    ((consumed s p e).map fun y => .tileFull y false) (filled s p) 0 := by
  have hbits : p.bits s (e + 1) = ((consumed s p e).map fun y => CAct.tileFull y false).map s.upd ++ (filled s p).map s.puts := by
    simp only [EStep.bits_eq, h, if_true, List.map_map]
    rfl
  have hdoes := (does_upds s ((consumed s p e).map fun y => CAct.tileFull y false)).append (does_puts s (filled s p))
  rw [List.append_nil, List.nil_append] at hdoes
  rw [hbits]; exact hdoes
end

/-! ## The branches of a step -/

section
variable {s : State} {i : Instr} {p : EStep} {body : Tag → List Act} {e : Nat} {tg : Tag}

theorem engineStep_pending (ha : s.actor = .engine e) (hr : p.ready = false) :
    engineStep s i p body = if s.timed then s.sched 1 p.obj else .hold [] := by
  simp only [engineStep, ha, hr, State.unless, Bool.false_eq_true, if_false]
theorem engineStep_mistagged (ha : s.actor = .engine e) (hr : p.ready = true) (ht : s.cc.common (p.allTags s.cc) = none) :
    engineStep s i p body = s.holdFirst (p.blockedBy s.cc).isNone (s.trap CLOCK) := by
  simp only [engineStep, ha, hr, State.unless_true, ht]
theorem State.holdFirst_passes {ok : Bool} (h : ok = true ∨ s.timed = true) (q : Plan) : s.holdFirst ok q = q := by
  rcases h with h | h <;> simp only [State.holdFirst, h, Bool.not_true, Bool.false_and, Bool.and_false, Bool.false_eq_true, if_false]
theorem State.holdFirst_held {ok : Bool} (h : ok = false) (ht : s.timed = false) (q : Plan) : s.holdFirst ok q = .hold [] := by
  simp only [State.holdFirst, h, ht, Bool.not_false, Bool.and_self, if_true]

theorem engineStep_held (ha : s.actor = .engine e) (hr : p.ready = true) (hb : p.blockedBy s.cc ≠ none)
    (hp : ∀ tg, s.cc.common (p.allTags s.cc) = some tg → s.cc.present tg = true) (ht : s.timed = false) :
    engineStep s i p body = .hold [] := by
  have hnone : (p.blockedBy s.cc).isNone = false := Option.isNone_eq_false_iff.mpr (Option.isSome_iff_ne_none.mpr hb)
  cases htag : s.cc.common (p.allTags s.cc) with
  | none => rw [engineStep_mistagged ha hr htag, State.holdFirst_held hnone ht]
  | some tg =>
    simp only [engineStep, ha, hr, State.unless_true, htag, hp tg htag, hnone, Bool.not_true, Bool.or_self, State.holdFirst_held rfl ht]
theorem engineStep_illegal (ha : s.actor = .engine e) (hr : p.ready = true) (ht : s.cc.common (p.allTags s.cc) = some tg)
    (hl : p.legal = false) (h : s.cc.present tg = false ∨ p.blockedBy s.cc = none ∨ s.timed = true) :
    engineStep s i p body = s.trap ILLEGAL := by
  have hgo : (!s.cc.present tg || (p.blockedBy s.cc).isNone) = true ∨ s.timed = true := by
    rcases h with h | h | h
    · exact .inl (by rw [h]; rfl)
    · exact .inl (by rw [h]; exact Bool.or_true _)
    · exact .inr h
  simp only [engineStep, ha, hr, State.unless_true, ht, State.holdFirst_passes hgo, hl, Bool.not_false, if_true]
theorem engineStep_absent (ha : s.actor = .engine e) (hr : p.ready = true) (ht : s.cc.common (p.allTags s.cc) = some tg)
    (hl : p.legal = true) (hp : s.cc.present tg = false) :
    engineStep s i p body = .acts (p.always ++ [s.stepDone p.occ (if e = 0 then p.land else 0) 0]) := by
  simp only [engineStep, ha, hr, State.unless_true, ht, hl, hp, Bool.not_false, Bool.not_true, Bool.true_or, State.holdFirst_true,
    Bool.false_eq_true, if_false, if_true]
theorem engineStep_blocked (ha : s.actor = .engine e) (hr : p.ready = true) (ht : s.cc.common (p.allTags s.cc) = some tg)
    (hl : p.legal = true) (hp : s.cc.present tg = true) (hs : s.timed = true) {y : Nat} (hb : p.blockedBy s.cc = some y) :
    engineStep s i p body = s.sched 6 y := by
  simp only [engineStep, ha, hr, State.unless_true, ht, State.holdFirst_passes (.inr hs), hl, hp, hb, Bool.not_true, Bool.false_eq_true,
    if_false]
/-- An uncorrectable error stands in a source of the step (R321). -/
def EStep.erroneous (p : EStep) (c : Core) : Prop :=
  p.bad = true ∨ p.reads.any c.rowsErr = true ∨ (p.sides.any fun t => c.sideErr t ≠ 0) = true ∨
    (p.scal.any fun r => (c.reg r).bad) = true ∨ (p.rdDst = true ∧ (p.dst.map c.rowsErr).getD false = true)
theorem engineStep_erroneous (ha : s.actor = .engine e) (hr : p.ready = true) (ht : s.cc.common (p.allTags s.cc) = some tg)
    (hl : p.legal = true) (hp : s.cc.present tg = true) (hb : p.blockedBy s.cc = none) (he : p.erroneous s.cc) :
    engineStep s i p body = s.trap UECC := by
  unfold EStep.erroneous at he
  simp only [engineStep, ha, hr, State.unless_true, ht, hl, hp, hb, Option.isNone_none, Bool.or_true, State.holdFirst_true, Bool.not_true,
    Bool.false_eq_true, if_false, he, if_true]
end

/-! ## How a step ends -/

section
variable {s : State} {i : Instr} {e : Nat}

/-- R304: a fault of a step stops its engine there. -/
theorem exec_stops {f : FaultInfo} (ha : s.actor = .engine e) (hp : s.rr.phase ≠ .stopping) (he : exec i s = resolve s (.trap f)) :
    ∃ t, exec i s = .next t ∧ (t.cc.eng e).stopped = true ∧ t.region s.ctx = RAct.apply s s.rr (.raise f) := by
  refine ⟨_, he, ?_, ?_⟩
  · simp only [Plan.run, ha, hp, if_false, State.applyAll_cons, State.applyAll_nil, State.upd]
    unfold State.cc
    rw [Act.core_cur, Act.reg_cur, Act.core_core_same, CAct.apply_eng, Core.setEng, Core.eng]
    split_ifs <;> rfl
  · simp only [Plan.run, ha, hp, if_false, State.applyAll_cons, State.applyAll_nil, State.upd, Act.core_region, Act.reg_region_same]
    rfl
/-- R116: a step of MX or VX that is held waits, and after the freeze stops. -/
theorem exec_waits (ha : s.actor = .engine e) (h2 : e ≠ 2) (he : exec i s = resolve s (.hold [])) :
    ∃ t, exec i s = .next t ∧ t.mem = s.mem ∧ t.region s.ctx = s.rr ∧
      t.cc = s.cc.setEng e { s.cc.eng e with blocked := true, stopped := decide (s.rr.phase = .stopping) } := by
  refine ⟨_, he, ?_⟩
  simp only [Plan.run, ha, List.nil_append, State.applyAll_cons, State.applyAll_nil, State.upd]
  refine ⟨rfl, rfl, ?_⟩
  unfold State.cc
  rw [Act.core_cur, Act.core_core_same, CAct.apply_eng]
  simp only [ne_eq, h2, not_false_eq_true, decide_true, Bool.and_true]

variable {p : EStep} {body : Tag → List Act} {tg : Tag}

/-- A step that runs dequeues with its results, the bits that it changes and what it always does. -/
theorem Runs.dequeues {cs bits now : List CAct} {ev ew : List (Key × Item)} {n : Nat} (h : Runs s p e tg)
    (he : exec i s = resolve s (engineStep s i p body)) (hbody : Does s (body tg) cs ev n) (hbits : Does s (p.bits s (e + 1)) bits ew 0)
    (hnow : p.always = now.map s.upd) : ∃ t, exec i s = .next t ∧
      Dequeued s t e (busy s ((cs ++ bits ++ now).foldl CAct.apply s.cc) e p.occ p.land 0) (ev ++ ew) [] n := by
  rw [engineStep_ok h, hnow] at he
  obtain ⟨t, ht, hd⟩ := (((hbody.append hbits).append (does_upds s now)).append (does_stepDone s p.occ p.land 0)).dequeues h.actor he
  rw [List.append_nil, List.append_nil, List.foldl_append (l' := [_])] at hd
  refine ⟨t, ht, ?_⟩
  rw [← apply_stepDone h.actor]
  exact hd
/-- As its tiles are read after its dequeue, only what it always does changes the core at once. -/
theorem Runs.dequeues_entries {ev : Tag → List (Key × Item)} {now : List CAct} (h : Runs s p e tg)
    (he : exec i s = resolve s (engineStep s i p fun tg => (ev tg).map s.puts)) (hend : p.readEnd ≠ 0) (hnow : p.always = now.map s.upd) :
    ∃ t, exec i s = .next t ∧ Dequeued s t e (busy s (now.foldl CAct.apply s.cc) e p.occ p.land 0)
      (ev tg ++ ((consumed s p e).map (fun y => readAt s p.readEnd (.full s.cur y false)) ++ filled s p)) :=
  h.dequeues he (does_puts s _) (does_bits_later s p e hend) hnow
/-- A step whose clock is absent takes its cycles and does only what it always does (R28, R142, R143). -/
theorem exec_absent {now : List CAct} (ha : s.actor = .engine e) (hr : p.ready = true) (ht : s.cc.common (p.allTags s.cc) = some tg)
    (hl : p.legal = true) (hp : s.cc.present tg = false) (he : exec i s = resolve s (engineStep s i p body))
    (hnow : p.always = now.map s.upd) : ∃ t, exec i s = .next t ∧
      Dequeued s t e (busy s (now.foldl CAct.apply s.cc) e p.occ (if e = 0 then p.land else 0) 0) [] := by
  rw [engineStep_absent ha hr ht hl hp, hnow] at he
  obtain ⟨t, ht, hd⟩ := ((does_upds s now).append (does_stepDone s p.occ _ 0)).dequeues ha he
  rw [List.foldl_append (l' := [_])] at hd
  refine ⟨t, ht, ?_⟩
  rw [← apply_stepDone ha]
  exact hd

/-- Where a step of MX or VX does not run, it waits, stops its engine or only takes its cycles: each clause is one branch of its plan. -/
theorem stepChecks_of_engineStep {busyFor : Nat} {now : List CAct} (he : exec i s = resolve s (engineStep s i p body)) (h2 : e ≠ 2)
    (hfor : busyFor = if e = 0 then p.land else 0) (hnow : p.always = now.map s.upd) :
    stepChecks s i p e busyFor (now.foldl CAct.apply s.cc) := by
  have stops (ha : s.actor = .engine e) (f : FaultInfo) (h : engineStep s i p body = .trap f) (hp : s.rr.phase ≠ .stopping) :
      ∃ t, exec i s = .next t ∧ (t.cc.eng e).stopped = true ∧ t.region s.ctx = RAct.apply s s.rr (.raise f) :=
    exec_stops ha hp (he.trans (congrArg (resolve s) h))
  have waits (ha : s.actor = .engine e) (h : engineStep s i p body = .hold []) := exec_waits ha h2 (he.trans (congrArg (resolve s) h))
  intro ha
  refine ⟨fun hr ht => waits ha ?_, fun hr ht => stops ha _ ?_, fun hr ht h => stops ha _ ?_, fun hr hb hp ht => waits ha ?_,
    fun tg hr ht => ⟨fun hl h => stops ha _ (engineStep_illegal ha hr ht hl h), fun hl hp => ?_,
      fun hl hp hs y hb => stops ha _ (engineStep_blocked ha hr ht hl hp hs hb),
      fun hl hp hb herr => stops ha _ (engineStep_erroneous ha hr ht hl hp hb herr)⟩⟩
  · rw [engineStep_pending ha hr, ht]; rfl
  · rw [engineStep_pending ha hr, ht]; rfl
  · rw [engineStep_mistagged ha hr ht, State.holdFirst_passes (h.imp_left fun h => by rw [h]; rfl)]; rfl
  · exact engineStep_held ha hr hb hp ht
  · rw [hfor]; exact exec_absent ha hr ht hl hp he hnow
end

end Sys2Proof.Machine
end

section
/-! SUPPORT. The matrix words: each one's step is the one that the spec's tables give, and it dequeues or does not as R129 to R143 say. -/

namespace Sys2Proof.Machine

open Sys2Proof.Claim hiding fits

/-! ## Format entries and masks (R21, R131 to R133) -/

theorem fld_zero (w n : Nat) : fld w 0 n = w % 2 ^ n := by rw [fld, Nat.pow_zero, Nat.div_one]
theorem formatEntry_eq (s : State) (fs : BitVec 5) : formatEntry s.rr s.cc s.vidx fs.toNat = entryOf s fs := by
  simp only [formatEntry, entryOf, fld_zero, Nat.reducePow]

theorem mmaOcc_eq : ∀ a, mmaOcc a = (mmaTable a).1
  | 0 | 1 | 2 | 3 | 4 | _ + 5 => rfl
theorem mmaDepth_eq : ∀ {a}, a ≤ 5 → mmaDepth a = (mmaTable a).2
  | 0, _ | 1, _ | 2, _ | 3, _ | 4, _ | 5, _ => rfl
  | _ + 6, h => absurd h (by omega)
theorem le_five_of_mmaAccepts {a b sc : Nat} (h : mmaAccepts a b sc = true) : a ≤ 5 := by
  simp only [mmaAccepts, Bool.or_eq_true, Bool.and_eq_true, decide_eq_true_eq] at h
  omega
theorem comboOk_eq (e : Nat) : comboOk e = mmaAccepts (feA e) (feB e) (feScale e) := by
  unfold comboOk mmaAccepts
  rcases feA e with _ | _ | _ | _ | _ | _ | _ <;> simp

theorem maskOf_eq (s : State) (m : BitVec 3) (n : Nat) : maskOf s.cc m.toNat n =
    ⟨(maskTable s m n).1, (maskTable s m n).2.1, (maskTable s m n).2.2.1, decide ((maskTable s m n).2.2.2 = 0)⟩ := by
  unfold maskOf maskTable
  by_cases h : m = 0
  · subst h; rfl
  · have hm : m.toNat ≠ 0 := fun hm => h (BitVec.eq_of_toNat_eq hm)
    simp only [h, hm, if_false, fld_zero, Nat.reducePow]
    rfl
theorem maskScalars_eq (m : BitVec 3) : maskScalars m.toNat = maskSource m := by
  unfold maskScalars maskSource
  by_cases h : m = 0
  · subst h; rfl
  · have hm : m.toNat ≠ 0 := fun hm => h (BitVec.eq_of_toNat_eq hm)
    simp only [h, hm, if_false]
/-- Rows and columns of a mask do not depend on the largest depth. -/
theorem maskTable_rows (s : State) (m : BitVec 3) (n k : Nat) :
    (maskTable s m n).1 = (maskTable s m k).1 ∧ (maskTable s m n).2.1 = (maskTable s m k).2.1 ∧
      (maskTable s m n).2.2.2 = (maskTable s m k).2.2.2 := by
  unfold maskTable
  split <;> exact ⟨rfl, rfl, rfl⟩
theorem filter_enabled (rows cols : Nat) :
    ((List.range 256).filter fun p => fld rows (p / 16) 1 = 1 ∧ fld cols (p % 16) 1 = 1) = enabled rows cols := by
  unfold enabled
  congr 1
  funext p
  simp only [fld, Nat.testBit_eq_decide_div_mod_eq, Nat.pow_one, Bool.decide_and]

/-! ## MMA (R132, R134, R135) -/

section
variable (s : State) (c : BitVec 3) (a : BitVec 7) (b : BitVec 4) (fs : BitVec 5) (z x : BitVec 1) (m : BitVec 3)

/-- The fidelity of a command: the least of FIDMAX, FIDREQ and FIDEL, and none for INT8 (R135). -/
def mmaFidelity : Nat :=
  if feA (entryWord s fs) = 0 then 0 else min s.rr.fidmax (min (feFid (entryWord s fs)) (fld (s.cc.csr 0x013).toNat 0 2))
/-- The mask of a command. -/
def mmaMask : Mask := maskOf s.cc m.toNat (mmaDepth (feA (entryWord s fs)))
/-- Each enabled position with the result of the command there. -/
def mmaPositions : List (Nat × Nat × Int × Int × Bool × Bool) :=
  (enabled (mmaMask s fs m).rowm (mmaMask s fs m).colm).map fun p =>
    (p, position s.cc (entryWord s fs) a.toNat b.toNat (mmaMask s fs m).depth (mmaFidelity s fs) (s.freeCtr + 2 * p) (x = 1) (p / 16) (p % 16))
/-- The sums of a command as they land, and whether it is invalid at a position. -/
def mmaSums : List (Nat × Nat × Int × Int × Bool × Nat) :=
  (mmaPositions s a b fs x m).map fun p => (p.1, p.2.1, p.2.2.1, p.2.2.2.1, p.2.2.2.2.2, s.freeCtr + 2 * p.1 + 1)
def mmaInvalid : Bool := (mmaPositions s a b fs x m).any fun p => p.2.2.2.2.1
/-- Bits of a command's accumulator adder; 0 for INT8. -/
def mmaWidth : Nat := if feA (entryWord s fs) = 0 then 0 else adderN (feA (entryWord s fs))
/-- The landing of a command at n + 6, and what else it does where it runs. -/
def mmaDue (tg : Tag) : Key × Item := due s (mmaOcc (feA (entryWord s fs)) + 6)
  (.mmaLand s.cur c.toNat (z = 1) (mmaSums s a b fs x m) (mmaWidth s fs) (mmaFidelity s fs) tg (mmaInvalid s a b fs x m) s.fseq s.timed)
def mmaBody (tg : Tag) : List Act :=
  [mmaDue s c a b fs z x m tg].map s.puts ++ if mmaFidelity s fs = 0 then [] else [.pkg (.takeFree 512)]

/-- What MMA takes of formats and masks, in the model's words and in the spec's (R132, R133). -/
theorem mma_legal : (((entryOf s fs).isSome && comboOk (entryWord s fs) && (mmaMask s fs m).ok &&
      decide ((mmaMask s fs m).depth ≤ mmaDepth (feA (entryWord s fs)))) : Bool) = (mmaStep s c a b fs z m).legal := by
  have hlegal : (mmaStep s c a b fs z m).legal = ((entryOf s fs).isSome && mmaAccepts (feA (entryWord s fs)) (feB (entryWord s fs))
      (feScale (entryWord s fs)) && decide ((maskTable s m (mmaTable (feA (entryWord s fs))).2).2.2.2 = 0) &&
      decide ((maskTable s m (mmaTable (feA (entryWord s fs))).2).2.2.1 ≤ (mmaTable (feA (entryWord s fs))).2)) := rfl
  have hmask : mmaMask s fs m = maskOf s.cc m.toNat (mmaDepth (feA (entryWord s fs))) := rfl
  rw [hlegal, comboOk_eq, hmask, maskOf_eq]
  cases h : mmaAccepts (feA (entryWord s fs)) (feB (entryWord s fs)) (feScale (entryWord s fs)) with
  | false => simp only [Bool.and_false, Bool.false_and]
  | true => rw [mmaDepth_eq (le_five_of_mmaAccepts h)]

theorem mmaMask_eq : (mmaMask s fs m).rowm = (maskTable s m (mmaTable (feA (entryWord s fs))).2).1 ∧
    (mmaMask s fs m).colm = (maskTable s m (mmaTable (feA (entryWord s fs))).2).2.1 := by
  obtain ⟨hrow, hcol, -⟩ := maskTable_rows s m (mmaDepth (feA (entryWord s fs))) (mmaTable (feA (entryWord s fs))).2
  rw [mmaMask, maskOf_eq]
  exact ⟨hrow, hcol⟩

/-- The step of MMA, in the model's words. -/
theorem mmaStep_eq : mmaStep s c a b fs z m =
    let e := entryWord s fs
    let k := mmaMask s fs m
    { reads := [a.toNat], sides := if feScale e = 1 ∨ feScale e = 2 then [a.toNat] else [], scal := maskScalars m.toNat
      tags := s.cc.btag b.toNat :: if z = 1 then [] else [s.cc.atag c.toNat]
      legal := (entryOf s fs).isSome && comboOk e && k.ok && decide (k.depth ≤ mmaDepth (feA e))
      ready := decide (SMap.get 0 s.cc.pendSlot b.toNat ≤ s.cyc), obj := b.toNat
      bad := s.cc.slotErr b.toNat k.colm (feScale e = 1 || feScale e = 3) || (z = 0 && s.cc.accErr c.toNat (enabled k.rowm k.colm))
      occ := mmaOcc (feA e), land := mmaOcc (feA e) + 6, readEnd := 0
      always := [s.upd (.pendAcc c.toNat (s.cyc + (mmaOcc (feA e) + 6) * s.mul))] } := by
  obtain ⟨hrow, hcol⟩ := mmaMask_eq s fs m
  dsimp only
  rw [mma_legal s c a b fs z m, maskScalars_eq, mmaOcc_eq, hrow, hcol, ← Bool.decide_or]
  rfl
/-- MMA is the step of the spec's tables. -/
theorem planMma_eq : planMma c a b fs z x m s = engineStep s (.mma c a b fs z x m) (mmaStep s c a b fs z m) (mmaBody s c a b fs z x m) := by
  rw [mmaStep_eq]
  simp only [planMma, formatEntry_eq, filter_enabled]
  rfl
theorem exec_mma : exec (.mma c a b fs z x m) s =
    resolve s (engineStep s (.mma c a b fs z x m) (mmaStep s c a b fs z m) (mmaBody s c a b fs z x m)) :=
  congrArg (resolve s) (planMma_eq s c a b fs z x m)
end

/-! ## The other words (R137 to R141) -/

section
variable (s : State) (c : BitVec 3) (a : BitVec 7) (b : BitVec 4) (fs : BitVec 5) (z x : BitVec 1) (m q : BitVec 3) (r : BitVec 6) (tg : Tag)

/-- The word in the format entry that a word names. -/
def entryAt (s : State) (fs : BitVec 5) : Word := SMap.get 0 s.cc.fmt ((entryOf s fs).getD 0)

def mldbStep : EStep :=
  { reads := [a.toNat], sides := if z = 0 then [a.toNat] else []
    legal := (entryOf s fs).isSome && (x = 0 || decide (feB (entryWord s fs) ≤ 5)), land := 18
    always := [s.upd (.pendSlot b.toNat (s.cyc + 18 * s.mul))] }
/-- The sidecar and tag that MLDB lands, and the rows that it reads (R134, R137). -/
def mldbDue : List (Key × Item) :=
  due s 18 (.land s.cur [.slotSide b.toNat (if z = 1 then BitVec.ofNat 2048 (rowOf 8 (List.replicate 256 0x7F)) else s.cc.side a.toNat) false,
      .slotTag b.toNat tg]) ::
    (List.range 16).map fun i => readAt s i (.mxRow s.cur (.mldb a b fs z x) i (entryAt s fs) (s.cyc + 18 * s.mul) 0)
theorem planMldb_eq : planMldb a b fs z x s =
    engineStep s (.mldb a b fs z x) (mldbStep s a b fs z x) fun tg => (mldbDue s a b fs z x tg).map s.puts := by
  simp only [planMldb, formatEntry_eq, mldbDue, List.map_cons, List.map_map]
  rfl

def mdrnStep : EStep :=
  { tags := [s.cc.atag c.toNat, s.cc.ttag a.toNat], dst := some a.toNat
    legal := (entryOf s fs).isSome && decide (4 ≤ feO (entryWord s fs) ∧ feO (entryWord s fs) ≤ 7) &&
      !(decide (6 ≤ feO (entryWord s fs)) && decide (4 ≤ q.toNat))
    ready := decide (SMap.get 0 s.cc.pendAcc c.toNat ≤ s.cyc), obj := c.toNat, bad := s.cc.accErr c.toNat (List.range 256)
    land := 24, fullAt := 19 }
/-- The tag that MDRN lands, and the rows that it reads (R138). -/
def mdrnDue : List (Key × Item) :=
  due s 4 (.land s.cur [.tileTag a.toNat tg]) ::
    (List.range 16).map fun i => readAt s i (.mxRow s.cur (.mdrn c a q fs) i (entryAt s fs) (s.cyc + (4 + i) * s.mul) (s.cyc + 24 * s.mul))
theorem planMdrn_eq : planMdrn c a q fs s = engineStep s (.mdrn c a q fs) (mdrnStep s c a fs q) fun tg => (mdrnDue s c a fs q tg).map s.puts := by
  simp only [planMdrn, formatEntry_eq, mdrnDue, List.map_cons, List.map_map]
  rfl

/-- The cycle until which MZERO leaves its accumulator pending (R139). -/
def zeroPends : Nat := max (SMap.get 0 s.cc.pendAcc c.toNat) (s.cyc + 6 * s.mul)
def mzeroStep : EStep :=
  { scal := maskSource m, tags := b :: if m = 0 then [] else [s.cc.atag c.toNat], legal := (maskTable s m 512).2.2.2 = 0, occ := 1
    land := 6, always := [s.upd (.pendAcc c.toNat (zeroPends s c))] }
/-- The zeros that MZERO lands, and the tag (R139). -/
def mzeroDue : List (Key × Item) :=
  [due s 6 (.land s.cur ((enabled (maskTable s m 512).1 (maskTable s m 512).2.1).map (fun p => .acc c.toNat (p / 16) (p % 16) {}) ++
    [.accTag c.toNat tg]))]
theorem planMzero_eq : planMzero c b m s = engineStep s (.mzero c b m) (mzeroStep s c b m) fun tg => (mzeroDue s c m tg).map s.puts := by
  simp only [planMzero, maskOf_eq, filter_enabled, maskScalars_eq]
  rfl

def mfmtStep : EStep := { scal := [r.toNat], legal := decide ((s.val r.toNat).toNat % 1024 = 0), occ := 1, land := 1 }
def mfmtDue : List (Key × Item) := [due s 1 (.land s.cur [.fmt b.toNat (BitVec.ofNat 32 (s.val r.toNat).toNat)])]
/-- MFMT tests its own tag first (R140). -/
theorem planMfmt_mistagged {s : State} {r : BitVec 6} (ha : s.actor = .engine 0) (ht : ¬ (s.tag r.toNat = 0 ∨ s.tag r.toNat = 1)) :
    planMfmt b r s = s.trap CLOCK := by
  have hplace : s.placeable 0 = true := by simp only [State.placeable, ha]
  have hst : steer (s.tag r.toNat) = false := decide_eq_false ht
  simp only [planMfmt, hplace, hst, State.holdFirst_true, Bool.not_false, if_true]
theorem planMfmt_tagged {s : State} {r : BitVec 6} (ha : s.actor = .engine 0) (ht : s.tag r.toNat = 0 ∨ s.tag r.toNat = 1) :
    planMfmt b r s = engineStep s (.mfmt b r) (mfmtStep s r) fun _ => (mfmtDue s b r).map s.puts := by
  have hplace : s.placeable 0 = true := by simp only [State.placeable, ha]
  have hst : steer (s.tag r.toNat) = true := decide_eq_true ht
  have hlow : fld (fld (s.val r.toNat).toNat 0 32) 0 10 = (s.val r.toNat).toNat % 1024 := by
    rw [fld_zero, fld_zero]; omega
  have hword : BitVec.ofNat 32 (fld (s.val r.toNat).toNat 0 32) = BitVec.ofNat 32 (s.val r.toNat).toNat := by
    apply BitVec.eq_of_toNat_eq
    rw [fld_zero, BitVec.toNat_ofNat, BitVec.toNat_ofNat, Nat.mod_mod]
  simp only [planMfmt, hplace, hst, State.holdFirst_true, Bool.not_true, Bool.false_eq_true, if_false, hlow, hword]
  rfl
end

/-! ## How they dequeue (R137 to R143) -/

/-- R134, R137 to R143: each word runs by the steps of its plan, or only takes its cycles. -/
theorem matrixStepsDequeue : Claim.MatrixStepsDequeue := by
  intro s c a b fs z x m q tg e ofmt pl pd k until_ pz
  have hldb : exec (.mldb a b fs z x) s = _ := congrArg (resolve s) (planMldb_eq s a b fs z x)
  have hdrn : exec (.mdrn c a q fs) s = _ := congrArg (resolve s) (planMdrn_eq s c a fs q)
  have hzero : exec (.mzero c b m) s = _ := congrArg (resolve s) (planMzero_eq s c b m)
  refine ⟨fun h => ?_, fun h => ?_, fun h => ?_, fun h => ?_, fun h => ?_, fun h => ?_, fun r h ht => ?_, fun n h => ?_⟩
  · exact exec_absent (now := [.pendSlot b.toNat (s.cyc + 18 * s.mul)]) h.actor h.ready h.tags h.legal h.absent hldb rfl
  · exact exec_absent (now := []) h.actor h.ready h.tags h.legal h.absent hdrn rfl
  · exact exec_absent (now := [.pendAcc c.toNat until_]) h.actor h.ready h.tags h.legal h.absent hzero rfl
  · obtain ⟨t, ht, hd⟩ := Runs.dequeues_entries (now := [.pendSlot b.toNat (s.cyc + 18 * s.mul)]) h hldb (Nat.succ_ne_zero 14) rfl
    rw [show filled s pl = [] from rfl, List.append_nil] at hd
    exact ⟨t, ht, hd⟩
  · exact Runs.dequeues_entries (now := []) h hdrn (Nat.succ_ne_zero 14) rfl
  · exact Runs.dequeues_entries (now := [.pendAcc c.toNat until_]) h hzero (Nat.succ_ne_zero 14) rfl
  · have hfmt : exec (.mfmt b r) s = _ := congrArg (resolve s) (planMfmt_tagged b h.actor ht)
    exact Runs.dequeues_entries (now := []) h hfmt (Nat.succ_ne_zero 14) rfl
  · have hhst : exec (.mhst n) s = resolve s (engineStep s (.mhst n) { occ := 1, land := 24 } fun _ =>
        [due s 24 (.histClear s.cur n.toNat)].map s.puts) := rfl
    exact Runs.dequeues_entries (now := []) h hhst (Nat.succ_ne_zero 14) rfl

/-- R28, R129 to R133, R138, R140, R143: each word's checks are those of its step; MFMT tests its own tag before them. -/
theorem matrixStepChecks : Claim.MatrixStepChecks := by
  refine ⟨fun s i p c h => ?_, fun s n r ha ht hp => ?_⟩
  · cases i with
    | mma c a b fs z x m =>
      cases h
      exact stepChecks_of_engineStep (now := [.pendAcc c.toNat (s.cyc + (mmaStep s c a b fs z m).land * s.mul)])
        (exec_mma s c a b fs z x m) (by decide) rfl rfl
    | mldb a b fs z x =>
      cases h
      exact stepChecks_of_engineStep (now := [.pendSlot b.toNat (s.cyc + 18 * s.mul)]) (congrArg (resolve s) (planMldb_eq s a b fs z x))
        (by decide) rfl rfl
    | mdrn c a q fs =>
      cases h
      exact stepChecks_of_engineStep (now := []) (congrArg (resolve s) (planMdrn_eq s c a fs q)) (by decide) rfl rfl
    | mzero c b m =>
      cases h
      exact stepChecks_of_engineStep (now := [.pendAcc c.toNat (zeroPends s c)]) (congrArg (resolve s) (planMzero_eq s c b m)) (by decide) rfl rfl
    | mfmt n r =>
      simp only [matrixTable] at h
      split at h
      · next ht =>
        cases h
        intro ha
        exact stepChecks_of_engineStep (now := []) (congrArg (resolve s) (planMfmt_tagged n ha ht)) (by decide) rfl rfl ha
      · exact nomatch h
    | _ => exact nomatch h
  · exact exec_stops ha hp (congrArg (resolve s) (planMfmt_mistagged n ha ht))

/-! ## The result of an MMA (R134, R135) -/

/-- Element j of a row, as a number and as bits (R5). -/
theorem elem_eq_toNat (r : Row) (w j : Nat) : elem r w j = (element r w j).toNat := by
  rw [elem, element, fld, BitVec.extractLsb'_toNat, Nat.shiftRight_eq_div_pow]
theorem toSigned_toNat {w : Nat} (hw : 0 < w) (v : BitVec w) : toSigned w v.toNat = v.toInt := by
  have hpow : 2 ^ w = 2 * 2 ^ (w - 1) := by rw [← Nat.pow_succ', Nat.succ_eq_add_one, Nat.sub_add_cancel hw]
  rw [toSigned, Nat.mod_eq_of_lt v.isLt, BitVec.toInt_eq_toNat_cond]
  by_cases h : v.toNat < 2 ^ (w - 1)
  · rw [if_pos h, if_pos (by omega)]
  · rw [if_neg h, if_neg (by omega)]

section
variable {s : State} {c : BitVec 3} {a : BitVec 7} {b : BitVec 4} {fs : BitVec 5} {z x : BitVec 1} {m : BitVec 3}

/-- The element of A and that of the slot that meet at depth k, at the width of A's format (R134). -/
theorem aElem_eq (s : State) (a w : Nat) (x : BitVec 1) (i k : Nat) : aElem s.cc a w (x = 1) i k = aPart s a w x i k := by
  simp only [aElem, aPart, elem_eq_toNat, decide_eq_true_eq]
theorem bElem_eq (s : State) (b w j k : Nat) : bElem s.cc b w j k = bPart s b w j k := elem_eq_toNat _ _ _
theorem aByte_toInt (s : State) (a : Nat) (x : BitVec 1) (i k : Nat) : toSigned 8 (aElem s.cc a 8 (x = 1) i k) = (aByte s a x i k).toInt := by
  rw [aElem_eq, aPart, aByte]
  split <;> exact toSigned_toNat (by decide) _
theorem bByte_toInt (s : State) (b j k : Nat) : toSigned 8 (bElem s.cc b 8 j k) = (bByte s b j k).toInt := by
  rw [bElem_eq]
  exact toSigned_toNat (by decide) _

/-- INT8: the exact sum of products, at every fidelity (R134). -/
theorem position_int8 {e : Nat} (h : feA e = 0) (s : State) (a b depth fid idx : Nat) (x : BitVec 1) (i j : Nat) :
    position s.cc e a b depth fid idx (x = 1) i j =
      (0, ((List.range depth).map fun d => (aByte s a x i d).toInt * (bByte s b j d).toInt).sum, 0, false, false) := by
  have hw : fmtBits 0 = 8 := rfl
  simp only [position, h, if_true, hw, aByte_toInt, bByte_toInt]

/-- A command that MMA takes reads to the depth of its mask. -/
theorem mmaMask_depth (h : (mmaStep s c a b fs z m).legal = true) :
    (mmaMask s fs m).depth = (maskTable s m (mmaTable (feA (entryWord s fs))).2).2.2.1 ∧ feA (entryWord s fs) ≤ 5 := by
  have haccepts : mmaAccepts (feA (entryWord s fs)) (feB (entryWord s fs)) (feScale (entryWord s fs)) = true := by
    rw [← mma_legal, comboOk_eq] at h
    simp only [Bool.and_eq_true] at h
    exact h.1.1.2
  have hle := le_five_of_mmaAccepts haccepts
  exact ⟨by rw [mmaMask, mmaDepth_eq hle, maskOf_eq], hle⟩
theorem mmaSums_positions : (mmaSums s a b fs x m).map Prod.fst =
    enabled (maskTable s m (mmaTable (feA (entryWord s fs))).2).1 (maskTable s m (mmaTable (feA (entryWord s fs))).2).2.1 := by
  obtain ⟨hrow, hcol⟩ := mmaMask_eq s fs m
  rw [← hrow, ← hcol, mmaSums, mmaPositions, List.map_map, List.map_map]
  exact List.map_id' _
end

/-- What a command does where it runs: its landing, and at F 1 to 3 the free values of its errors (R135, R106). -/
theorem does_mmaBody (s : State) (c : BitVec 3) (a : BitVec 7) (b : BitVec 4) (fs : BitVec 5) (z x : BitVec 1) (m : BitVec 3) (tg : Tag) :
    Does s (mmaBody s c a b fs z x m tg) [] [mmaDue s c a b fs z x m tg] (if mmaFidelity s fs = 0 then 0 else 512) := by
  have hfree : Does s (if mmaFidelity s fs = 0 then [] else [.pkg (.takeFree 512)]) [] [] (if mmaFidelity s fs = 0 then 0 else 512) := by
    split
    · exact does_nothing s
    · exact does_takeFree s 512
  have h := (does_puts s [mmaDue s c a b fs z x m tg]).append hfree
  rw [Nat.zero_add] at h
  exact h
/-- An MMA that runs dequeues with its landing. -/
theorem exec_mma_runs {s : State} {c : BitVec 3} {a : BitVec 7} {b : BitVec 4} {fs : BitVec 5} {z : BitVec 1} {m : BitVec 3} {tg : Tag}
    (x : BitVec 1) (h : Runs s (mmaStep s c a b fs z m) 0 tg) : ∃ t, exec (.mma c a b fs z x m) s = .next t ∧
      Dequeued s t 0 (busy s (pendsAcc (((consumed s (mmaStep s c a b fs z m) 0).map fun y => CAct.tileFull y false).foldl CAct.apply s.cc) c.toNat
          (s.cyc + (mmaStep s c a b fs z m).land * s.mul)) 0 (mmaStep s c a b fs z m).occ (mmaStep s c a b fs z m).land 0)
        [mmaDue s c a b fs z x m tg] [] (if mmaFidelity s fs = 0 then 0 else 512) := by
  obtain ⟨t, ht, hd⟩ := Runs.dequeues (now := [.pendAcc c.toNat (s.cyc + (mmaStep s c a b fs z m).land * s.mul)]) h
    (exec_mma s c a b fs z x m) (does_mmaBody s c a b fs z x m tg) (does_bits_now s (mmaStep s c a b fs z m) 0 rfl) rfl
  rw [List.nil_append, List.foldl_append] at hd
  exact ⟨t, ht, hd⟩

/-- R131 to R136, R142, R143, R103: a command's step either runs with its sums due or only takes its cycles. -/
theorem mmaDequeues : Claim.MmaDequeues := by
  intro s c a b fs z x m tg p e n k fid
  have hfid : fid = mmaFidelity s fs := by
    rw [mmaFidelity, fld_zero]; rfl
  refine ⟨fun h => ?_, fun h => ?_⟩
  · exact exec_absent (now := [.pendAcc c.toNat (s.cyc + p.land * s.mul)]) h.actor h.ready h.tags h.legal h.absent
      (exec_mma s c a b fs z x m) rfl
  · obtain ⟨t, ht, hd⟩ := exec_mma_runs x h
    rw [mmaDue, mmaOcc_eq] at hd
    refine ⟨t, mmaSums s a b fs x m, mmaWidth s fs, mmaInvalid s a b fs x m, ht, ?_, mmaSums_positions, fun h0 => ?_⟩
    · rw [hfid]; exact hd
    · have h0 : feA (entryWord s fs) = 0 := h0
      have hpos : mmaPositions s a b fs x m = (enabled (mmaMask s fs m).rowm (mmaMask s fs m).colm).map fun p =>
          (p, 0, ((List.range k.2.2.1).map fun d => (aByte s a.toNat x (p / 16) d).toInt * (bByte s b.toNat (p % 16) d).toInt).sum, 0,
            false, false) := by
        simp only [mmaPositions, position_int8 h0, (mmaMask_depth h.legal).1]
        rfl
      refine ⟨if_pos h0, ?_, fun q hq => ?_⟩
      · simp only [mmaInvalid, hpos, List.any_map, Function.comp_def, List.any_eq_false, Bool.false_eq_true, not_false_eq_true, implies_true]
      · simp only [mmaSums, hpos, List.map_map, List.mem_map] at hq
        obtain ⟨p, -, rfl⟩ := hq
        exact ⟨rfl, rfl, rfl⟩

end Sys2Proof.Machine
end

section
/-! SUPPORT. The sums of a floating command: the special state and exact sum at a position (R94, R100, R101), and what each element of the
accumulator becomes as they land (R102, R135). -/

namespace Sys2Proof.Machine

open Sys2Proof.Claim hiding fits

/-! ## One term (R94, R100) -/

section
variable (t : Term)

/-- The product of a term's two factors under their scales, with its flag. -/
def termProduct : FVal × Nat := mulV (t.fx.scale ((t.zx : Int) - 127)) (t.fy.scale ((t.zy : Int) - 127))

theorem scaled_eq (z : Nat) (v : FVal) : scaled z v = (if z = 255 then .nan else v : FVal).scale ((z : Int) - 127) := by
  unfold scaled
  split <;> rfl
theorem mmaTerm_eq : mmaTerm t.fa t.fb t.x t.zx t.y t.zy = ((termProduct t).1, t.exponent, decide ((termProduct t).2 ≠ 0)) := by
  simp only [mmaTerm, scaled_eq, termProduct, Term.exponent, Term.fx, Term.fy]
  cases fmtOf t.fa <;> cases fmtOf t.fb <;> rfl

theorem termProduct_isNan_iff : (termProduct t).1.isNan = true ↔ t.isNan := by
  unfold termProduct Term.isNan Term.spoilt infinite nought
  generalize t.fx = u
  generalize t.fy = w
  rcases u with _ | n | ⟨n, _ | m, e⟩ <;> rcases w with _ | n' | ⟨n', _ | m', e'⟩ <;> simp [mulV, FVal.scale, FVal.isNan, FVal.isZero]
theorem termProduct_flag_iff : (termProduct t).2 ≠ 0 ↔ t.spoilt := by
  unfold termProduct Term.spoilt infinite nought
  generalize t.fx = u
  generalize t.fy = w
  rcases u with _ | n | ⟨n, _ | m, e⟩ <;> rcases w with _ | n' | ⟨n', _ | m', e'⟩ <;> simp [mulV, FVal.scale, FVal.isZero]
theorem termProduct_inf_iff (neg : Bool) : (termProduct t).1 = .inf neg ↔ t.isInf neg := by
  unfold termProduct Term.isInf Term.isNan Term.spoilt infinite nought
  generalize t.fx = u
  generalize t.fy = w
  rcases u with _ | n | ⟨n, _ | m, e⟩ <;> rcases w with _ | n' | ⟨n', _ | m', e'⟩ <;> simp [mulV, FVal.scale, FVal.isZero, FVal.sign]
/-- Only two finite factors have a finite product. -/
theorem termProduct_fin {n : Bool} {m : Nat} {e : Int} (h : (termProduct t).1 = .fin n m e) : ∃ n₁ m₁ e₁ n₂ m₂ e₂,
    t.fx = .fin n₁ m₁ e₁ ∧ t.fy = .fin n₂ m₂ e₂ := by
  unfold termProduct at h
  generalize t.fx = u at h ⊢
  generalize t.fy = w at h ⊢
  rcases u with _ | n | ⟨n, _ | m, e⟩ <;> rcases w with _ | n' | ⟨n', _ | m', e'⟩ <;> simp_all [mulV, FVal.scale, FVal.isZero]
/-- A term that is finite and not zero, by its product. -/
theorem isFin_iff (v e : Int) : t.isFin v e ↔
    ∃ n m, (termProduct t).1 = .fin n m e ∧ m ≠ 0 ∧ v = if n then -(m : Int) else (m : Int) := by
  constructor
  · rintro ⟨n₁, m₁, e₁, n₂, m₂, e₂, hx, hy, hm, hv, he⟩
    refine ⟨n₁ != n₂, m₁ * m₂, ?_, hm, hv⟩
    simp only [termProduct, hx, hy, FVal.scale, mulV, FVal.fin.injEq, true_and]
    omega
  · rintro ⟨n, m, h, hm, hv⟩
    obtain ⟨n₁, m₁, e₁, n₂, m₂, e₂, hx, hy⟩ := termProduct_fin t h
    simp only [termProduct, hx, hy, FVal.scale, mulV, FVal.fin.injEq] at h
    obtain ⟨rfl, rfl, rfl⟩ := h
    exact ⟨n₁, m₁, e₁, n₂, m₂, e₂, hx, hy, hm, hv, by omega⟩
end

/-! ## The sum of a command (R100, R101) -/

/-- What a command adds up at a depth: the product, its exponent, and whether it spoils the result. -/
def termEntry (t : Term) : FVal × Int × Bool := ((termProduct t).1, t.exponent, decide ((termProduct t).2 ≠ 0))
/-- A product that has a weight in the adder: finite and not zero; and its share of the sum at weight g of the lowest bit. -/
def weighs (t : FVal × Int × Bool) : Bool := match t.1 with | .fin _ m _ => m ≠ 0 | _ => false
def share (g : Int) (t : FVal × Int × Bool) : Int := match t.1 with
  | .fin n m e => floorShift (if n then -(m : Int) else m) (e - g)
  | _ => 0
/-- The special state of a command's result, and whether it is invalid. -/
def sumSpec (l : List (FVal × Int × Bool)) : Nat :=
  if (l.any fun t => t.1.isNan) ∨ ((l.any fun t => t.1 = .inf false) ∧ l.any fun t => t.1 = .inf true) then 1
  else if l.any fun t => t.1 = .inf false then 2 else if l.any fun t => t.1 = .inf true then 3 else 0
def sumInvalid (l : List (FVal × Int × Bool)) : Bool :=
  l.any (fun t => t.2.2) || ((l.any fun t => t.1 = .inf false) && l.any fun t => t.1 = .inf true)

section
variable {l : List (FVal × Int × Bool)} (F : Nat)

theorem commandSum_weightless (h : l.filter weighs = []) : commandSum F l = (sumSpec l, 0, 0, sumInvalid l) := by
  have hmax : ((l.filter weighs).map fun t => t.2.1).max? = none := by rw [h]; rfl
  unfold commandSum
  dsimp only
  split
  · rfl
  · next emax hsome => exact nomatch hsome.symm.trans hmax
theorem commandSum_weighing {emax : Int} (h : ((l.filter weighs).map fun t => t.2.1).max? = some emax) :
    commandSum F l = (sumSpec l, ((l.filter weighs).map (share (emax - F))).sum, emax - F, sumInvalid l) := by
  unfold commandSum
  dsimp only
  split
  · next hnone => exact nomatch hnone.symm.trans h
  · next e hsome =>
    obtain rfl : e = emax := Option.some.inj (hsome.symm.trans h)
    rfl
theorem commandSum_special : (commandSum F l).1 = sumSpec l ∧ (commandSum F l).2.2.2 = sumInvalid l := by
  cases h : ((l.filter weighs).map fun t => t.2.1).max? with
  | none => rw [commandSum_weightless F (by simpa using h)]; exact ⟨rfl, rfl⟩
  | some emax => rw [commandSum_weighing F h]; exact ⟨rfl, rfl⟩
end

section
variable (ts : List Term)

theorem any_isNan_iff : ((ts.map termEntry).any fun t => t.1.isNan) = true ↔ ∃ t ∈ ts, t.isNan := by
  simp only [List.any_map, List.any_eq_true, Function.comp_apply, termEntry, termProduct_isNan_iff]
theorem any_inf_iff (neg : Bool) : ((ts.map termEntry).any fun t => t.1 = .inf neg) = true ↔ ∃ t ∈ ts, t.isInf neg := by
  rw [List.any_map, List.any_eq_true]
  exact exists_congr fun t => and_congr_right fun _ => decide_eq_true_iff.trans (termProduct_inf_iff t neg)
theorem any_spoilt_iff : ((ts.map termEntry).any fun t => t.2.2) = true ↔ ∃ t ∈ ts, t.spoilt := by
  simp only [List.any_map, List.any_eq_true, Function.comp_apply, termEntry, decide_eq_true_eq, termProduct_flag_iff]
theorem weighs_iff (t : Term) : weighs (termEntry t) = true ↔ ∃ v e, t.isFin v e := by
  simp only [isFin_iff]
  unfold weighs termEntry
  cases h : (termProduct t).1 with
  | fin n m e => simp
  | _ => simp

/-- A sum over the members that pass a test is a sum over all, 0 for the others. -/
theorem sum_map_filter {α : Type} (p : α → Bool) (f : α → Int) (l : List α) :
    ((l.filter p).map f).sum = (l.map fun x => if p x then f x else 0).sum := by
  induction l with
  | nil => rfl
  | cons x l ih =>
    by_cases h : p x = true
    · simp only [List.filter_cons_of_pos h, List.map_cons, List.sum_cons, ih, h, if_true]
    · simp only [List.filter_cons_of_neg h, List.map_cons, List.sum_cons, ih, h, if_false, Int.zero_add, Bool.false_eq_true]

/-- R100: the special state of the result. -/
theorem sumSpec_cases (ts : List Term) : let nan := (∃ t ∈ ts, t.isNan) ∨ ((∃ t ∈ ts, t.isInf false) ∧ ∃ t ∈ ts, t.isInf true)
    (nan → sumSpec (ts.map termEntry) = 1) ∧ (¬ nan → (∃ t ∈ ts, t.isInf false) → sumSpec (ts.map termEntry) = 2) ∧
    (¬ nan → (∃ t ∈ ts, t.isInf true) → sumSpec (ts.map termEntry) = 3) ∧
    ((∀ t ∈ ts, ¬ t.isNan ∧ ¬ t.isInf false ∧ ¬ t.isInf true) → sumSpec (ts.map termEntry) = 0) := by
  intro nan
  have hp := any_inf_iff ts false
  have hn := any_inf_iff ts true
  have hnan := or_congr (any_isNan_iff ts) (and_congr hp hn)
  unfold sumSpec
  refine ⟨fun h => if_pos (hnan.mpr h), fun h h2 => ?_, fun h h3 => ?_, fun h => ?_⟩
  · rw [if_neg (mt hnan.mp h), if_pos (hp.mpr h2)]
  · rw [if_neg (mt hnan.mp h), if_neg (mt hp.mp fun h2 => h (.inr ⟨h2, h3⟩)), if_pos (hn.mpr h3)]
  · have h2 : ¬ ∃ t ∈ ts, t.isInf false := fun ⟨t, ht, hi⟩ => (h t ht).2.1 hi
    have h3 : ¬ ∃ t ∈ ts, t.isInf true := fun ⟨t, ht, hi⟩ => (h t ht).2.2 hi
    have h1 : ¬ nan := by
      rintro (⟨t, ht, hi⟩ | ⟨h2', -⟩)
      · exact (h t ht).1 hi
      · exact h2 h2'
    rw [if_neg (mt hnan.mp h1), if_neg (mt hp.mp h2), if_neg (mt hn.mp h3)]
theorem sumInvalid_iff (ts : List Term) : sumInvalid (ts.map termEntry) = true ↔
    (∃ t ∈ ts, t.spoilt) ∨ ((∃ t ∈ ts, t.isInf false) ∧ ∃ t ∈ ts, t.isInf true) := by
  simp only [sumInvalid, Bool.or_eq_true, Bool.and_eq_true, any_spoilt_iff, any_inf_iff]

/-- R101: the share of each term, 0 for one without a weight. -/
def shares (ts : List Term) (g : Int) : List Int := (ts.map termEntry).map fun t => if weighs t then share g t else 0
theorem shares_getElem? {ts : List Term} {g : Int} {k : Nat} {t : Term} {p : Int} (ht : ts[k]? = some t) (hp : (shares ts g)[k]? = some p) :
    (∀ v e, t.isFin v e → p = flo v (e - g)) ∧ ((∀ v e, ¬ t.isFin v e) → p = 0) := by
  have hval : p = if weighs (termEntry t) then share g (termEntry t) else 0 := by
    simp only [shares, List.getElem?_map, ht, Option.map_some, Option.some.injEq] at hp
    exact hp.symm
  refine ⟨fun v e h => ?_, fun h => ?_⟩
  · obtain ⟨n, m, hprod, -, rfl⟩ := (isFin_iff t v e).mp h
    rw [hval, if_pos ((weighs_iff t).mpr ⟨_, _, h⟩)]
    simp only [share, termEntry, hprod]
    rfl
  · have hno : ¬ weighs (termEntry t) = true := fun hw => by
      obtain ⟨v, e, hf⟩ := (weighs_iff t).mp hw
      exact h v e hf
    rw [hval, if_neg hno]

/-- R100, R101: the result of a command on its terms; all have one format, whose fraction bits the adder keeps. -/
theorem resultOf_commandSum {ts : List Term} {F : Nat} (hF : ∀ t ∈ ts, fracBits t.fa = F) :
    resultOf ts (commandSum F (ts.map termEntry)).1 (commandSum F (ts.map termEntry)).2.1 (commandSum F (ts.map termEntry)).2.2.1
      (commandSum F (ts.map termEntry)).2.2.2 := by
  obtain ⟨hnan, hpos, hneg, hnone⟩ := sumSpec_cases ts
  obtain ⟨hspec, hinv⟩ := commandSum_special (l := ts.map termEntry) F
  unfold resultOf
  rw [hspec, hinv]
  refine ⟨hnan, hpos, hneg, hnone, sumInvalid_iff ts, fun h => ?_, fun fa hfa ⟨t, ht, v, e, hf⟩ => ?_⟩
  · have hempty : (ts.map termEntry).filter weighs = [] := by
      refine List.filter_eq_nil_iff.mpr fun q hq hw => ?_
      obtain ⟨t, ht, rfl⟩ := List.mem_map.mp hq
      obtain ⟨v, e, hf⟩ := (weighs_iff t).mp hw
      exact h t ht v e hf
    rw [commandSum_weightless F hempty]
  · have hmem : t.exponent ∈ ((ts.map termEntry).filter weighs).map fun q => q.2.1 :=
      List.mem_map.mpr ⟨termEntry t, List.mem_filter.mpr ⟨List.mem_map_of_mem ht, (weighs_iff t).mpr ⟨v, e, hf⟩⟩, rfl⟩
    obtain ⟨emax, hmax⟩ : ∃ emax, (((ts.map termEntry).filter weighs).map fun q => q.2.1).max? = some emax := by
      cases hm : (((ts.map termEntry).filter weighs).map fun q => q.2.1).max? with
      | none => exact absurd hmem (by rw [List.max?_eq_none_iff.mp hm]; exact List.not_mem_nil)
      | some emax => exact ⟨emax, rfl⟩
    obtain ⟨hin, hle⟩ := List.max?_eq_some_iff.mp hmax
    have hfrac : fracBits fa = F := (hfa t ht) ▸ hF t ht
    have hg : emax - F + fracBits fa = emax := by rw [hfrac]; omega
    rw [commandSum_weighing F hmax]
    simp only [hg]
    refine ⟨?_, fun t' ht' ⟨v', e', hf'⟩ => ?_, shares ts (emax - F), ?_, sum_map_filter weighs _ _, fun k t' p => shares_getElem?⟩
    · obtain ⟨q, hq, rfl⟩ := List.mem_map.mp hin
      obtain ⟨hq, hw⟩ := List.mem_filter.mp hq
      obtain ⟨t', ht', rfl⟩ := List.mem_map.mp hq
      exact ⟨t', ht', (weighs_iff t').mp hw, rfl⟩
    · have hw : termEntry t' ∈ (ts.map termEntry).filter weighs :=
        List.mem_filter.mpr ⟨List.mem_map_of_mem ht', (weighs_iff t').mpr ⟨v', e', hf'⟩⟩
      exact hle _ (List.mem_map_of_mem hw)
    · rw [shares, List.length_map, List.length_map]
end

end Sys2Proof.Machine
end

section
/-! SUPPORT. An MMA of a floating format has the special state and exact sum of each enabled position due (R94, R100, R101, R134). -/

namespace Sys2Proof.Machine

open Sys2Proof.Claim hiding fits

/-! ## What an agenda holds -/

theorem mem_agendaInsert {k : Key} {it : Item} {p : Key × Item} (l : List (Key × Item)) :
    p ∈ agendaInsert k it l ↔ p = (k, it) ∨ p ∈ l := by
  induction l with
  | nil => rw [agendaInsert, List.mem_singleton]; simp only [List.not_mem_nil, or_false]
  | cons q l ih =>
    obtain ⟨a, b⟩ := q
    rw [agendaInsert]
    split
    · exact List.mem_cons
    · rw [List.mem_cons, List.mem_cons, ih, or_left_comm]
theorem mem_agendaWith {q : Key × Item} (ev : List (Key × Item)) : ∀ l, q ∈ agendaWith l ev ↔ q ∈ ev ∨ q ∈ l := by
  induction ev with
  | nil => exact fun l => by simp only [agendaWith, List.foldl_nil, List.not_mem_nil, false_or]
  | cons p ev ih =>
    intro l
    refine (ih _).trans ?_
    rw [mem_agendaInsert, List.mem_cons, or_left_comm, or_assoc]

/-! ## A position (R134) -/

/-- The depth element d of a command at row i and column j. -/
def termAt (s : State) (e a b : Nat) (x : BitVec 1) (i j d : Nat) : Term :=
  { fa := feA e, fb := feB e, x := aPart s a (fmtBits (feA e)) x i d, y := bPart s b (fmtBits (feA e)) j d
    zx := scaleOf (decide (feScale e = 1 ∨ feScale e = 2)) (s.cc.side a) i (d / 32)
    zy := scaleOf (decide (feScale e = 1 ∨ feScale e = 3)) (SMap.get 0 s.cc.slotSides b) j (d / 32) }

theorem scaleByte_eq (p : Prop) [Decidable p] (v : Row) (i j : Nat) : (if p then scaleByte v i j else 127) = scaleOf (decide p) v i j := by
  have hbyte : scaleByte v i j = (element v 8 (16 * i + j)).toNat := by rw [← elem_eq_toNat]; rfl
  simp only [scaleOf, decide_eq_true_eq, hbyte]
theorem adderF_eq {a : Nat} (h0 : a ≠ 0) (h : a ≤ 5) : fracBits a = adderF a := by
  obtain rfl | rfl | rfl | rfl | rfl : a = 1 ∨ a = 2 ∨ a = 3 ∨ a = 4 ∨ a = 5 := by omega
  all_goals rfl
theorem adderN_eq {a : Nat} (h : a ≤ 5) : sumBits a = adderN a := by
  obtain rfl | rfl | rfl | rfl | rfl | rfl : a = 0 ∨ a = 1 ∨ a = 2 ∨ a = 3 ∨ a = 4 ∨ a = 5 := by omega
  all_goals rfl
/-- At fidelity 0 the result at a position is that of the command's sum, without an error. -/
theorem position_float {e : Nat} (h : feA e ≠ 0) (s : State) (a b depth idx : Nat) (x : BitVec 1) (i j : Nat) :
    let r := commandSum (adderF (feA e)) (((List.range depth).map (termAt s e a b x i j)).map termEntry)
    position s.cc e a b depth 0 idx (x = 1) i j = (r.1, r.2.1, r.2.2.1, r.2.2.2, false) := by
  have hterm : ∀ d, mmaTerm (feA e) (feB e) (aPart s a (fmtBits (feA e)) x i d)
      (scaleOf (decide (feScale e = 1 ∨ feScale e = 2)) (s.cc.side a) i (d / 32)) (bPart s b (fmtBits (feA e)) j d)
      (scaleOf (decide (feScale e = 1 ∨ feScale e = 3)) (SMap.get 0 s.cc.slotSides b) j (d / 32)) = termEntry (termAt s e a b x i j d) :=
    fun d => mmaTerm_eq (termAt s e a b x i j d)
  simp only [position, h, if_false, aElem_eq, bElem_eq, scaleByte_eq, hterm, List.map_map, true_or, if_true, Int.add_zero]
  rfl
/-- R94, R100, R101: the result at a position of a floating command. -/
theorem position_resultOf {e : Nat} (h : feA e ≠ 0) (hle : feA e ≤ 5) (s : State) (a b depth idx : Nat) (x : BitVec 1) (i j : Nat) :
    let r := position s.cc e a b depth 0 idx (x = 1) i j
    resultOf ((List.range depth).map (termAt s e a b x i j)) r.1 r.2.1 r.2.2.1 r.2.2.2.1 := by
  intro r
  have hr : r = _ := position_float h s a b depth idx x i j
  rw [hr]
  refine resultOf_commandSum fun t ht => ?_
  obtain ⟨d, -, rfl⟩ := List.mem_map.mp ht
  exact adderF_eq h hle

/-- R94, R100, R101, R134: the results of a floating command at fidelity 0. -/
theorem floatingSumsForm : Claim.FloatingSumsForm := by
  intro s c a b fs z x m tg p e fa fb sc k h hfa hmin
  have hfa : feA (entryWord s fs) ≠ 0 := hfa
  obtain ⟨t, ht, hd⟩ := exec_mma_runs x h
  obtain ⟨hdepth, hle⟩ := mmaMask_depth h.legal
  have hfid : mmaFidelity s fs = 0 := by
    rw [mmaFidelity, if_neg hfa, fld_zero]
    exact hmin
  have hwidth : mmaWidth s fs = sumBits fa := (if_neg hfa).trans (adderN_eq hle).symm
  refine ⟨t, (mmaDue s c a b fs z x m tg).1, mmaSums s a b fs x m, mmaInvalid s a b fs x m, ht, ?_, mmaSums_positions, ?_⟩
  · rw [hd.here.region, ← hwidth, ← hfid]
    exact (mem_agendaWith _ _).mpr (.inl (List.mem_singleton_self _))
  · refine ⟨(mmaPositions s a b fs x m).map fun p => p.2.2.2.2.1, by rw [mmaSums, List.length_map, List.length_map], ?_, ?_⟩
    · rw [mmaInvalid, List.any_map]; rfl
    · intro n q v hq hv
      simp only [mmaSums, List.getElem?_map, Option.map_eq_some_iff] at hq hv
      obtain ⟨y, hy, rfl⟩ := hq
      obtain ⟨y', hy', rfl⟩ := hv
      obtain rfl : y = y' := Option.some.inj (hy.symm.trans hy')
      simp only [mmaPositions, List.getElem?_map, Option.map_eq_some_iff] at hy
      obtain ⟨i, -, rfl⟩ := hy
      have hres := position_resultOf hfa hle s a.toNat b.toNat (mmaMask s fs m).depth (s.freeCtr + 2 * i) x (i / 16) (i % 16)
      rw [hdepth] at hres
      simp only [hfid, hdepth]
      exact hres

end Sys2Proof.Machine
end

section
/-! SUPPORT. The sums of a floating command land: what each element of the accumulator becomes (R102, R135). -/

namespace Sys2Proof.Machine

open Sys2Proof.Claim hiding fits

/-! ## An element and a result (R102) -/

/-- A NaN of either, or infinities of both signs, make a NaN (R102). -/
def clashes (st spec : Nat) : Prop := st = 1 ∨ spec = 1 ∨ (st = 2 ∧ spec = 3) ∨ (st = 3 ∧ spec = 2)
/-- A sum of the window adder, moved down a bit where it does not fit the window, with its exponent (R102). -/
def renormalised (V xn : Int) : Int × Int := if -(2 ^ 47) ≤ V ∧ V < 2 ^ 47 then (V, xn) else (V / 2, xn + 1)
def renormalisedElem (a : AccElem) (V xn : Int) : AccElem :=
  let r := renormalised V xn
  { a with win := BitVec.ofInt 48 r.1, exp := BitVec.ofInt 10 r.2, spec := if r.2 ≤ 511 then 0 else if r.1 < 0 then 3 else 2 }

theorem renormalised_eq (V xn : Int) : (if V < -(2 ^ 47) ∨ 2 ^ 47 ≤ V then (V / 2, xn + 1) else (V, xn)) = renormalised V xn := by
  unfold renormalised
  by_cases h : -(2 ^ 47) ≤ V ∧ V < 2 ^ 47
  · rw [if_pos h, if_neg (by omega)]
  · rw [if_neg h, if_pos (by omega)]

section
variable {a : AccElem} {spec : Nat} {S g : Int} {n : Nat}

theorem accumulate_clash (h : clashes a.spec.toNat spec) : accumulate a spec S g n (fun _ => 0) = { a with spec := 1 } := by
  simp only [accumulate, if_pos (show _ ∨ _ from h)]
  rfl
theorem accumulate_special (h : ¬ clashes a.spec.toNat spec) (h0 : spec ≠ 0) :
    accumulate a spec S g n (fun _ => 0) = { a with spec := BitVec.ofNat 2 spec } := by
  simp only [accumulate, if_neg (show ¬ (_ ∨ _) from h), h0, ne_eq, not_false_eq_true, true_or, if_true]
/-- A result that is no special state leaves the state of the element to decide. -/
theorem accumulate_ordinary (h1 : a.spec.toNat ≠ 1) : accumulate a 0 S g n (fun _ => 0) =
    if a.spec.toNat ≠ 0 ∨ S = 0 then a
    else renormalisedElem a (windowSum a S g n).1 (windowSum a S g n).2 := by
  have hclash : ¬ clashes a.spec.toNat 0 := by unfold clashes; omega
  have hspec : { a with spec := BitVec.ofNat 2 a.spec.toNat } = a := by rw [BitVec.ofNat_toNat, BitVec.setWidth_eq]
  simp only [accumulate, if_neg (show ¬ (_ ∨ _) from hclash), ne_eq, not_true_eq_false, if_false, hspec, Int.add_zero, renormalised_eq]
  by_cases h : ¬ a.spec.toNat = 0 ∨ S = 0
  · rw [if_pos h, if_pos h]
  · have hzero : a.spec = 0 := BitVec.eq_of_toNat_eq (by rw [not_or, not_not] at h; exact h.1)
    rw [if_neg h, if_neg h]
    simp only [renormalisedElem, hzero, ← Int.not_le, ite_not]
    rfl
/-- R102: an element after the result of a command is added into it. -/
theorem accumulate_addsResult (hn0 : 0 < n) (hn : n ≤ 48) : addsResult a (accumulate a spec S g n fun _ => 0) spec S g n := by
  refine ⟨accumulate_clash, accumulate_special, ?_, ?_, ?_⟩
  · rintro rfl h1 h
    rw [accumulate_ordinary h1, if_pos h]
  · rintro rfl h0 hS hW hlo hhi hx
    have hpow : (2 : Int) ^ 47 = 2 ^ (n - 1) * 2 ^ (48 - n) := by rw [← pow_add]; congr 1; omega
    have hpos : (0 : Int) < 2 ^ (48 - n) := by positivity
    have hfits : -(2 ^ 47) ≤ S * 2 ^ (48 - n) ∧ S * 2 ^ (48 - n) < 2 ^ 47 := by
      rw [hpow, ← Int.neg_mul]
      exact ⟨Int.mul_le_mul_of_nonneg_right hlo hpos.le, Int.mul_lt_mul_of_pos_right hhi hpos⟩
    have hspec : a.spec = 0 := BitVec.eq_of_toNat_eq h0
    have hsum : windowSum a S g n = (S * 2 ^ (48 - n), g + n - 48) := by
      simp only [windowSum, if_pos hW, Nat.cast_pow, Nat.cast_ofNat]
    rw [accumulate_ordinary (by omega), if_neg (by omega), hsum]
    simp only [renormalisedElem, renormalised, if_pos hfits, if_pos hx, hspec]
  · rintro rfl h0 hS hW
    have hsum : windowSum a S g n = (flo a.win.toInt (a.exp.toInt - (max (a.exp.toInt + 47) (g + n - 1) - 47)) +
        flo S (g - (max (a.exp.toInt + 47) (g + n - 1) - 47)), max (a.exp.toInt + 47) (g + n - 1) - 47) := if_neg hW
    rw [accumulate_ordinary (by omega), if_neg (by omega), hsum]
    simp only [renormalisedElem, renormalised, apply_ite Prod.fst, apply_ite Prod.snd]
end

/-! ## The landing (R135) -/

/-- The updates of an exact command, with FLAGS.invalid where it is invalid. -/
theorem exactLanding_foldl_flags (k : Core) (c : Nat) (zero : Bool) (sums : List (Nat × Nat × Int × Int × Bool × Nat)) (width : Nat) (tag : Tag)
    (invalid : Bool) : (exactLanding k c zero sums width tag invalid).foldl CAct.apply k =
    let d := (exactLanding k c zero sums width tag false).foldl CAct.apply k
    if invalid then d.flagged 8 else d := by
  cases invalid
  · rfl
  · rw [exactLanding, List.foldl_append]
    simp only [exactLanding, Bool.false_eq_true, if_false, if_true, List.append_nil]
    rfl
theorem Core.csrs_flagged (c : Core) (n : Nat) : c.flagged n = { c with csrs := (c.flagged n).csrs } := rfl

/-- R102, R135: a floating command at fidelity 0 lands. -/
theorem floatingSumsLand : Claim.FloatingSumsLand := by
  intro s key id c zero sums n tg invalid seq timed hn0 hn48 hsums hnd t old
  have hdet : ∀ q ∈ sums, q.2.2.2.2.1 = false := fun q hq => (hsums q hq).2.2
  have honly : OnlyCore s t id ((exactLanding (s.core id) c zero sums n tg invalid).foldl CAct.apply (s.core id)) := by
    rw [show t = s.applyAll ((exactLanding (s.core id) c zero sums n tg invalid).map (.core id)) from
      congrArg s.applyAll (mmaLand_exact c zero sums n s key id tg invalid seq timed hdet)]
    exact onlyCore_map_core s id _
  rw [exactLanding_foldl_flags] at honly
  have hpositions := summed_positions (s.core id) c zero sums n
  set d := (exactLanding (s.core id) c zero sums n tg false).foldl CAct.apply (s.core id) with hd
  rw [exactLanding_foldl] at hd
  obtain ⟨hrest, hcore, hothers⟩ := honly
  have hcsrs : t.core id = { d with csrs := (t.core id).csrs } := by
    rw [hcore]
    split
    · exact Core.csrs_flagged d 8
    · rfl
  have haccs : (t.core id).accs = d.accs := by rw [hcsrs]
  have htag : (t.core id).accTag = d.accTag := by rw [hcsrs]
  refine ⟨⟨hrest, ?_, hothers⟩, ?_, fun hv => ?_, fun hv => ?_, fun q hq => ?_, fun p hp hnot => ?_⟩
  · rw [htag, haccs, hd]
    rw [hd] at hcsrs
    exact hcsrs
  · rw [Core.atag, htag, hd]
    exact SMap.get_set_same 0 tg c _
  · rw [hcore, hv, hd]
    rfl
  · have hflagged : t.core id = d.flagged 8 := hcore.trans (if_pos hv)
    have hcsr : ∀ x, d.csr x = (s.core id).csr x := fun x => by rw [hd]; rfl
    rw [hflagged, ← hcsr]
    exact ⟨Core.csr_flagged_flags d 8, fun x hx => (Core.csr_flagged d 8 hx).trans (hcsr x)⟩
  · have hsum : (q.1, accumulate (elemBefore (s.core id) c zero q.1) q.2.1 q.2.2.1 q.2.2.2.1 n fun _ => 0) ∈
        summed (s.core id) c zero sums n := by
      refine List.mem_map.mpr ⟨q, hq, ?_⟩
      simp only [exactResult, landElem, if_neg (Nat.ne_of_gt hn0), true_or, if_true]
    have hval : SMap.get {} (t.core id).accs (c * 256 + q.1) = accumulate (old q.1) q.2.1 q.2.2.1 q.2.2.2.1 n fun _ => 0 := by
      rw [haccs, hd]
      exact get_accPairs_of_mem _ (hpositions ▸ hnd) hsum
    rw [hval]
    exact accumulate_addsResult hn0 hn48
  · rw [haccs, hd]
    exact (get_accPairs_of_not_mem _ (hpositions ▸ hnot)).trans (get_zeroing (s.core id) c zero hp)

end Sys2Proof.Machine
end

section
/-! SUPPORT. The drain of an accumulator element to a format: special states, zeros, exact values and rounding (R96, R97, R104). -/

namespace Sys2Proof.Machine

open Sys2Proof.Claim hiding fits

/-! ## Rounding to an integer (R96) -/

/-- A magnitude with a sign. -/
def signed (neg : Bool) (n : Nat) : Int := if neg then -(n : Int) else n

theorem signed_natAbs (W : Int) : signed (decide (W < 0)) W.natAbs = W := by
  unfold signed
  by_cases h : W < 0
  · rw [if_pos (decide_eq_true h)]; omega
  · rw [if_neg (by simpa using h)]; omega
theorem natAbs_signed_sub (neg : Bool) (n k : Nat) : (signed neg n - signed neg k).natAbs = ((n : Int) - k).natAbs := by
  cases neg <;> simp only [signed, Bool.false_eq_true, if_false, if_true]
  omega
theorem signed_even (neg : Bool) {n : Nat} (h : n % 2 = 0) : signed neg n % 2 = 0 := by
  cases neg <;> (simp only [signed, Bool.false_eq_true, if_false, if_true]; omega)
theorem signed_inj {neg : Bool} {n k : Nat} (h : signed neg n = signed neg k) : n = k := by
  cases neg <;> (simp only [signed, Bool.false_eq_true, if_false, if_true] at h; omega)
theorem signed_mul (neg : Bool) (n k : Nat) : signed neg (n * k) = signed neg n * k := by
  cases neg <;> simp [signed]

/-- How an integer n stands to m/u where it is m/u rounded by a mode (R96). -/
def roundsTo (mode : Rnd) (m n : Int) (u : Nat) : Prop :=
  (mode = 0 → 2 * (m - n * u).natAbs ≤ u ∧ (2 * (m - n * u).natAbs = u → n % 2 = 0)) ∧
  (mode = 1 → n = m.tdiv u) ∧ (mode = 2 → n = -(-m / u)) ∧ (mode = 3 → n = m / u)

/-- A quotient rounded up on its remainder. -/
def quotient (mode : Rnd) (neg : Bool) (q r u : Nat) : Nat := if roundUp mode neg (q % 2 = 1) r u then q + 1 else q

section
variable {u r : Nat} (hr : r < u) (q : Nat)
include hr

theorem natCast_ediv : ((q * u + r : Nat) : Int) / u = q := by
  rw [← Int.natCast_ediv, Nat.mul_comm, Nat.mul_add_div (by omega), Nat.div_eq_of_lt hr, Nat.add_zero]
/-- A negative quotient rounds away from zero unless it is exact. -/
theorem neg_natCast_ediv : -((q * u + r : Nat) : Int) / u = -((if r = 0 then q else q + 1 : Nat) : Int) := by
  by_cases h : r = 0
  · subst h
    rw [if_pos rfl, Nat.add_zero, Nat.cast_mul, ← Int.neg_mul, Int.mul_ediv_cancel _ (by omega)]
  · rw [if_neg h]
    refine ((Int.ediv_emod_unique (r := (u : Int) - r) (by omega)).mpr ⟨?_, by omega, by omega⟩).1
    push_cast
    ring
/-- The rounded quotient, nearest-even, toward zero, up or down. -/
theorem quotient_roundsTo (mode : Rnd) (neg : Bool) :
    roundsTo mode (signed neg (q * u + r)) (signed neg (quotient mode neg q r u)) u := by
  refine ⟨?_, ?_, ?_, ?_⟩ <;> rintro rfl
  · have hup : roundUp 0 neg (q % 2 = 1) r u = true ↔ r ≠ 0 ∧ (u < 2 * r ∨ (2 * r = u ∧ q % 2 = 1)) := by
      simp [roundUp]
    rw [← signed_mul, natAbs_signed_sub]
    unfold quotient
    by_cases h : roundUp 0 neg (q % 2 = 1) r u = true
    · obtain ⟨-, h2⟩ := hup.mp h
      rw [if_pos h, Nat.add_one_mul q u]
      exact ⟨by omega, fun _ => signed_even neg (by omega)⟩
    · have h2 := mt hup.mpr h
      rw [if_neg h]
      exact ⟨by omega, fun _ => signed_even neg (by omega)⟩
  · have hq : quotient 1 neg q r u = q := by simp [quotient, roundUp]
    have hdiv := natCast_ediv hr q
    rw [← Int.tdiv_eq_ediv_of_nonneg (Int.natCast_nonneg _)] at hdiv
    rw [hq]
    cases neg
    · exact hdiv.symm
    · exact (congrArg Neg.neg hdiv.symm).trans (Int.neg_tdiv _ _).symm
  · cases neg
    · have hq : quotient 2 false q r u = if r = 0 then q else q + 1 := by by_cases h : r = 0 <;> simp [quotient, roundUp, h]
      rw [hq]
      exact (Int.neg_neg _).symm.trans (congrArg Neg.neg (neg_natCast_ediv hr q).symm)
    · have hq : quotient 2 true q r u = q := by simp [quotient, roundUp]
      rw [hq]
      exact congrArg Neg.neg ((Int.neg_neg _).symm ▸ (natCast_ediv hr q).symm)
  · cases neg
    · have hq : quotient 3 false q r u = q := by simp [quotient, roundUp]
      rw [hq]
      exact (natCast_ediv hr q).symm
    · have hq : quotient 3 true q r u = if r = 0 then q else q + 1 := by by_cases h : r = 0 <;> simp [quotient, roundUp, h]
      rw [hq]
      exact (neg_natCast_ediv hr q).symm
/-- A rounded quotient is exact where there is no remainder, and only there. -/
theorem quotient_exact_iff (mode : Rnd) (neg : Bool) :
    r = 0 ↔ signed neg (q * u + r) = signed neg (quotient mode neg q r u) * u := by
  rw [← signed_mul]
  constructor
  · rintro rfl
    simp [quotient, roundUp]
  · intro h
    have hmod := congrArg (· % u) (signed_inj h)
    simpa [Nat.mul_add_mod, Nat.mod_eq_of_lt hr, Nat.mul_comm q u] using hmod
end

/-- A value rounded to an integer, and whether it is exact (R96). -/
theorem shiftRound_spec (mode : Rnd) (W x : Int) :
    let r := shiftRound mode (decide (W < 0)) W.natAbs x
    let n := signed (decide (W < 0)) r.1
    (0 ≤ x → n = W * 2 ^ x.toNat ∧ r.2 = false) ∧
    (x < 0 → (r.2 = false ↔ W = n * 2 ^ (-x).toNat) ∧ roundsTo mode W n (2 ^ (-x).toNat)) := by
  refine ⟨fun hx => ?_, fun hx => ?_⟩
  · rw [shiftRound, if_pos hx]
    exact ⟨by rw [signed_mul, signed_natAbs]; push_cast; rfl, rfl⟩
  · have hu : 0 < 2 ^ (-x).toNat := Nat.two_pow_pos _
    have hr := Nat.mod_lt W.natAbs hu
    have hW : signed (decide (W < 0)) (W.natAbs / 2 ^ (-x).toNat * 2 ^ (-x).toNat + W.natAbs % 2 ^ (-x).toNat) = W := by
      rw [Nat.div_add_mod', signed_natAbs]
    have hexact := quotient_exact_iff hr (W.natAbs / 2 ^ (-x).toNat) mode (decide (W < 0))
    have hrounds := quotient_roundsTo hr (W.natAbs / 2 ^ (-x).toNat) mode (decide (W < 0))
    rw [hW] at hexact hrounds
    push_cast at hexact
    rw [shiftRound, if_neg (by omega)]
    exact ⟨(by simp : decide (W.natAbs % 2 ^ (-x).toNat ≠ 0) = false ↔ W.natAbs % 2 ^ (-x).toNat = 0).trans hexact, hrounds⟩

/-! ## Values that a format holds (R91, R96) -/

theorem log2_mul_two_pow {m : Nat} (hm : m ≠ 0) (j : Nat) : (m * 2 ^ j).log2 = m.log2 + j := by
  induction j with
  | zero => rw [Nat.pow_zero, Nat.mul_one, Nat.add_zero]
  | succ j ih =>
    have hne : m * 2 ^ j ≠ 0 := Nat.mul_ne_zero hm (Nat.two_pow_pos j).ne'
    rw [Nat.pow_succ, ← Nat.mul_assoc, Nat.log2_eq_log_two, Nat.log_mul_base (by decide) hne, ← Nat.log2_eq_log_two, ih, Nat.add_assoc]
/-- A shift down that loses only zeros is exact. -/
theorem shiftRound_exact (mode : Rnd) (neg : Bool) (m j : Nat) {k : Int} (hk : k = -(j : Int)) :
    shiftRound mode neg (m * 2 ^ j) k = (m, false) := by
  subst hk
  rcases Nat.eq_zero_or_pos j with rfl | hj
  · simp [shiftRound]
  · have hpos : 0 < 2 ^ j := Nat.two_pow_pos j
    rw [shiftRound, if_neg (by omega)]
    simp [roundUp, Nat.mul_div_cancel _ hpos]

/-- The parts of an encoding with its sign bit above eb + mb bits. -/
theorem encoding_parts {eb mb y : Nat} (hy : y < 2 ^ (eb + mb + 1)) :
    (if fld y (eb + mb) 1 = 1 then 2 ^ (eb + mb) else 0) + (fld y mb eb * 2 ^ mb + fld y 0 mb) = y := by
  have hsign : y / 2 ^ (eb + mb) < 2 := Nat.div_lt_of_lt_mul (by rwa [pow_succ] at hy)
  have hlow : fld y mb eb * 2 ^ mb + fld y 0 mb = y % 2 ^ (eb + mb) := by
    rw [fld, fld, Nat.pow_zero, Nat.div_one, Nat.add_comm eb mb, Nat.pow_add, Nat.mod_mul, Nat.mul_comm, Nat.add_comm]
  have htop : (if fld y (eb + mb) 1 = 1 then 2 ^ (eb + mb) else 0) = 2 ^ (eb + mb) * (y / 2 ^ (eb + mb)) := by
    rw [fld, Nat.pow_one, Nat.mod_eq_of_lt hsign]
    obtain h | h := Nat.le_one_iff_eq_zero_or_eq_one.mp (Nat.le_of_lt_succ hsign)
    all_goals simp [h]
  rw [hlow, htop, Nat.div_add_mod]

/-- A significand with the exponent at which the format keeps it rounds to its own encoding, at any lower exponent that it is given with. -/
theorem roundF_of_kept {f : Fmt} {m : Nat} {e : Int} (hm : m ≠ 0) (hlt : m < 2 ^ (f.mb + 1)) (j : Nat) (mode : Rnd) (sat neg : Bool)
    (hulp : max ((m.log2 : Int) + e) (1 - f.bias) - f.mb = e) {mag : Nat}
    (hmag : (if m < 2 ^ f.mb then (m : Int) else (e + f.mb + f.bias) * 2 ^ f.mb + ((m : Int) - 2 ^ f.mb)) = mag) (hmax : mag ≤ maxMag f) :
    roundF f mode sat neg (m * 2 ^ j) (e - j) = (signBit f neg + mag, 0) := by
  have hne : m * 2 ^ j ≠ 0 := Nat.mul_ne_zero hm (Nat.two_pow_pos j).ne'
  have htop : ((m.log2 + j : Nat) : Int) + (e - j) = m.log2 + e := by omega
  have hcarry : m ≠ 2 ^ (f.mb + 1) := Nat.ne_of_lt hlt
  have hle : ¬ (maxMag f : Int) < mag := by omega
  simp only [roundF, if_neg hne, log2_mul_two_pow hm, htop, hulp, shiftRound_exact mode neg m j (k := e - j - e) (by omega), if_neg hcarry,
    hmag, if_neg hle, Int.toNat_natCast, Bool.false_eq_true, false_and, if_false, Nat.add_zero]

/-- R91, R96: a value that a format with infinities holds rounds to its own encoding, without flags. -/
theorem roundF_decodeF {f : Fmt} (hkind : f.kind = 0) {y : Nat} (hy : y < 2 ^ (f.eb + f.mb + 1)) {neg : Bool} {m : Nat} {e : Int}
    (h : decodeF f y = .fin neg m e) (hm : m ≠ 0) (j : Nat) (mode : Rnd) (sat : Bool) : roundF f mode sat neg (m * 2 ^ j) (e - j) = (y, 0) := by
  have hM : fld y 0 f.mb < 2 ^ f.mb := Nat.mod_lt _ (Nat.two_pow_pos _)
  have hE : fld y f.mb f.eb < 2 ^ f.eb := Nat.mod_lt _ (Nat.two_pow_pos _)
  have hparts := encoding_parts hy
  simp only [decodeF, hkind, true_and, zero_ne_one, false_and, if_false] at h
  split at h
  · split at h <;> exact nomatch h
  · next hinf =>
    have hmax : fld y f.mb f.eb * 2 ^ f.mb + fld y 0 f.mb ≤ maxMag f := by
      have hstep : (fld y f.mb f.eb + 1) * 2 ^ f.mb ≤ (2 ^ f.eb - 1) * 2 ^ f.mb := Nat.mul_le_mul_right _ (by omega)
      rw [Nat.succ_mul] at hstep
      rw [maxMag, if_pos hkind]
      omega
    split at h
    · next hsub =>
      obtain ⟨rfl, rfl, rfl⟩ := FVal.fin.inj h
      rw [hsub, Nat.zero_mul, Nat.zero_add] at hparts hmax
      have hlog : (fld y 0 f.mb).log2 < f.mb := (Nat.log2_lt hm).mpr hM
      rw [roundF_of_kept hm (by rw [pow_succ]; omega) j mode sat _ (by omega) (by rw [if_pos hM]) hmax, signBit]
      simpa using hparts
    · next hnormal =>
      obtain ⟨rfl, rfl, rfl⟩ := FVal.fin.inj h
      have hlog : (2 ^ f.mb + fld y 0 f.mb).log2 = f.mb := by
        rw [Nat.log2_eq_iff hm, pow_succ]
        omega
      rw [roundF_of_kept hm (by rw [pow_succ]; omega) j mode sat _ (by omega) (mag := fld y f.mb f.eb * 2 ^ f.mb + fld y 0 f.mb) ?_ hmax, signBit]
      · simpa using hparts
      · rw [if_neg (by omega)]
        push_cast
        ring

/-! ## The drain (R104) -/

/-- The formats to which an element drains: BF16, FP16, FP32 and INT32 (R138). -/
theorem drainFormat_cases {o : Nat} (h4 : 4 ≤ o) (h7 : o ≤ 7) : o = 4 ∨ o = 5 ∨ o = 6 ∨ o = 7 := by omega
theorem fmtBits_drain {o : Nat} (h4 : 4 ≤ o) (h7 : o ≤ 7) : fmtBits o = if o ≤ 5 then 16 else 32 := by
  obtain rfl | rfl | rfl | rfl := drainFormat_cases h4 h7
  all_goals rfl
/-- A floating format to which an element drains. -/
theorem fmtOf_drain {o : Nat} (h4 : 4 ≤ o) (h7 : o ≤ 7) (h : o ≠ 7) :
    ∃ f, fmtOf o = some f ∧ f.kind = 0 ∧ f.eb + f.mb + 1 = if o ≤ 5 then 16 else 32 := by
  obtain rfl | rfl | rfl | rfl := drainFormat_cases h4 h7
  · exact ⟨_, rfl, rfl, rfl⟩
  · exact ⟨_, rfl, rfl, rfl⟩
  · exact ⟨_, rfl, rfl, rfl⟩
  · exact absurd rfl h

/-- The zero of a format that a drain gives for an empty window. -/
theorem convert_zero {o : Nat} (h4 : 4 ≤ o) (h7 : o ≤ 7) (mode : Rnd) (sat : Bool) :
    convert o mode sat (.fin (decide (mode = 3) && !isInt o) 0 0) =
      (if mode = 3 ∧ o ≠ 7 then 2 ^ ((if o ≤ 5 then 16 else 32) - 1) else 0, 0) := by
  obtain rfl | rfl | rfl | rfl := drainFormat_cases h4 h7
  · by_cases h : mode = 3 <;> simp [convert, fmtOf, isInt, roundF, signBit, h]
  · by_cases h : mode = 3 <;> simp [convert, fmtOf, isInt, roundF, signBit, h]
  · by_cases h : mode = 3 <;> simp [convert, fmtOf, isInt, roundF, signBit, h]
  · simp [convert, fmtOf, isInt, roundI, shiftRound, fmtBits, ofSigned]

/-- What a NaN and a positive infinity drain to. -/
def nanDrained (o : Nat) : Nat := if o = 4 then 0x7FC0 else if o = 5 then 0x7E00 else if o = 6 then 0x7FC00000 else 0
def infDrained (o : Nat) : Nat := if o = 4 then 0x7F80 else if o = 5 then 0x7C00 else if o = 6 then 0x7F800000 else 0x7FFFFFFF

/-- R96, R97: a value rounded to a 32-bit integer: saturated with its flags, or in range. -/
theorem roundI_spec (mode : Rnd) (neg : Bool) (m : Nat) (e : Int) :
    let r := shiftRound mode neg m e
    let n := signed neg r.1
    (n < -(2 ^ 31) → roundI 32 mode neg m e = (2 ^ 31, 5)) ∧ (2 ^ 31 ≤ n → roundI 32 mode neg m e = (2 ^ 31 - 1, 5)) ∧
    (-(2 ^ 31) ≤ n → n < 2 ^ 31 → roundI 32 mode neg m e = ((BitVec.ofInt 32 n).toNat, if r.2 then 1 else 0)) := by
  intro r n
  have hround : roundI 32 mode neg m e = if n < -(2 ^ 31) then (2 ^ 31, 5) else if (2 ^ 31 : Int) - 1 < n then (2 ^ 31 - 1, 5)
      else (ofSigned 32 n, if r.2 then 1 else 0) := rfl
  rw [hround]
  refine ⟨fun h => if_pos h, fun h => ?_, fun hlo hhi => ?_⟩
  · rw [if_neg (by omega), if_pos (by omega)]
  · rw [if_neg (by omega), if_neg (by omega), BitVec.toNat_ofInt]
    rfl

section
variable (el : AccElem) {o : Nat} (h4 : 4 ≤ o) (h7 : o ≤ 7) (mode : Rnd) (sat : Bool)

theorem drainElem_special : (el.spec.toNat = 1 → drainElem el o mode sat = convert o mode false .nan) ∧
    (el.spec.toNat = 2 → drainElem el o mode sat = convert o mode false (.inf false)) ∧
    (el.spec.toNat = 3 → drainElem el o mode sat = convert o mode false (.inf true)) := by
  refine ⟨fun h => ?_, fun h => ?_, fun h => ?_⟩ <;> simp only [drainElem, h]
theorem drainElem_finite (h : el.spec.toNat = 0) : drainElem el o mode sat =
    if el.win.toInt = 0 then convert o mode sat (.fin (decide (mode = 3) && !isInt o) 0 0)
    else convert o mode sat (.fin (decide (el.win.toInt < 0)) el.win.toInt.natAbs el.x) := by
  simp only [drainElem, h]

include h4 h7

/-- The special states drained: NaN and the infinities of the format, and for INT32 the values that stand for them (R97). -/
theorem convert_special : convert o mode false .nan = (nanDrained o, if o = 7 then 8 else 0) ∧
    convert o mode false (.inf false) = (infDrained o, if o = 7 then 8 else 0) ∧
    convert o mode false (.inf true) =
      (if o = 7 then 2 ^ 31 else 2 ^ ((if o ≤ 5 then 16 else 32) - 1) + infDrained o, if o = 7 then 8 else 0) := by
  obtain rfl | rfl | rfl | rfl := drainFormat_cases h4 h7
  all_goals exact ⟨rfl, rfl, rfl⟩

/-- A value that the format holds drains to its encoding, without flags (R96). -/
theorem convert_held (h : o ≠ 7) {y : Nat} (hy : y < 2 ^ (if o ≤ 5 then 16 else 32)) {neg : Bool} {m : Nat} {e : Int}
    (hd : decodeElem o y = .fin neg m e) (hm : m ≠ 0) (j : Nat) : convert o mode sat (.fin neg (m * 2 ^ j) (e - j)) = (y, 0) := by
  obtain ⟨f, hf, hkind, hbits⟩ := fmtOf_drain h4 h7 h
  rw [← hbits] at hy
  simp only [decodeElem, hf] at hd
  simp only [convert, hf]
  exact roundF_decodeF hkind hy hd hm j mode sat

/-- R96, R97, R104: an element drained to a format. -/
theorem drainElem_drains : drains el o mode sat (drainElem el o mode sat).1 (drainElem el o mode sat).2 := by
  obtain ⟨hnan, hpos, hneg⟩ := drainElem_special (o := o) el mode sat
  obtain ⟨cnan, cpos, cneg⟩ := convert_special h4 h7 mode
  have hstate : ∀ k : BitVec 2, el.spec = k → el.spec.toNat = k.toNat := fun k h => by rw [h]
  refine ⟨fun h => ?_, fun h => ?_, fun h => ?_, fun h hW => ?_, fun h hW ho => ⟨?_, ?_⟩, fun h hW ho => ?_⟩
  · rw [hnan (hstate 1 h), cnan]; exact ⟨rfl, rfl⟩
  · rw [hpos (hstate 2 h), cpos]; exact ⟨rfl, rfl⟩
  · rw [hneg (hstate 3 h), cneg]; exact ⟨rfl, rfl⟩
  · rw [drainElem_finite el mode sat (hstate 0 h), if_pos hW, convert_zero h4 h7]; exact ⟨rfl, rfl⟩
  · rw [drainElem_finite el mode sat (hstate 0 h), if_neg hW]; rfl
  · intro y neg m e j hy hd hm hval hexp
    have hpos : 0 < m * 2 ^ j := Nat.mul_pos (Nat.pos_of_ne_zero hm) (Nat.two_pow_pos j)
    have hsign : decide (el.win.toInt < 0) = neg ∧ el.win.toInt.natAbs = m * 2 ^ j := by
      rw [hval]
      cases neg
      · exact ⟨decide_eq_false (by simp only [Bool.false_eq_true, if_false]; omega), rfl⟩
      · exact ⟨decide_eq_true (by simp only [if_true]; omega), by simp only [if_true]; omega⟩
    have hx : el.x = e - j := hexp
    rw [drainElem_finite el mode sat (hstate 0 h), if_neg hW, hsign.1, hsign.2, hx, convert_held h4 h7 mode sat ho hy hd hm]
    exact ⟨rfl, rfl⟩
  · subst ho
    obtain ⟨hup, hdown⟩ := shiftRound_spec mode el.win.toInt el.x
    simp only [roundsTo, Nat.cast_pow, Nat.cast_ofNat] at hdown
    obtain ⟨hlow, hhigh, hmid⟩ := roundI_spec mode (decide (el.win.toInt < 0)) el.win.toInt.natAbs el.x
    have hdrain : drainElem el 7 mode sat = roundI 32 mode (decide (el.win.toInt < 0)) el.win.toInt.natAbs el.x := by
      rw [drainElem_finite el mode sat (hstate 0 h), if_neg hW]; rfl
    rw [hdrain]
    refine ⟨_, _, hup, hdown, fun hn => ?_, fun hn => ?_, fun hlo hhi => ?_⟩
    · rw [hlow hn]; exact ⟨rfl, rfl⟩
    · rw [hhigh hn]; exact ⟨rfl, rfl⟩
    · rw [hmid hlo hhi]
      exact ⟨rfl, fun hexact => if_neg (by rw [hexact]; exact Bool.false_ne_true), fun hexact => if_pos (Bool.eq_true_of_not_eq_false hexact)⟩

end

/-! ## Flags of a conversion -/

theorem flags_ite {p : Prop} [Decidable p] {a b : Nat × Nat} (ha : a.2 < 16) (hb : b.2 < 16) : (if p then a else b).2 < 16 := by
  split
  · exact ha
  · exact hb
theorem roundF_flags_lt (f : Fmt) (mode : Rnd) (sat neg : Bool) (m : Nat) (e : Int) : (roundF f mode sat neg m e).2 < 16 := by
  unfold roundF
  refine flags_ite (Nat.zero_lt_succ 15) ?_
  dsimp only
  refine flags_ite (by decide : 5 < 16) ?_
  dsimp only
  split <;> split <;> decide
theorem roundI_flags_lt (w : Nat) (mode : Rnd) (neg : Bool) (m : Nat) (e : Int) : (roundI w mode neg m e).2 < 16 := by
  unfold roundI
  dsimp only
  refine flags_ite (by decide : 5 < 16) (flags_ite (by decide : 5 < 16) ?_)
  dsimp only
  split <;> decide
/-- The flags of a conversion fit the four of FLAGS. -/
theorem convert_flags_lt (code : Nat) (mode : Rnd) (sat : Bool) (v : FVal) : (convert code mode sat v).2 < 16 := by
  unfold convert
  split
  · exact roundF_flags_lt _ _ _ _ _ _
  · exact flags_ite (by decide : 8 < 16) (by decide : 0 < 16)
  · exact flags_ite (by decide : 0 < 16) (flags_ite (by decide : 8 < 16) (by decide : 8 < 16))
  · exact roundI_flags_lt _ _ _ _ _
  · exact (by decide : 8 < 16)
  · exact (by decide : 8 < 16)
theorem drainElem_flags_lt (el : AccElem) (o : Nat) (mode : Rnd) (sat : Bool) : (drainElem el o mode sat).2 < 16 := by
  unfold drainElem
  split
  · exact convert_flags_lt _ _ _ _
  · exact convert_flags_lt _ _ _ _
  · exact convert_flags_lt _ _ _ _
  · exact flags_ite (convert_flags_lt _ _ _ _) (convert_flags_lt _ _ _ _)

end Sys2Proof.Machine
end

section
/-! SUPPORT. A row of MDRN lands as part of a tile's row, with its flags (R104, R138). -/

namespace Sys2Proof.Machine

open Sys2Proof.Claim hiding fits

/-! ## Fields of a row (R5) -/

theorem fld_testBit (x a n i : Nat) : (fld x a n).testBit i = (decide (i < n) && x.testBit (a + i)) := by
  rw [fld, Nat.testBit_mod_two_pow, Nat.testBit_div_two_pow, Nat.add_comm i a]
/-- A field of a number is one of its low bits too, where they hold it. -/
theorem fld_ofNat {n a w : Nat} (x : Nat) (h : a + w ≤ n) : fld (BitVec.ofNat n x).toNat a w = fld x a w := by
  refine Nat.eq_of_testBit_eq fun i => ?_
  rw [fld_testBit, fld_testBit, BitVec.toNat_ofNat, Nat.testBit_mod_two_pow]
  by_cases hi : i < w
  · rw [decide_eq_true (by omega : a + i < n), Bool.true_and]
  · rw [decide_eq_false hi, Bool.false_and, Bool.false_and]
/-- A field inside the bits that are put into a row is one of them. -/
theorem fld_putBits (r : Row) {lo n a w : Nat} (v : Nat) (hlo : lo + n ≤ 2048) (ha : a + w ≤ n) :
    fld (putBits r lo n v).toNat (lo + a) w = fld v a w := by
  have hput : r.toNat % 2 ^ lo + v % 2 ^ n * 2 ^ lo + r.toNat / 2 ^ (lo + n) * 2 ^ (lo + n) =
      2 ^ lo * (2 ^ n * (r.toNat / 2 ^ (lo + n)) + v % 2 ^ n) + r.toNat % 2 ^ lo := by
    rw [Nat.pow_add]
    ring
  rw [putBits, hput, fld_ofNat _ (by omega)]
  refine Nat.eq_of_testBit_eq fun i => ?_
  rw [fld_testBit, fld_testBit]
  by_cases hi : i < w
  · have hbit : lo + a + i - lo = a + i := by omega
    rw [Nat.testBit_two_pow_mul_add _ (Nat.mod_lt _ (Nat.two_pow_pos _)), if_neg (by omega), hbit,
      Nat.testBit_two_pow_mul_add _ (Nat.mod_lt _ (Nat.two_pow_pos _)), if_pos (by omega), Nat.testBit_mod_two_pow,
      decide_eq_true (by omega : a + i < n), Bool.true_and]
  · rw [decide_eq_false hi, Bool.false_and, Bool.false_and]
/-- An element of a row that is put together from its elements. -/
theorem fld_rowOf {w : Nat} : ∀ {l : List Nat} {j x : Nat}, l[j]? = some x → fld (rowOf w l) (w * j) w = x % 2 ^ w
  | y :: l, 0, x, h => by
    obtain rfl : y = x := Option.some.inj h
    rw [rowOf, Nat.mul_zero, fld_zero, Nat.add_mul_mod_self_left, Nat.mod_mod]
  | y :: l, j + 1, x, h => by
    have hrest : (y % 2 ^ w + 2 ^ w * rowOf w l) / 2 ^ w = rowOf w l := by
      rw [Nat.add_mul_div_left _ _ (Nat.two_pow_pos w), Nat.div_eq_of_lt (Nat.mod_lt _ (Nat.two_pow_pos w)), Nat.zero_add]
    rw [rowOf, fld, Nat.mul_succ, Nat.add_comm (w * j), Nat.pow_add, ← Nat.div_div_eq_div_mul, hrest]
    exact fld_rowOf h
  | [], _, _, h => nomatch h

/-! ## Part of a row lands (R117, R221) -/

section
variable (d r w start : Nat) (l : List Flagged) (c : Core)

/-- Where a source carried an error, the part that lands is marked too. -/
theorem spoil_partRow (bad : Bool) : spoil bad (partRow d r w start l) =
    partRow d r w start l ++ if bad then [.rowMark d r (wordMask (w * start) (w * l.length))] else [] := by
  cases bad
  · exact (List.append_nil _).symm
  · unfold partRow orFlags
    split <;> rfl
theorem foldl_orFlags (f : Nat) : (orFlags f).foldl CAct.apply c = if f % 16 = 0 then c else c.flagged f := by
  unfold orFlags
  split <;> rfl
theorem csr_foldl_orFlags (f : Nat) : ((orFlags f).foldl CAct.apply c).csr 0x010 = c.csr 0x010 ||| BitVec.ofNat 64 (f % 16) ∧
    ∀ x, x ≠ 0x010 → ((orFlags f).foldl CAct.apply c).csr x = c.csr x := by
  rw [foldl_orFlags]
  split
  · next h => rw [h]; exact ⟨BitVec.or_zero.symm, fun _ _ => rfl⟩
  · exact ⟨Core.csr_flagged_flags c f, fun x hx => Core.csr_flagged c f hx⟩

theorem row_foldl_orFlags (f t i : Nat) : ((orFlags f).foldl CAct.apply c).row t i = c.row t i := by
  rw [foldl_orFlags]
  split <;> rfl
theorem row_rowPart (lo n v : Nat) : (CAct.apply c (.rowPart d r lo n v)).row d r = putBits (c.row d r) lo n v := by
  rw [CAct.apply_rowPart, Core.row, Core.row, SMap.get_set_same]
/-- A part of a row that lands writes its bits and its flags; else only error marks may change. -/
theorem foldl_spoil_partRow (bad : Bool) : ∃ marks, (spoil bad (partRow d r w start l)).foldl CAct.apply c =
    { (orFlags (flagsOf l)).foldl CAct.apply (CAct.apply c (.rowPart d r (w * start) (w * l.length) (rowOf w (l.map Prod.fst)))) with
      rowBad := marks } := by
  rw [spoil_partRow, partRow, List.foldl_append, List.foldl_cons]
  generalize (orFlags (flagsOf l)).foldl CAct.apply _ = e
  cases bad
  · exact ⟨e.rowBad, rfl⟩
  · exact ⟨_, rfl⟩

/-- What a part of a row becomes as it lands: its elements are those put in, and their flags join FLAGS. -/
theorem partRow_lands (bad : Bool) (hbits : w * (start + l.length) ≤ 2048) (hflags : flagsOf l < 16) :
    let c' := (spoil bad (partRow d r w start l)).foldl CAct.apply c
    (∀ j v f, l[j]? = some (v, f) → element (c'.row d r) w (start + j) = BitVec.ofNat w v) ∧
    c'.csr 0x010 = c.csr 0x010 ||| BitVec.ofNat 64 (flagsOf l) ∧ ∀ x, x ≠ 0x010 → c'.csr x = c.csr x := by
  obtain ⟨marks, hland⟩ := foldl_spoil_partRow d r w start l c bad
  rw [hland]
  obtain ⟨hset, hothers⟩ := csr_foldl_orFlags (CAct.apply c (.rowPart d r (w * start) (w * l.length) (rowOf w (l.map Prod.fst)))) (flagsOf l)
  rw [Nat.mod_eq_of_lt hflags] at hset
  have hrow := (row_foldl_orFlags _ (flagsOf l) d r).trans (row_rowPart d r c (w * start) (w * l.length) (rowOf w (l.map Prod.fst)))
  rw [Nat.mul_add] at hbits
  refine ⟨fun j v f h => ?_, hset, hothers⟩
  have hj : j + 1 ≤ l.length := (List.getElem?_eq_some_iff.mp h).1
  have hin : w * j + w ≤ w * l.length := Nat.mul_le_mul_left w hj
  have hval : (l.map Prod.fst)[j]? = some v := by rw [List.getElem?_map, h]; rfl
  have helem : elem (putBits (c.row d r) (w * start) (w * l.length) (rowOf w (l.map Prod.fst))) w (start + j) = v % 2 ^ w := by
    rw [elem, Nat.mul_add, fld_putBits _ _ hbits hin, fld_rowOf hval]
  refine BitVec.eq_of_toNat_eq (Eq.trans ?_ (helem.trans (BitVec.toNat_ofNat v w).symm))
  rw [elem_eq_toNat, ← hrow]
  rfl
end

/-! ## Entries of a region's agenda -/

/-- Updates that put entries into one region's agenda change nothing else. -/
theorem applyAll_scheds (ctx : Nat) (ev : List (Key × Item)) : ∀ s : State,
    OnlyRegion s (s.applyAll (ev.map fun p => .reg ctx (.sched p.1 p.2))) ctx
      { s.region ctx with agenda := agendaWith (s.region ctx).agenda ev } := by
  induction ev with
  | nil => exact fun s => ⟨rfl, rfl, fun _ _ => rfl⟩
  | cons p ev ih =>
    intro s
    obtain ⟨hrest, hregion, hothers⟩ := ih (Act.apply s (.reg ctx (.sched p.1 p.2)))
    refine ⟨hrest, hregion.trans ?_, fun x hx => (hothers x hx).trans (Act.reg_region_other s _ hx)⟩
    rw [Act.reg_region_same]
    rfl

/-! ## A row of MDRN (R138) -/

section
variable (s : State) (k : Key) (id r land hist : Nat) (c : BitVec 3) (d : BitVec 7) (q : BitVec 3) (fs : BitVec 5) (e : Word)

/-- The drained values and flags of row r of an accumulator. -/
def drained : List Flagged := (List.range 16).map fun j =>
  drainElem (SMap.get {} (s.core id).accs (c.toNat * 256 + r * 16 + j)) (feO e.toNat) (feRnd e.toNat) (feSat e.toNat)
/-- What lands on the core as the row lands. -/
def drainUpdates : List CAct := spoil ((s.core id).accErr c.toNat ((List.range 16).map (16 * r + ·)))
  (partRow d.toNat r (fmtBits (feO e.toNat)) (16 * q.toNat) (drained s id r c e))
/-- What the read puts into the agenda: the landing, and the counts where a histogram is on (R110). -/
def drainEntries : List (Key × Item) := ({ k with due := land, phase := 0 }, .land id (drainUpdates s id r c d q e)) ::
  if feHen e.toNat then [({ k with due := hist, phase := 0 }, .histCount id (feBank e.toNat)
    ((drained s id r c e).map fun v => binOf (decodeElem (feO e.toNat) v.1)))] else []

theorem mxRow_mdrn : (Item.mxRow id (.mdrn c d q fs) r e land hist).run k s =
    (drainEntries s k id r land hist c d q e).map fun p => .reg (id / 2048) (.sched p.1 p.2) := by
  unfold drainEntries
  rw [List.map_cons, apply_ite (List.map _)]
  rfl
theorem flagsOf_drained_lt : flagsOf (drained s id r c e) < 16 := by
  have hall : ∀ l : List Flagged, (∀ v ∈ l, v.2 < 2 ^ 4) → ∀ n, n < 2 ^ 4 → l.foldl (fun a p => a ||| p.2) n < 2 ^ 4 := fun l hl n hn =>
    List.foldlRecOn (motive := (· < 2 ^ 4)) l _ hn fun a ha v hv => Nat.or_lt_two_pow ha (hl v hv)
  refine hall _ (fun v hv => ?_) 0 (by decide)
  obtain ⟨j, -, rfl⟩ := List.mem_map.mp hv
  exact drainElem_flags_lt _ _ _ _
end

/-- R96, R97, R104, R138: a row of MDRN that is read lands drained. -/
theorem drainsRound : Claim.DrainsRound := by
  intro s k id r land hist c d q fs e hr o w h4 h7 hq t
  obtain ⟨hrest, hregion, hothers⟩ := applyAll_scheds (id / 2048) (drainEntries s k id r land hist c d q e) s
  rw [← mxRow_mdrn s k id r land hist c d q fs e] at hrest hregion hothers
  have hlength : (drained s id r c e).length = 16 := by rw [drained, List.length_map, List.length_range]
  have hw : fmtBits (feO e.toNat) = w := fmtBits_drain h4 h7
  have hbits : w * (16 * q.toNat + 16) ≤ 2048 := by
    have hq8 : q.toNat < 8 := q.isLt
    by_cases ho : o ≤ 5
    · rw [show w = 16 from if_pos ho]; omega
    · rw [show w = 32 from if_neg ho]; omega
  refine ⟨hrest, hothers, drainUpdates s id r c d q e, drained s id r c e, hlength, ?_, fun j v f h => ?_, fun c' => ?_⟩
  · rw [show t.region (id / 2048) = _ from hregion]
    exact (mem_agendaWith _ _).mpr (.inl (List.mem_cons_self ..))
  · rw [drained, List.getElem?_map, Option.map_eq_some_iff] at h
    obtain ⟨i, hi, hdrain⟩ := h
    obtain rfl : j = i := by
      obtain ⟨_, hij⟩ := List.getElem?_eq_some_iff.mp hi
      rwa [List.getElem_range] at hij
    have hdrains := drainElem_drains (SMap.get {} (s.core id).accs (c.toNat * 256 + r * 16 + j)) h4 h7 (feRnd e.toNat) (feSat e.toNat)
    rw [show drainElem _ o _ _ = (v, f) from hdrain] at hdrains
    exact hdrains
  · have hland := partRow_lands d.toNat r w (16 * q.toNat) (drained s id r c e) c'
      ((s.core id).accErr c.toNat ((List.range 16).map (16 * r + ·))) (hlength ▸ hbits) (flagsOf_drained_lt s id r c e)
    rw [← hw] at hland ⊢
    rw [List.foldl_map]
    exact hland

/-- Settles O29: each word's step is that of the spec's tables; a command's sums are those of its terms, and they and the drained rows
land as the window and the formats keep them. -/
theorem matrixCommandsDequeue : Obligations.MatrixCommandsDequeue :=
  ⟨mmaDequeues, floatingSumsForm, floatingSumsLand, matrixStepsDequeue, drainsRound, matrixStepChecks⟩

end Sys2Proof.Machine
end

section
/-! SUPPORT. Class 4 as the control core issues it: addresses, the shared issue sequence, and each branch of a load's, a store's and an
atomic's plan (R146 to R160, R237). -/

namespace Sys2Proof.Machine

open Sys2Proof.Claim hiding fits

/-! ## Addresses (R146) -/

section
variable {r : Region} {v t o va : Nat} {a : DWord} {far : Bool}

/-- A scratchpad's address lies outside the global window, and names a byte of it. -/
theorem of_decodeAddr_sp (h : decodeAddr r v a = .sp t o far) : a.toNat / 2 ^ 52 ≠ 0 ∧ o < Config.spadBytes := by
  simp only [decodeAddr] at h
  split_ifs at h with hg htop hlow hfar hcl
  · cases h; exact ⟨hg, hlow⟩
  · split at h <;> cases h
    exact ⟨hg, hcl.2⟩
theorem of_decodeAddr_global (h : decodeAddr r v a = .global va) : a.toNat / 2 ^ 52 = 0 ∧ a.toNat = va := by
  simp only [decodeAddr] at h
  split_ifs at h with hg
  · cases h; exact ⟨hg, rfl⟩
  · split at h <;> cases h
end

/-! ## The shared issue sequence (R147) -/

section
variable {s : State} {srcs : List Nat} {tg : Tag} {barred : Bool} {k : Tag → Plan} {h : Option (List Act)}

theorem memIssue_goes (hs : Sources s srcs tg) (hb : barred = false ∨ s.inSeg = false) : memIssue s srcs barred k = k tg := by
  have hb : (barred && s.inSeg) = false := Bool.and_eq_false_iff.mpr hb
  simp only [memIssue, hs.tags, hs.present, hs.clean, hb, Bool.not_true, Bool.false_eq_true, if_false]
theorem memIssue_barred (ht : s.cc.common (srcs.map fun r => (s.cc.reg r).tag) = some tg) (hseg : s.inSeg = true) :
    memIssue s srcs true k = s.trap TIMING := by
  simp only [memIssue, ht, hseg, Bool.and_self, if_true]
theorem memIssue_absent (ht : s.cc.common (srcs.map fun r => (s.cc.reg r).tag) = some tg) (hp : s.cc.present tg = false) :
    memIssue s srcs false k = .acts [] := by
  simp only [memIssue, ht, hp, Bool.false_and, Bool.false_eq_true, if_false, Bool.not_false, if_true]

theorem idles_of_sources (hs : Sources s srcs tg) : s.idles srcs = false := by
  have ht : s.cc.common (srcs.map s.tag) = some tg := hs.tags
  simp only [State.idles, ht, hs.present, Bool.not_true]
theorem memHold_inSeg (hseg : s.inSeg = true) (p : Plan) : memHold s srcs h p = p := by
  cases h with
  | none => rfl
  | some l => simp only [memHold, hseg, Bool.true_or, if_true]
theorem memHold_held (hs : Sources s srcs tg) (hseg : s.inSeg = false) (l : List Act) (p : Plan) : memHold s srcs (some l) p = .hold l := by
  simp only [memHold, hseg, idles_of_sources hs, Bool.or_self, Bool.false_eq_true, if_false]
/-- Nothing holds the word, and it passes the checks of its issue. -/
theorem memHold_memIssue (hs : Sources s srcs tg) (hh : s.inSeg = false → h = none) (hb : barred = false ∨ s.inSeg = false) :
    memHold s srcs h (memIssue s srcs barred k) = k tg := by
  rw [← memIssue_goes hs hb (k := k)]
  cases hseg : s.inSeg with
  | true => exact memHold_inSeg hseg _
  | false => rw [hh hseg]; rfl
end

section
variable {s : State} {a : DWord} {n va : Nat} {acc : Access} {untimed : Bool} {keys : List Nat} {used : List TlbEnt}

theorem isGlobal_eq_false (h : a.toNat / 2 ^ 52 ≠ 0) : isGlobal a = false := decide_eq_false h
theorem isGlobal_eq_true (h : a.toNat / 2 ^ 52 = 0) : isGlobal a = true := decide_eq_true h
theorem globalHold_local (h : a.toNat / 2 ^ 52 ≠ 0) : globalHold s a n acc untimed = none := if_pos h
/-- A page that translates holds nothing while there is room for the access (R152, R235). -/
theorem globalHold_translated (ht : s.translate a.toNat n acc = .ok keys used) (hu : untimed = false ∨ s.cc.untimed.length < 16) :
    globalHold s a n acc untimed = none := by
  have hroom : (untimed && decide (Config.untimedMax ≤ s.cc.untimed.length)) = false :=
    Bool.and_eq_false_iff.mpr (hu.imp_right fun h => decide_eq_false (Nat.not_le.mpr h))
  simp only [globalHold, hroom, ht, Bool.false_eq_true, if_false, ite_self]
/-- A seventeenth untimed access is held (R152). -/
theorem globalHold_full (h : a.toNat / 2 ^ 52 = 0) (hu : 16 ≤ s.cc.untimed.length) : globalHold s a n acc true = some [] := by
  have hfull : decide (Config.untimedMax ≤ s.cc.untimed.length) = true := decide_eq_true hu
  simp only [globalHold, h, hfull, ne_eq, not_true_eq_false, if_false, Bool.and_self, if_true]
theorem withKeys_ok (ht : s.translate va n acc = .ok keys used) (k : List Nat → List TlbEnt → List Act → Plan) :
    s.withKeys va n acc k = k keys used [s.upd (.tlb (used.foldr touchTlb s.cc.tlb))] := by
  simp only [State.withKeys, ht]
end

/-! ## Untimed accesses (R152) -/

/-- What the issue of an untimed access does to its core. -/
def untimedUpdates (s : State) (d : Nat) (tg : Tag) (size : Nat) (signed : Bool) (va : Nat) (keys : List Nat) (used : List TlbEnt)
    (fwd : List (Nat × Byte × Bool)) (op : Nat) (b cmp : DWord) : List CAct :=
  [.untimedPush (untimedEntry s d tg size signed va (partsOf va keys used) fwd op b cmp), .bumpSerial]

/-- An item of the package's agenda, as the update that puts it there. -/
def putsLater (g : Nat × GItem) : Act := .pkg (.later g.1 g.2)

theorem acts_of_map_putsLater (gs : List (Nat × GItem)) : coreActs (gs.map putsLater) = [] ∧ schedActs (gs.map putsLater) = [] ∧
    laterActs (gs.map putsLater) = gs ∧ freeActs (gs.map putsLater) = 0 := by
  induction gs with
  | nil => exact ⟨rfl, rfl, rfl, rfl⟩
  | cons g gs ih =>
    obtain ⟨hcore, hsched, hlater, hfree⟩ := ih
    exact ⟨hcore, hsched, congrArg (g :: ·) hlater, hfree⟩

section
variable {s : State} {d : Nat} {tg : Tag} {size : Nat} {signed : Bool} {va : Nat} {keys : List Nat} {used : List TlbEnt}
  {fwd : List (Nat × Byte × Bool)} {op : Nat} {b cmp : DWord}

theorem untimedIssue_eq : untimedIssue s d tg size signed va keys used fwd op b cmp =
    (untimedUpdates s d tg size signed va keys used fwd op b cmp).map s.upd ++
      (servedLater s (partsOf va keys used).length).map putsLater ++ [.pkg (.takeFree 4)] := by
  simp only [untimedIssue, untimedUpdates, untimedEntry, servedLater, List.map_append, List.map_map, List.map_cons, List.map_nil,
    List.append_assoc]
  rfl

/-- A word that touches its TLB entries and starts an untimed access issues, and memory serves each part of the access later. -/
theorem exec_starts_untimed {i : Instr} (hc : s.actor = .control) (he : exec i s = resolve s (.acts
      ([s.upd (.tlb (used.foldr touchTlb s.cc.tlb))] ++ untimedIssue s d tg size signed va keys used fwd op b cmp))) :
    ∃ u, exec i s = .next u ∧ Issued s u { Claim.touched s used with
        untimed := s.cc.untimed ++ [untimedEntry s d tg size signed va (partsOf va keys used) fwd op b cmp]
        serial := s.cc.serial + 1 } [] (servedLater s (partsOf va keys used).length) 4 := by
  obtain ⟨l, hl⟩ : ∃ l, l = CAct.tlb (used.foldr touchTlb s.cc.tlb) :: untimedUpdates s d tg size signed va keys used fwd op b cmp := ⟨_, rfl⟩
  obtain ⟨g, hg⟩ : ∃ g, g = servedLater s (partsOf va keys used).length := ⟨_, rfl⟩
  have hacts : [s.upd (.tlb (used.foldr touchTlb s.cc.tlb))] ++ untimedIssue s d tg size signed va keys used fwd op b cmp =
      l.map s.upd ++ (g.map putsLater ++ [.pkg (.takeFree 4)]) := by
    rw [untimedIssue_eq, hl, hg, List.append_assoc]; rfl
  obtain ⟨hlocal, hupdates, hentries, hl0, hf0⟩ := does_upds s l
  obtain ⟨hcore, hsched, hlater, hfree⟩ := acts_of_map_putsLater g
  obtain ⟨u, hu, hissued⟩ := exec_issues _ hc (he.trans (congrArg (resolve s ∘ Plan.acts) hacts)) fun a ha => by
    simp only [List.mem_append, List.mem_singleton, List.mem_map] at ha
    rcases ha with ha | ⟨p, -, rfl⟩ | rfl
    exacts [hlocal a (List.mem_map.mpr ha), trivial, trivial]
  refine ⟨u, hu, ?_⟩
  simp only [Core.after, coreActs_append, schedActs_append, laterActs_append, freeActs_append, hupdates, hentries, hl0, hf0, hcore, hsched,
    hlater, hfree, coreActs, schedActs, laterActs, freeActs, List.append_nil, List.nil_append] at hissued
  rw [hl, hg] at hissued
  exact hissued
end

/-! ## Loads (R148 to R152) -/

section
variable {s : State} {d a size : Nat} {off : Int} {signed : Bool} {tg : Tag} {t o va : Nat} {far : Bool} {keys : List Nat} {used : List TlbEnt}

theorem planLoad_local (hs : Sources s [a] tg) (ha : decodeAddr s.rr s.vidx (address s a off size) = .sp t o far) (hal : o % size = 0) :
    planLoad s d a off size signed = .acts [s.puts ({ s.key (s.cyc + (if far then 7 else 2) * s.mul) 1 with phase := 3 },
      .sample s.cur t o (address s a off size).toNat size signed d tg 0 0 0 (s.cyc + (if far then 14 else 4) * s.mul) s.timed)] := by
  have hg := (of_decodeAddr_sp ha).1
  refine (memHold_memIssue hs (fun _ => globalHold_local hg) (.inl (isGlobal_eq_false hg))).trans ?_
  have ha : decodeAddr s.rr s.vidx (effAddr s a off size) = .sp t o far := ha
  simp only [ha, misaligned, hal, ne_eq, not_true_eq_false, decide_false, Bool.false_eq_true, if_false]
  rfl
theorem planLoad_misaligned (hs : Sources s [a] tg) (ha : decodeAddr s.rr s.vidx (address s a off size) = .sp t o far)
    (hal : o % size ≠ 0) : planLoad s d a off size signed = s.trapAt ALIGN (address s a off size).toNat := by
  have hg := (of_decodeAddr_sp ha).1
  refine (memHold_memIssue hs (fun _ => globalHold_local hg) (.inl (isGlobal_eq_false hg))).trans ?_
  have ha : decodeAddr s.rr s.vidx (effAddr s a off size) = .sp t o far := ha
  simp only [ha, misaligned, hal, ne_eq, not_false_eq_true, decide_true, if_true]
  rfl
theorem planLoad_global (hs : Sources s [a] tg) (ha : decodeAddr s.rr s.vidx (address s a off size) = .global va)
    (hseg : s.inSeg = false) (hroom : s.cc.untimed.length < 16) (ht : s.translate va size {} = .ok keys used) :
    planLoad s d a off size signed = .acts ([s.upd (.tlb (used.foldr touchTlb s.cc.tlb))] ++
      untimedIssue s d tg size signed va keys used (forwarded s.cc va keys) 0 0 0) := by
  obtain ⟨-, rfl⟩ := of_decodeAddr_global ha
  refine (memHold_memIssue hs (fun _ => globalHold_translated ht (.inr hroom)) (.inr hseg)).trans ?_
  have ha : decodeAddr s.rr s.vidx (effAddr s a off size) = .global (address s a off size).toNat := ha
  simp only [ha]
  exact withKeys_ok ht _
theorem planLoad_full (hs : Sources s [a] tg) (ha : decodeAddr s.rr s.vidx (address s a off size) = .global va)
    (hseg : s.inSeg = false) (hfull : 16 ≤ s.cc.untimed.length) : planLoad s d a off size signed = .hold [] := by
  have hg := (of_decodeAddr_global ha).1
  have hh : globalHold s (effAddr s a off size) size {} true = some [] := globalHold_full hg hfull
  rw [planLoad, hh]
  exact memHold_held hs hseg _ _
theorem planLoad_timed (hs : Sources s [a] tg) (ha : decodeAddr s.rr s.vidx (address s a off size) = .global va)
    (hseg : s.inSeg = true) : planLoad s d a off size signed = s.trap TIMING := by
  have hg : isGlobal (effAddr s a off size) = true := isGlobal_eq_true (of_decodeAddr_global ha).1
  rw [planLoad, memHold_inSeg hseg, hg]
  exact memIssue_barred hs.tags hseg
end

/-- Every load plans what the table of R148 gives it. -/
theorem exec_of_loadTable {i : Instr} {x : LoadWord} (h : loadTable i = some x) (s : State) :
    exec i s = resolve s (planLoad s x.d x.a x.off x.size x.signed) := by
  cases i with
  | ldb | ldbu | ldh | ldhu | ldw | ldwu | ldd => cases h; rfl
  | _ => exact nomatch h

/-- Settles O8: each clause is one branch of a load's plan. -/
theorem loadsIssue : Obligations.LoadsIssue := by
  intro i s x tg hx hs
  have he := exec_of_loadTable hx s
  refine ⟨fun t o far ha hal => ?_, fun t o far ha hal => ?_, fun va keys used ha hseg hroom ht => ?_, fun va ha hseg hfull => ?_,
    fun va ha hseg => ?_⟩
  · exact exec_schedules_one hs.actor _ (he.trans (congrArg (resolve s) (planLoad_local hs ha hal)))
  · exact exec_traps _ hs.actor (he.trans (congrArg (resolve s) (planLoad_misaligned hs ha hal)))
  · exact exec_starts_untimed hs.actor (he.trans (congrArg (resolve s) (planLoad_global hs ha hseg hroom ht)))
  · exact exec_holds hs.actor (he.trans (congrArg (resolve s) (planLoad_full hs ha hseg hfull)))
  · exact exec_traps _ hs.actor (he.trans (congrArg (resolve s) (planLoad_timed hs ha hseg)))

/-! ## Stores (R148 to R153) -/

/-- A word that touches its TLB entries and stages a write issues. -/
theorem exec_stages {i : Instr} {s : State} {used : List TlbEnt} (hc : s.actor = .control) (k : StKind) (bytes : List StByte)
    (he : exec i s = resolve s (.acts ([s.upd (.tlb (used.foldr touchTlb s.cc.tlb))] ++ [stage s k bytes]))) :
    ∃ u, exec i s = .next u ∧ Issued s u { Claim.touched s used with
      staging := s.cc.staging ++ [⟨k, bytes, s.cc.levels.length, false⟩] } [] :=
  exec_issues _ hc he (List.forall_mem_cons.mpr ⟨s.upd_local _, List.forall_mem_singleton.mpr (s.upd_local _)⟩)

section
variable {s : State} {d a size : Nat} {off : Int} {tg : Tag} {t o va : Nat} {far : Bool} {keys : List Nat} {used : List TlbEnt}

theorem planStore_local (hs : Sources s [d, a] tg) (ha : decodeAddr s.rr s.vidx (address s a off size) = .sp t o far)
    (hw : writeBarred (s.core t) s.cc.mode o size = false) (hal : o % size = 0) : planStore s d a off size =
      .acts [s.puts (s.key (s.cyc + (if far then 10 else 2) * s.mul) 1, .perform s.cur t o (bytesOf (s.val d).toNat size) false)] := by
  refine (memHold_memIssue hs (fun _ => globalHold_local (of_decodeAddr_sp ha).1) (.inl rfl)).trans ?_
  have ha : decodeAddr s.rr s.vidx (effAddr s a off size) = .sp t o far := ha
  simp only [ha, hw, misaligned, hal, ne_eq, not_true_eq_false, decide_false, Bool.false_eq_true, if_false]
  rfl
theorem planStore_barred (hs : Sources s [d, a] tg) (ha : decodeAddr s.rr s.vidx (address s a off size) = .sp t o far)
    (hw : writeBarred (s.core t) s.cc.mode o size = true) : planStore s d a off size = s.trapAt SCOPE (address s a off size).toNat := by
  refine (memHold_memIssue hs (fun _ => globalHold_local (of_decodeAddr_sp ha).1) (.inl rfl)).trans ?_
  have ha : decodeAddr s.rr s.vidx (effAddr s a off size) = .sp t o far := ha
  simp only [ha, hw, if_true]
  rfl
theorem planStore_global (hs : Sources s [d, a] tg) (ha : decodeAddr s.rr s.vidx (address s a off size) = .global va)
    (ht : s.translate va size { write := true, locked := s.inSeg } = .ok keys used) (hroom : stageRoom s.cc = true) :
    planStore s d a off size = .acts ([s.upd (.tlb (used.foldr touchTlb s.cc.tlb))] ++ [stage s .store (stBytes va keys (s.val d).toNat)]) := by
  obtain ⟨-, rfl⟩ := of_decodeAddr_global ha
  refine (memHold_memIssue hs (fun hseg => globalHold_translated (hseg ▸ ht) (.inl rfl)) (.inl rfl)).trans ?_
  have ha : decodeAddr s.rr s.vidx (effAddr s a off size) = .global (address s a off size).toNat := ha
  simp only [ha]
  rw [withKeys_ok ht, hroom]
  rfl
end

/-- Every store plans what the table of R148 gives it. -/
theorem exec_of_storeTable {i : Instr} {d a : Nat} {off : Int} {size : Nat} (h : storeTable i = some (d, a, off, size)) (s : State) :
    exec i s = resolve s (planStore s d a off size) := by
  cases i with
  | stb | sth | stw | std => cases h; rfl
  | _ => exact nomatch h

/-- Settles O9: each clause is one branch of a store's plan. -/
theorem storesIssue : Obligations.StoresIssue := by
  intro i s d a off size tg hx hs
  have he := exec_of_storeTable hx s
  refine ⟨fun t o far ha hw hal => ?_, fun t o far ha hw => ?_, fun va keys used ha ht hroom => ?_⟩
  · exact exec_schedules_one hs.actor _ (he.trans (congrArg (resolve s) (planStore_local hs ha hw hal)))
  · exact exec_traps _ hs.actor (he.trans (congrArg (resolve s) (planStore_barred hs ha hw)))
  · exact exec_stages hs.actor _ _ (he.trans (congrArg (resolve s) (planStore_global hs ha ht hroom)))

/-! ## Atomics (R156 to R160, R237) -/

/-- Which atomic accesses a page, and how (R232, R237): AFADD and ACELL are staged as a store is. -/
def amoAccess (s : State) (sub : Nat) : Access :=
  { write := true, locked := decide (sub = 10 ∨ sub = 11) && s.inSeg, cell := decide (10 ≤ sub), amo := some sub }

section
variable {s : State} {sub d a b : Nat} {srcs : List Nat} {tg : Tag} {t o va : Nat} {far : Bool} {keys : List Nat} {e : TlbEnt}

theorem planAmo_local (hs : Sources s srcs tg) (ha : decodeAddr s.rr s.vidx (s.val a) = .sp t o far)
    (hw : writeBarred (s.core t) s.cc.mode o (amoSize sub) = false) (hal : o % amoSize sub = 0) : planAmo s sub d a b srcs =
      .acts [s.puts (s.key (s.cyc + (if far then 8 else 2) * s.mul) 1, .sample s.cur t o (s.val a).toNat (amoSize sub) false d tg
        (sub + 1) (s.val b) (s.val d) (s.cyc + (if far then 14 else 4) * s.mul) s.timed)] := by
  have hg := (of_decodeAddr_sp ha).1
  have hbarred : (isGlobal (s.val a) && !decide (sub = 10 ∨ sub = 11)) = false := by rw [isGlobal_eq_false hg, Bool.false_and]
  refine (memHold_memIssue hs (fun _ => globalHold_local hg) (.inl hbarred)).trans ?_
  simp only [ha, hw, misaligned, hal, ne_eq, not_true_eq_false, decide_false, Bool.false_eq_true, if_false]
  rfl
theorem planAmo_untimed (hs : Sources s srcs tg) (ha : decodeAddr s.rr s.vidx (s.val a) = .global va) (hsub : ¬ (sub = 10 ∨ sub = 11))
    (hseg : s.inSeg = false) (hroom : s.cc.untimed.length < 16) (hal : va % (if amoSize sub = 16 then 16 else 4) = 0)
    (ht : s.translate va (amoSize sub) (amoAccess s sub) = .ok keys [e]) : planAmo s sub d a b srcs =
      .acts ([s.upd (.tlb ([e].foldr touchTlb s.cc.tlb))] ++
        untimedIssue s d tg (amoSize sub) false va keys [e] [] (sub + 1) (s.val b) (s.val d)) := by
  obtain ⟨-, rfl⟩ := of_decodeAddr_global ha
  refine (memHold_memIssue hs (fun _ => globalHold_translated ht (.inr hroom)) (.inr hseg)).trans ?_
  simp only [ha]
  refine (withKeys_ok ht _).trans ?_
  simp only [List.length_singleton, Nat.lt_irrefl, hal, ne_eq, not_true_eq_false, hsub, if_false]
theorem planAmo_staged (hs : Sources s srcs tg) (ha : decodeAddr s.rr s.vidx (s.val a) = .global va) (hsub : sub = 10 ∨ sub = 11)
    (hal : va % 16 = 0) (ht : s.translate va 16 (amoAccess s sub) = .ok keys [e]) (hroom : stageRoom s.cc = true) :
    planAmo s sub d a b srcs = .acts ([s.upd (.tlb ([e].foldr touchTlb s.cc.tlb))] ++
      [stage s (if sub = 10 then .afadd (BitVec.ofNat 32 (s.val b).toNat) else .acell)
        (stBytes va keys (if sub = 10 then 0 else cellNew (s.val b)))]) := by
  obtain ⟨-, rfl⟩ := of_decodeAddr_global ha
  have hstaged : decide (sub = 10 ∨ sub = 11) = true := decide_eq_true hsub
  have hsize : amoSize sub = 16 := by rcases hsub with rfl | rfl <;> rfl
  have hbarred : (isGlobal (s.val a) && !decide (sub = 10 ∨ sub = 11)) = false := by rw [hstaged, Bool.not_true, Bool.and_false]
  rw [← hsize] at ht
  refine (memHold_memIssue hs (fun _ => globalHold_translated ht (.inl (congrArg not hstaged))) (.inl hbarred)).trans ?_
  simp only [ha]
  refine (withKeys_ok ht _).trans ?_
  simp only [List.length_singleton, Nat.lt_irrefl, hsize, hal, ne_eq, not_true_eq_false, hsub, hroom, Bool.not_true, Bool.false_eq_true,
    if_true, if_false]
  split <;> rfl
end

/-- Every atomic plans what the tables of R156, R157 and R159 give it, and its location has the size that R156 gives. -/
theorem exec_of_amoTable {i : Instr} {x : AmoWord} (h : amoTable i = some x) (s : State) :
    exec i s = resolve s (planAmo s x.sub x.d x.a x.b x.srcs) ∧ x.size = amoSize x.sub := by
  cases i with
  | aadd | aand | aor | axor | amin | amax | aminu | amaxu | aswap | acas | afadd | acell | acrd | acflg => cases h; exact ⟨rfl, rfl⟩
  | _ => exact nomatch h

/-- Settles O10: each clause is one branch of an atomic's plan. -/
theorem atomicsIssue : Obligations.AtomicsIssue := by
  intro i s x tg hx hs
  obtain ⟨he, hsize⟩ := exec_of_amoTable hx s
  rw [hsize]
  refine ⟨fun t o far ha hw hal => ?_, fun va keys e ha h10 h11 hseg hroom hal ht => ?_, fun va keys e ha hsub hal ht hroom => ?_⟩
  · exact exec_schedules_one hs.actor _ (he.trans (congrArg (resolve s) (planAmo_local hs ha hw hal)))
  · have hsub : ¬ (x.sub = 10 ∨ x.sub = 11) := not_or.mpr ⟨h10, h11⟩
    have hacc : amoAccess s x.sub = { write := true, cell := decide (10 ≤ x.sub), amo := some x.sub } := by
      rw [amoAccess, decide_eq_false hsub, Bool.false_and]
    exact exec_starts_untimed hs.actor (he.trans (congrArg (resolve s) (planAmo_untimed hs ha hsub hseg hroom hal (hacc ▸ ht))))
  · have hacc : amoAccess s x.sub = { write := true, locked := s.inSeg, cell := true, amo := some x.sub } := by
      rw [amoAccess, decide_eq_true hsub, Bool.true_and]
      rcases hsub with h | h <;> rw [h] <;> rfl
    exact exec_stages hs.actor _ _ (he.trans (congrArg (resolve s) (planAmo_staged hs ha hsub hal (hacc ▸ ht) hroom)))

end Sys2Proof.Machine
end

section
/-! SUPPORT. Fences, MWAIT, LWAIT and QWAIT: what each plans where its condition holds and where it does not (R155, R161 to R165). -/

namespace Sys2Proof.Machine

open Sys2Proof.Claim hiding fits

/-! ## Words that change their core at the issue -/

/-- A word that does a list of local updates issues, its core having taken those that are its own. -/
theorem Does.issues {s : State} {i : Instr} {l : List Act} {u : List CAct} {ev : List (Key × Item)} {n : Nat} (h : Does s l u ev n)
    (hc : s.actor = .control) (he : exec i s = resolve s (.acts l)) :
    ∃ t, exec i s = .next t ∧ Issued s t (u.foldl CAct.apply s.cc) ev [] n := by
  obtain ⟨t, ht, hissued⟩ := exec_issues l hc he h.isLocal
  rw [Core.after, h.updates, h.entries, h.later, h.free] at hissued
  exact ⟨t, ht, hissued⟩
/-- A word that only updates its core issues. -/
theorem exec_updates {s : State} {i : Instr} (hc : s.actor = .control) (l : List CAct) (he : exec i s = resolve s (.acts (l.map s.upd))) :
    ∃ t, exec i s = .next t ∧ Issued s t (l.foldl CAct.apply s.cc) [] := (does_upds s l).issues hc he

/-! ## Waits (R155, R161) -/

/-- The wait that a word starts where its condition does not hold. -/
def waitNow (s : State) (k : WaitKind) (lim : Option Nat) : CAct := .wait ⟨k, s.cyc, lim.map fun n => s.cyc + 2 ^ n⟩

theorem startWait_met (s : State) (k : WaitKind) (lim : Option Nat) (l : List Act) : startWait s true k lim l = .acts l := rfl
theorem startWait_waits (s : State) (k : WaitKind) (lim : Option Nat) (l : List CAct) :
    startWait s false k lim (l.map s.upd) = .acts ((l ++ [waitNow s k lim]).map s.upd) := by
  rw [List.map_append]; rfl

section
variable {s : State}

theorem planLwait_met (hseg : s.inSeg = false) {d : BitVec 6} (h : (s.cc.untimed.filter fun u => d.toNat = 0 ∨ u.d = d.toNat) = [])
    (l : BitVec 5) : planLwait d l s = .acts [] := by
  have hmet : (awaited s.cc d.toNat).isEmpty = true := List.isEmpty_iff.mpr h
  rw [planLwait, State.notTimed_ok hseg, hmet, startWait_met]
theorem planLwait_waits (hseg : s.inSeg = false) {d : BitVec 6} (h : (s.cc.untimed.filter fun u => d.toNat = 0 ∨ u.d = d.toNat) ≠ [])
    (l : BitVec 5) : planLwait d l s = .acts ([waitNow s (.lwait d.toNat) (some l.toNat)].map s.upd) := by
  have hmet : (awaited s.cc d.toNat).isEmpty = false := List.isEmpty_eq_false_iff.mpr h
  rw [planLwait, State.notTimed_ok hseg, hmet]
  exact startWait_waits s _ _ []

/-! ## Fences (R162) -/

/-- What a fence does to its core at once: a release marks the buffer, and ALIAS changes the match. -/
def fenceMarks (s : State) (rel ali : Bool) : List CAct :=
  (if rel then [.stagePush ⟨.mark, [], s.cc.levels.length, false⟩] else []) ++ if ali then [CAct.aliased true] else []
/-- The core after a fence: its stream waits while an untimed access is outstanding. -/
def fenced (s : State) (c : Core) : Core := if s.cc.untimed = [] then c else CAct.apply c (waitNow s .fence none)
theorem planFence_eq (hseg : s.inSeg = false) (rel ali : Bool) : planFence s rel ali =
    .acts ((fenceMarks s rel ali ++ if s.cc.untimed = [] then [] else [waitNow s .fence none]).map s.upd) := by
  have hmarks : (if rel then [stage s .mark []] else []) ++ (if ali then [s.upd (.aliased true)] else []) =
      (fenceMarks s rel ali).map s.upd := by cases rel <;> cases ali <;> rfl
  rw [planFence, State.notTimed_ok hseg, hmarks]
  by_cases hu : s.cc.untimed = []
  · rw [if_pos hu, List.isEmpty_iff.mpr hu, startWait_met, List.append_nil]
  · rw [if_neg hu, List.isEmpty_eq_false_iff.mpr hu, startWait_waits]
theorem exec_fence {i : Instr} {rel ali : Bool} (hc : s.actor = .control) (hseg : s.inSeg = false)
    (he : exec i s = resolve s (planFence s rel ali)) : ∃ t, exec i s = .next t ∧
      Issued s t (fenced s ((fenceMarks s rel ali).foldl CAct.apply s.cc)) [] := by
  have hissues := exec_updates hc _ (he.trans (congrArg (resolve s) (planFence_eq hseg rel ali)))
  rw [List.foldl_append] at hissues
  unfold fenced
  split at hissues
  · next hu => rwa [if_pos hu]
  · next hu => rwa [if_neg hu]

/-! ## MWAIT (R163) -/

variable {d a b : BitVec 6} {l : BitVec 5} {tg : Tag} {t o va : Nat} {far : Bool} {keys : List Nat} {used : List TlbEnt}

theorem planMwait_local (hseg : s.inSeg = false) (hs : Sources s [a.toNat, b.toNat] tg)
    (ha : decodeAddr s.rr s.vidx (s.val a.toNat) = .sp t o far) (hal : o % 8 = 0) : planMwait d a b l s =
      .acts ([waitNow s (.mwait d.toNat (s.val a.toNat).toNat (s.val b.toNat) tg [] 0) (some l.toNat)].map s.upd) := by
  refine (memHold_memIssue hs (fun _ => globalHold_local (of_decodeAddr_sp ha).1) (.inr hseg)).trans ?_
  simp only [ha, misaligned, hal, ne_eq, not_true_eq_false, decide_false, Bool.false_eq_true, if_false]
  exact startWait_waits s _ _ []
theorem planMwait_global (hseg : s.inSeg = false) (hs : Sources s [a.toNat, b.toNat] tg)
    (ha : decodeAddr s.rr s.vidx (s.val a.toNat) = .global va) (hal : va % 8 = 0) (ht : s.translate va 8 {} = .ok keys used) :
    planMwait d a b l s = .acts ([.tlb (used.foldr touchTlb s.cc.tlb), waitNow s (.mwait d.toNat (s.val a.toNat).toNat (s.val b.toNat) tg keys
      (pteOrd (((used.head?.map TlbEnt.pte).getD 0).toNat))) (some l.toNat)].map s.upd) := by
  obtain ⟨-, rfl⟩ := of_decodeAddr_global ha
  refine (memHold_memIssue hs (fun _ => globalHold_translated ht (.inl rfl)) (.inr hseg)).trans ?_
  simp only [ha]
  refine (withKeys_ok ht _).trans ?_
  simp only [hal, ne_eq, not_true_eq_false, if_false]
  exact startWait_waits s _ _ [.tlb (used.foldr touchTlb s.cc.tlb)]
end

/-- R155, R162 to R165: each clause is one branch of a wait word's plan. -/
theorem fencesAndWaitsHoldTheStream : Claim.FencesAndWaitsHoldTheStream := by
  intro s hc hseg
  refine ⟨fun d l h => ?_, fun d l h => ?_, ?_, ?_, ?_, ?_, fun d a b l tg t o far hs ha hal => ?_,
    fun d a b l tg va keys used hs ha hal ht => ?_⟩
  · exact exec_issues_nothing hc (congrArg (resolve s) (planLwait_met hseg h l))
  · exact exec_updates (i := .lwait d l) hc _ (congrArg (resolve s) (planLwait_waits hseg h l))
  · exact exec_fence (rel := false) (ali := false) hc hseg rfl
  · exact exec_fence (rel := true) (ali := false) hc hseg rfl
  · exact exec_fence (rel := true) (ali := false) hc hseg rfl
  · exact exec_fence (rel := true) (ali := true) hc hseg rfl
  · exact exec_updates (i := .mwait d a b l) hc _ (congrArg (resolve s) (planMwait_local hseg hs ha hal))
  · exact exec_updates (i := .mwait d a b l) hc _ (congrArg (resolve s) (planMwait_global hseg hs ha hal ht))

/-! ## QWAIT (R164) -/

section
variable {s : State} {a : BitVec 6} {l : BitVec 5}

theorem planQwait_steered (ha : maySteer s a.toNat) (hseg : s.inSeg = false) : planQwait a l s =
    if s.readsCh ((s.val a.toNat).toNat % 256) then
      startWait s (s.qwaitMet s.ctx ((s.val a.toNat).toNat % 256)) (.qwait ((s.val a.toNat).toNat % 256)) (some l.toNat)
        (if s.qwaitMet s.ctx ((s.val a.toNat).toNat % 256) then [.reg s.ctx (.qwaited ((s.val a.toNat).toNat % 256))] else [])
    else s.trap ILLEGAL := by
  have hsteer : steer (s.tag a.toNat) = true := decide_eq_true ha.1
  have hch : fld (s.val a.toNat).toNat 0 8 = (s.val a.toNat).toNat % 256 := fld_zero _ _
  simp only [planQwait, hsteer, hch, State.notTimed_ok hseg, ha.2, Bool.not_true, Bool.false_eq_true, if_false]
  cases s.readsCh ((s.val a.toNat).toNat % 256) <;> rfl

/-- A word that updates its region and nothing else: the region takes the update, and the core goes on. -/
theorem exec_updates_region {i : Instr} (hc : s.actor = .control) (a : RAct) (he : exec i s = resolve s (.acts [.reg s.ctx a])) :
    ∃ t, exec i s = .next t ∧ t.region s.ctx = RAct.apply s s.rr a ∧ t.cc = s.cc.streamed t.cc ∧ t.mem = s.mem ∧
      ∀ id, id ≠ s.cur → t.core id = s.core id := by
  obtain ⟨m, hm⟩ : ∃ m, m = Act.apply s (.reg s.ctx a) := ⟨_, rfl⟩
  have hcur : m.cur = s.cur := by rw [hm, Act.reg_cur]
  have hctx : m.ctx = s.ctx := congrArg (· / 2048) hcur
  have hcores (id : Nat) : m.core id = s.core id := by rw [hm, Act.reg_core]
  have hcc : m.cc = s.cc := by rw [State.cc, hcur]; exact hcores _
  obtain ⟨hlocal, hcore⟩ := applyAll_local (retire m) (retire_local m)
  obtain ⟨hsched, -, -⟩ := retire_quiet m
  refine ⟨m.applyAll (retire m), ?_, ?_, ?_, ?_, fun id hid => ?_⟩
  · rw [he, hm]; simp only [resolve, Plan.run, hc, State.applyAll_append, State.applyAll_cons, State.applyAll_nil]
  · have hregion := hlocal.region
    rw [hctx, hsched] at hregion
    rw [hregion, hm, Act.reg_region_same]; rfl
  · rw [hcore, ← hcc]; exact (retire_core m m.cc).1
  · rw [hlocal.mem, hm, Act.reg_mem]
  · rw [hlocal.cores id (hcur ▸ hid), hcores]
end

/-- R155, R161, R164: each clause is one branch of QWAIT's plan. -/
theorem channelWaitsHoldTheStream : Claim.ChannelWaitsHoldTheStream := by
  intro s a l hc ha hseg
  have hplan := planQwait_steered (l := l) ha hseg
  refine ⟨fun hr hmet => ?_, fun hr hmet => ?_, fun hr => ?_⟩
  · rw [hr, hmet, if_pos rfl, if_neg Bool.false_ne_true] at hplan
    exact exec_updates (i := .qwait a l) hc _ (congrArg (resolve s) (hplan.trans (startWait_waits s _ _ [])))
  · rw [hr, hmet, if_pos rfl, if_pos rfl, startWait_met] at hplan
    obtain ⟨t, ht, hregion, hrest⟩ := exec_updates_region (i := .qwait a l) hc _ (congrArg (resolve s) hplan)
    exact ⟨t, ht, congrArg Region.qwaited hregion, hrest⟩
  · rw [hr, if_neg Bool.false_ne_true] at hplan
    exact exec_traps _ hc (congrArg (resolve s) hplan)

/-- Settles O11: the fences, LWAIT and MWAIT wait in their core; QWAIT also frees its start in the region. -/
theorem waitWordsHoldTheStream : Obligations.WaitWordsHoldTheStream := ⟨fencesAndWaitsHoldTheStream, channelWaitsHoldTheStream⟩

end Sys2Proof.Machine
end

section
/-! SUPPORT. Tile loads and stores as the control core issues them: the tests and checks of each plan, and the rows that it schedules
(R12, R33, R167 to R169). -/

namespace Sys2Proof.Machine

open Sys2Proof.Claim hiding fits

section
variable {s : State} {t : Nat} {ad : DWord} {off : Nat} {far : Bool}

theorem tileOk_empty_iff (s : State) (t : Nat) : s.cc.tileOk t false = true ↔ writable s t := by
  simp only [Core.tileOk, writable, Bool.or_eq_true, decide_eq_true_eq]
/-- An address of the core's own scratchpad gives a tile its offset (R167). -/
theorem tileOffset_own (ha : decodeAddr s.rr s.vidx ad = .sp s.cur off far) : tileOffset s ad = .inl off := by
  simp only [tileOffset, ha, if_true]
end

/-! ## Tile loads (R167, R169) -/

/-- What a tile load puts into the agenda: the samples of its rows and sidecar, its tag, and the bit of a coupled tile. -/
def tileLoadRows (s : State) (t : Nat) (tg : Tag) (off : Nat) (sidecar : Bool) : List (Key × Item) :=
  (List.range 16).map (fun r => ({ s.key (s.cyc + (2 + r) * s.mul) 1 with phase := 3 },
      Item.tldRow s.cur t (off + 256 * r) r false (s.cyc + (6 + r) * s.mul))) ++
    (if sidecar then [({ s.key (s.cyc + 18 * s.mul) 1 with phase := 3 }, Item.tldRow s.cur t (off + 4096) 0 true (s.cyc + 22 * s.mul))] else []) ++
    [landing s 6 1 [.tileTag t tg]] ++
    (if s.cc.coupling t = 0 then [] else [(s.key (s.cyc + (if sidecar then 22 else 21) * s.mul) 1, Item.full s.cur t true)])

section
variable {s : State} {t a o : Nat} {off : Nat} {far sidecar : Bool} {tg : Tag}

theorem planTileLoad_held (hs : Sources s [a] tg) (hw : ¬ writable s t) (hseg : s.inSeg = false) : planTileLoad s t a o sidecar = .hold [] := by
  have hok : (s.cc.tileOk t false || s.idles [a]) = false := by
    rw [← tileOk_empty_iff, Bool.not_eq_true] at hw
    rw [hw, idles_of_sources hs, Bool.or_self]
  exact State.holdFirst_held hok ((State.timed_control hs.actor).trans hseg) _
/-- A tile load that is not held: its address is checked, then its tile (R147; assumptions 66). -/
theorem planTileLoad_checked (hs : Sources s [a] tg) (hgo : writable s t ∨ s.inSeg = true)
    (ha : decodeAddr s.rr s.vidx (s.val a + BitVec.ofNat 64 (o * 64)) = .sp s.cur off far) : planTileLoad s t a o sidecar =
      if Config.spadBytes < off + (if sidecar then 4352 else 4096) then s.trapAt SCOPE (s.val a + BitVec.ofNat 64 (o * 64)).toNat
      else if off % 64 ≠ 0 then s.trapAt ALIGN (s.val a + BitVec.ofNat 64 (o * 64)).toNat
      else s.unless (s.cc.tileOk t false) 6 t (.acts ((tileLoadRows s t tg off sidecar).map s.puts)) := by
  have hpass : (s.cc.tileOk t false || s.idles [a]) = true ∨ s.timed = true := by
    rw [State.timed_control hs.actor]
    exact hgo.imp_left fun h => by rw [(tileOk_empty_iff s t).mpr h, Bool.true_or]
  have hrows : (tileLoadRows s t tg off sidecar).map s.puts =
      (List.range 16).map (fun r => s.afterPhase (2 + r) 1 3 (.tldRow s.cur t (off + 256 * r) r false (s.cyc + (6 + r) * s.mul))) ++
      (if sidecar then [s.afterPhase 18 1 3 (.tldRow s.cur t (off + 4096) 0 true (s.cyc + 22 * s.mul))] else []) ++
      [s.lands 6 1 [.tileTag t tg]] ++
      (if s.cc.coupling t = 0 then [] else [s.after (if sidecar then 22 else 21) 1 (.full s.cur t true)]) := by
    simp only [tileLoadRows, List.map_append, List.map_map, apply_ite (List.map s.puts), List.map_cons, List.map_nil]
    rfl
  rw [hrows]
  refine (State.holdFirst_passes hpass _).trans ((memIssue_goes hs (.inl rfl)).trans ?_)
  simp only [tileOffset_own ha]
end

/-- What TLD and TLDS have in common. -/
theorem exec_tileLoad (s : State) {i : Instr} {t : BitVec 7} {a : BitVec 6} {o : BitVec 10} (hi : i = .tld t a o ∨ i = .tlds t a o) :
    ∃ sidecar, exec i s = resolve s (planTileLoad s t.toNat a.toNat o.toNat sidecar) := by
  rcases hi with rfl | rfl
  exacts [⟨false, rfl⟩, ⟨true, rfl⟩]
theorem tileLoad_span (sidecar : Bool) (off : Nat) : off + 4096 ≤ off + (if sidecar then 4352 else 4096) ∧
    off + (if sidecar then 4352 else 4096) ≤ off + 4352 := by cases sidecar <;> simp

/-- R167, R169: a tile load is held by its tile, or else each clause is one branch of its checks. -/
theorem tileLoadsIssue : Claim.TileLoadsIssue := by
  intro s t a o tg off far hs ad rows side full
  refine ⟨fun hw hseg i hi => ?_, fun ha hw hseg hal hoff i hi => ?_, fun ha hgo => ⟨fun hw hal hoff => ?_, fun hw hal hoff => ?_,
    fun hal hoff i hi => ?_, fun hoff i hi => ?_⟩⟩
  · obtain ⟨sidecar, he⟩ := exec_tileLoad s hi
    exact exec_holds hs.actor (he.trans (congrArg (resolve s) (planTileLoad_held hs hw hseg)))
  · obtain ⟨sidecar, he⟩ := exec_tileLoad s hi
    have hscope : ¬ Config.spadBytes < off + (if sidecar then 4352 else 4096) :=
      Nat.not_lt.mpr ((tileLoad_span sidecar off).2.trans hoff)
    rw [planTileLoad_checked hs (.inr hseg) ha, if_neg hscope, if_neg (not_not.mpr hal),
      State.unless_inSeg hs.actor hseg (tileOk_empty_iff s _) hw] at he
    exact exec_traps _ hs.actor he
  · have hplan := planTileLoad_checked (sidecar := false) hs hgo ha
    have hscope : ¬ Config.spadBytes < off + (if false = true then 4352 else 4096) := Nat.not_lt.mpr hoff
    rw [if_neg hscope, if_neg (not_not.mpr hal), (tileOk_empty_iff s _).mpr hw, State.unless_true] at hplan
    have hissues := exec_schedules (i := .tld t a o) hs.actor _ (congrArg (resolve s) hplan)
    rwa [tileLoadRows, if_neg Bool.false_ne_true, List.append_nil] at hissues
  · have hplan := planTileLoad_checked (sidecar := true) hs hgo ha
    have hscope : ¬ Config.spadBytes < off + (if true = true then 4352 else 4096) := Nat.not_lt.mpr hoff
    rw [if_neg hscope, if_neg (not_not.mpr hal), (tileOk_empty_iff s _).mpr hw, State.unless_true] at hplan
    exact exec_schedules (i := .tlds t a o) hs.actor _ (congrArg (resolve s) hplan)
  · obtain ⟨sidecar, he⟩ := exec_tileLoad s hi
    have hscope : ¬ Config.spadBytes < off + (if sidecar then 4352 else 4096) :=
      Nat.not_lt.mpr ((tileLoad_span sidecar off).2.trans hoff)
    rw [planTileLoad_checked hs hgo ha, if_neg hscope, if_pos hal] at he
    exact exec_traps _ hs.actor he
  · obtain ⟨sidecar, he⟩ := exec_tileLoad s hi
    have hscope : Config.spadBytes < off + (if sidecar then 4352 else 4096) := hoff.trans_le (tileLoad_span sidecar off).1
    rw [planTileLoad_checked hs hgo ha, if_pos hscope] at he
    exact exec_traps _ hs.actor he

/-! ## Tile stores (R167 to R169) -/

/-- Where row r of a tile store goes. -/
def storePlace (x : TileStore) (off r : Nat) : Nat := off + x.pitch * r + x.start
/-- The plan of a tile store whose whole span is checked against the scratchpad. -/
def storePlan (s : State) (x : TileStore) (span : Nat) : Plan :=
  planTileStore s x.t x.srcs x.addr span x.aligned x.legal (fun off => x.rows.map fun r => (r, storePlace x off r)) x.start x.n x.sidecar
/-- Every tile store plans what R167 and R168 give it; a span that is checked as a whole is that of its rows and sidecar. -/
theorem exec_of_tileStore {s : State} {i : Instr} {x : TileStore} (h : tileStore s i = some x) : ∃ span,
    exec i s = resolve s (storePlan s x span) ∧ ∀ off, off < Config.spadBytes →
      (∀ r ∈ x.rows, storePlace x off r + x.n ≤ Config.spadBytes) → (x.sidecar = true → off + 4352 ≤ Config.spadBytes) →
      off + span ≤ Config.spadBytes := by
  cases i with
  | tst t a o =>
    obtain rfl := Option.some.inj h
    refine ⟨4096, rfl, fun off _ hrows _ => ?_⟩
    have hlast := hrows 15 (List.mem_range.mpr (by decide))
    simp only [storePlace] at hlast
    omega
  | tsts t a o =>
    obtain rfl := Option.some.inj h
    exact ⟨4352, rfl, fun off _ _ hside => hside rfl⟩
  | tstm t a m =>
    obtain rfl := Option.some.inj h
    refine ⟨0, ?_, fun off hoff _ _ => hoff.le⟩
    have hk := (s.val m.toNat).isLt
    have hhigh : fld (s.val m.toNat).toNat 48 16 = (s.val m.toNat).toNat / 2 ^ 48 := Nat.mod_eq_of_lt (by omega)
    have hrow (r : Nat) : decide (fld (s.val m.toNat).toNat r 1 = 1) = (s.val m.toNat).toNat.testBit r :=
      Nat.testBit_eq_decide_div_mod_eq.symm
    refine congrArg (resolve s) ?_
    simp only [planTstm, storePlan, hhigh, hrow, apply_ite (List.map _), List.map_nil]
    rfl
  | _ => exact nomatch h

/-- What a tile store puts into the agenda: the reads of its rows and sidecar, and the bit of a tile that the copy path consumes. -/
def tileStoreRows (s : State) (x : TileStore) (off : Nat) : List (Key × Item) :=
  x.rows.map (fun r => ({ s.key (s.cyc + r * s.mul) 1 with phase := 3 },
      Item.tstRow s.cur x.t (storePlace x off r) r x.start x.n false (s.cyc + (6 + r) * s.mul))) ++
    (if x.sidecar then [({ s.key (s.cyc + 16 * s.mul) 1 with phase := 3 }, Item.tstRow s.cur x.t (off + 4096) 0 0 256 true (s.cyc + 22 * s.mul))]
      else []) ++
    (if s.cc.coupling x.t = 3 then [({ s.key (s.cyc + (if x.sidecar then 16 else 15) * s.mul) 1 with phase := 3 }, Item.full s.cur x.t false)]
      else [])

theorem map_puts_tileStoreRows (s : State) (x : TileStore) (off : Nat) : (tileStoreRows s x off).map s.puts =
    (x.rows.map fun r => (r, storePlace x off r)).map
        (fun p => s.afterPhase p.1 1 3 (.tstRow s.cur x.t p.2 p.1 x.start x.n false (s.cyc + (6 + p.1) * s.mul))) ++
      (if x.sidecar then [s.afterPhase 16 1 3 (.tstRow s.cur x.t (off + 4096) 0 0 256 true (s.cyc + 22 * s.mul))] else []) ++
      (if s.cc.coupling x.t = 3 then [s.afterPhase (if x.sidecar then 16 else 15) 1 3 (.full s.cur x.t false)] else []) := by
  simp only [tileStoreRows, List.map_append, List.map_map, apply_ite (List.map s.puts), List.map_cons, List.map_nil]
  rfl

section
variable {s : State} {x : TileStore} {span off : Nat} {far : Bool} {tg : Tag}

/-- Rows and a sidecar that lie in the scratchpad, where the core may write, pass the address checks (R167, R215, R220). -/
theorem tileStore_inScope (hspan : off + span ≤ Config.spadBytes)
    (hrows : ∀ r ∈ x.rows, storePlace x off r + x.n ≤ Config.spadBytes ∧ writeBarred s.cc s.cc.mode (storePlace x off r) x.n = false)
    (hside : x.sidecar = true → writeBarred s.cc s.cc.mode (off + 4096) 256 = false) :
    ¬ (Config.spadBytes < off + span ∨ ((x.rows.map fun r => (r, storePlace x off r)).any fun p =>
      decide (Config.spadBytes < p.2 + x.n ∨ writeBarred s.cc s.cc.mode p.2 x.n = true)) = true ∨
      x.sidecar = true ∧ writeBarred s.cc s.cc.mode (off + 4096) 256 = true) := by
  rintro (h | h | ⟨h, hbar⟩)
  · exact absurd hspan (Nat.not_le.mpr h)
  · rw [List.any_map, List.any_eq_true] at h
    obtain ⟨r, hr, h⟩ := h
    obtain ⟨hin, hfree⟩ := hrows r hr
    rcases of_decide_eq_true h with h | h
    · exact absurd hin (Nat.not_le.mpr h)
    · exact nomatch hfree.symm.trans h
  · exact nomatch (hside h).symm.trans hbar

variable (htag : s.cc.common (s.cc.ttag x.t :: x.srcs.map fun r => (s.cc.reg r).tag) = some tg) (hp : s.cc.present tg = true)
include htag hp

theorem storePlan_held (hc : s.actor = .control) (hfull : ¬ MayRead s x.t) (hseg : s.inSeg = false) : storePlan s x span = .hold [] := by
  refine State.holdFirst_held ?_ ((State.timed_control hc).trans hseg) _
  rw [← tileOk_full_iff, Bool.not_eq_true] at hfull
  simp only [hfull, htag, hp, Option.map_some, Option.getD_some, Bool.not_true, Bool.or_self]
theorem storePlan_illegal (hfull : MayRead s x.t) (hl : x.legal = false) : storePlan s x span = s.trap ILLEGAL := by
  have hok := (tileOk_full_iff s x.t).mpr hfull
  simp only [storePlan, planTileStore, hok, Bool.true_or, State.holdFirst_true, htag, hp, hl, Bool.not_true, Bool.not_false, Bool.false_eq_true,
    if_true, if_false]
/-- A tile store past its address checks: an error in what it stores raises UECC, and otherwise its rows are read and stored. -/
theorem storePlan_stores (hfull : MayRead s x.t) (hl : x.legal = true) (ha : decodeAddr s.rr s.vidx x.addr = .sp s.cur off far)
    (hsrcs : (x.srcs.any fun r => (s.cc.reg r).bad) = false) (hspan : off + span ≤ Config.spadBytes)
    (hrows : ∀ r ∈ x.rows, storePlace x off r + x.n ≤ Config.spadBytes ∧ writeBarred s.cc s.cc.mode (storePlace x off r) x.n = false)
    (hal : x.aligned = true → off % 64 = 0) (hside : x.sidecar = true → writeBarred s.cc s.cc.mode (off + 4096) 256 = false) :
    storePlan s x span =
      if (x.rows.any fun r => marked (s.cc.rowErr x.t r) x.start x.n) || (x.sidecar && s.cc.sideErr x.t ≠ 0) then s.trap UECC
      else .acts ((tileStoreRows s x off).map s.puts) := by
  have hok := (tileOk_full_iff s x.t).mpr hfull
  have hscope := tileStore_inScope hspan hrows hside
  have halign : ¬ (x.aligned = true ∧ off % 64 ≠ 0) := fun h => h.2 (hal h.1)
  rw [map_puts_tileStoreRows]
  simp only [storePlan, planTileStore, hok, Bool.true_or, State.holdFirst_true, htag, hp, hl, tileOffset_own ha, Bool.not_true,
    Bool.false_eq_true, if_false, hscope, halign, State.unless_true, hsrcs, false_or]
  simp only [List.any_map, Function.comp_def, Bool.or_eq_true, Bool.and_eq_true, decide_eq_true_eq]
end

/-- R167 to R169: each clause is one branch of a tile store's plan. -/
theorem tileStoresIssue : Claim.TileStoresIssue := by
  intro s i x tg off far hx hc htag hp hsrcs ha full errs place
  obtain ⟨span, he, hspan⟩ := exec_of_tileStore hx
  refine ⟨fun hfull hseg => ?_, fun hfull hl hrows hal hside => ?_, fun hfull hl => ?_⟩
  · exact exec_holds hc (he.trans (congrArg (resolve s) (storePlan_held htag hp hc hfull hseg)))
  · have hplan := storePlan_stores htag hp hfull hl ha hsrcs
      (hspan off (of_decodeAddr_sp ha).2 (fun r hr => (hrows r hr).1) fun h => (hside h).1) hrows hal fun h => (hside h).2
    refine ⟨fun herr => ?_, fun herr => ?_⟩
    · rw [if_pos herr] at hplan
      exact exec_traps _ hc (he.trans (congrArg (resolve s) hplan))
    · rw [if_neg (Bool.eq_false_iff.mp herr)] at hplan
      exact exec_schedules hc _ (he.trans (congrArg (resolve s) hplan))
  · exact exec_traps _ hc (he.trans (congrArg (resolve s) (storePlan_illegal htag hp hfull hl)))

/-- Settles O30: the loads, and the stores. -/
theorem tileWordsIssue : Obligations.TileWordsIssue := ⟨tileLoadsIssue, tileStoresIssue⟩

end Sys2Proof.Machine
end

section
/-! SUPPORT. The tag table: its words' plans, and what each action finds, changes and answers (R170, R171). -/

namespace Sys2Proof.Machine

open Sys2Proof.Claim hiding fits

/-! ## The words (R171) -/

/-- Every tag-table word plans what the table of R171 gives it. -/
theorem exec_of_tagTable {s : State} {i : Instr} {fn d : Nat} {srcs : List Nat} {key b : DWord} (h : tagTable s i = some (fn, d, srcs, key, b)) :
    exec i s = resolve s (planTag s fn d srcs key b) := by
  cases i with
  | tlook | tins | tevt | tagrd => cases h; rfl
  | _ => exact nomatch h
/-- R28, R171: a tag-table word puts its action into the agenda, or with its clock absent nothing. -/
theorem tagTableWordsIssue : Claim.TagTableWordsIssue := by
  intro s i fn d srcs key b tg hx
  have he := exec_of_tagTable hx
  refine ⟨fun hs => ?_, fun hc ht hp => ?_⟩
  · exact exec_schedules_one hs.actor _ (he.trans (congrArg (resolve s) (memIssue_goes hs (.inl rfl))))
  · exact exec_issues_nothing hc (he.trans (congrArg (resolve s) (memIssue_absent ht hp)))

/-! ## Updates of one core, and an entry of an agenda -/

/-- A core alone takes updates of itself. -/
theorem onlyCore_updates (s : State) (id : Nat) (l : List CAct) : OnlyCore s (s.applyAll (l.map (.core id))) id (l.foldl CAct.apply (s.core id)) := by
  have hl : (l.map (Act.core id)).all Act.isCore = true := List.all_eq_true.mpr fun a ha => by
    obtain ⟨c, -, rfl⟩ := List.mem_map.mp ha
    rfl
  obtain ⟨hrest, hcore⟩ := applyAll_cores (l.map (.core id)) s hl
  refine ⟨hrest, ?_, fun x hx => ?_⟩
  · rw [hcore, updatesOf_same]
  · rw [hcore, updatesOf_other (Ne.symm hx)]; rfl
/-- A core takes updates, and then an entry joins the agenda of a region. -/
theorem onlyCore_schedules {s m : State} {id : Nat} {c : Core} (h : OnlyCore s m id c) (ctx : Nat) (k : Key) (it : Item) :
    let t := Act.apply m (.reg ctx (.sched k it))
    t = { s with cores := t.cores, regions := t.regions } ∧ t.core id = c ∧ (∀ x, x ≠ id → t.core x = s.core x) ∧
      t.region ctx = { s.region ctx with agenda := agendaInsert k it (s.region ctx).agenda } := by
  obtain ⟨hrest, hcore, hothers⟩ := h
  have hregion : m.region ctx = s.region ctx := by rw [hrest]; rfl
  refine ⟨?_, (Act.reg_core ..).trans hcore, fun x hx => (Act.reg_core ..).trans (hothers x hx), ?_⟩
  · rw [hrest]; rfl
  · rw [Act.reg_region_same, RAct.apply_sched, hregion]

/-! ## What the table holds (R170) -/

/-- Entry i of the tag table. -/
def Core.tagEnt (c : Core) (i : Nat) : TagEnt := SMap.get {} c.tagTab i
/-- A valid entry i of the table has key k. -/
def HoldsKey (c : Core) (k : BitVec 48) (i : Nat) : Prop := i < 256 ∧ (c.tagEnt i).valid = true ∧ (c.tagEnt i).key = k

section
variable {c : Core} {k : BitVec 48} {n : Nat}

/-- The test by which findKey searches. -/
theorem keyTest_eq_false {i : Nat} (hi : i < 256) (h : ¬ HoldsKey c k i) : ((c.tagEnt i).valid && decide ((c.tagEnt i).key = k)) = false := by
  rw [← Bool.not_eq_true, Bool.and_eq_true, decide_eq_true_eq]
  exact fun ht => h ⟨hi, ht⟩
theorem findKey_eq_some (h : HoldsKey c k n) (hfirst : ∀ i, i < n → ¬ HoldsKey c k i) : findKey c k = some n := by
  obtain ⟨hn, hvalid, hkey⟩ := h
  have htest : ((c.tagEnt n).valid && decide ((c.tagEnt n).key = k)) = true := by rw [hvalid, decide_eq_true hkey]; rfl
  exact List.find?_range_eq_some.mpr ⟨htest, List.mem_range.mpr hn, fun i hi =>
    Bool.not_eq_true' _ ▸ keyTest_eq_false (hi.trans hn) (hfirst i hi)⟩
theorem findKey_eq_none (h : ∀ i, ¬ HoldsKey c k i) : findKey c k = none :=
  List.find?_range_eq_none.mpr fun i hi => Bool.not_eq_true' _ ▸ keyTest_eq_false hi (h i)
theorem findFree_eq_some (hn : n < 256) (h : (c.tagEnt n).valid = false) (hfirst : ∀ i, i < n → (c.tagEnt i).valid = true) :
    findFree c = some n :=
  List.find?_range_eq_some.mpr ⟨congrArg not h, List.mem_range.mpr hn, fun i hi => (Bool.not_not _).trans (hfirst i hi)⟩
theorem findFree_eq_none (h : ∀ i, i < 256 → (c.tagEnt i).valid = true) : findFree c = none :=
  List.find?_range_eq_none.mpr fun i hi => (Bool.not_not _).trans (h i hi)
/-- A write of one entry. -/
theorem tagEnt_write (c : Core) (n : Nat) (e : TagEnt) : (CAct.apply c (.tagEnt n e)).tagEnt n = e ∧
    ∀ i, i ≠ n → (CAct.apply c (.tagEnt n e)).tagEnt i = c.tagEnt i :=
  ⟨SMap.get_set_same _ _ _ _, fun _ hi => SMap.get_set_other _ _ hi _⟩
end

/-- TAGRD's layout read as a number: each field at its bit (R170). -/
theorem tagWord_toNat (e : TagEnt) : (tagWord e).toNat =
    (if e.valid then 2 ^ 63 else 0) + (if e.pend then 2 ^ 62 else 0) + e.slot.toNat * 2 ^ 48 + e.key.toNat := by
  have hvalid : (if e.valid then 2 ^ 63 else 0) = e.valid.toNat * 2 ^ 63 := by cases e.valid <;> rfl
  have hpend : (if e.pend then 2 ^ 62 else 0) = e.pend.toNat * 2 ^ 62 := by cases e.pend <;> rfl
  simp only [tagWord, toNat_append_eq_add, BitVec.toNat_ofBool, BitVec.toNat_zero, hvalid, hpend]
  omega

/-! ## The actions (R171) -/

section
variable {c : Core} {key b : DWord} {n : Nat}

/-- What an action does that finds nothing to change: it answers -1. -/
def missed : List CAct × DWord := ([], -1)

theorem tagAction_look_found (h : findKey c (key.setWidth 48) = some n) : tagAction c 5 key b =
    ([], if (c.tagEnt n).pend then -2 else (c.tagEnt n).slot.setWidth 64) := by
  simp only [tagAction, BitVec.ofNat_toNat, h]; rfl
theorem tagAction_insert_at (h : findKey c (key.setWidth 48) = some n ∨ findKey c (key.setWidth 48) = none ∧ findFree c = some n) :
    tagAction c 6 key b = ([.tagEnt n ⟨true, b.getLsbD 16, b.setWidth 10, key.setWidth 48⟩], BitVec.ofNat 64 n) := by
  rcases h with h | ⟨h, hf⟩
  · simp only [tagAction, BitVec.ofNat_toNat, h]
  · simp only [tagAction, BitVec.ofNat_toNat, h, hf]
theorem tagAction_evict_found (h : findKey c (key.setWidth 48) = some n) : tagAction c 7 key b =
    ([.tagEnt n {}], (c.tagEnt n).slot.setWidth 64) := by
  simp only [tagAction, BitVec.ofNat_toNat, h]; rfl
theorem tagAction_look_missed (h : findKey c (key.setWidth 48) = none) : tagAction c 5 key b = missed := by
  simp only [tagAction, BitVec.ofNat_toNat, h]; rfl
theorem tagAction_evict_missed (h : findKey c (key.setWidth 48) = none) : tagAction c 7 key b = missed := by
  simp only [tagAction, BitVec.ofNat_toNat, h]; rfl
theorem tagAction_insert_missed (h : findKey c (key.setWidth 48) = none) (hf : findFree c = none) : tagAction c 6 key b = missed := by
  simp only [tagAction, BitVec.ofNat_toNat, h, hf]; rfl

/-- An action changes nothing, or writes one entry. -/
theorem tagAction_updates (c : Core) (fn : Nat) (key b : DWord) : (tagAction c fn key b).1 = [] ∨ ∃ i e, (tagAction c fn key b).1 = [.tagEnt i e] := by
  unfold tagAction
  dsimp only
  split
  · split <;> exact .inl rfl
  · split
    · exact .inr ⟨_, _, rfl⟩
    · split
      · exact .inr ⟨_, _, rfl⟩
      · exact .inl rfl
  · split
    · exact .inr ⟨_, _, rfl⟩
    · exact .inl rfl
  · exact .inl rfl
theorem tagAction_only_table (c : Core) (fn : Nat) (key b : DWord) : (tagAction c fn key b).1.foldl CAct.apply c =
    { c with tagTab := ((tagAction c fn key b).1.foldl CAct.apply c).tagTab } := by
  rcases tagAction_updates c fn key b with h | ⟨i, e, h⟩ <;> rw [h] <;> rfl
end

/-- As its action falls due, a tag-table word updates its core and puts its result into the agenda. -/
theorem applyAll_tagAct (s : State) (at_ : Key) (id fn d land : Nat) (key b : DWord) (tg : Tag) :
    let t := s.applyAll ((Item.tagAct id fn d key b tg land).run at_ s)
    t.core id = (tagAction (s.core id) fn key b).1.foldl CAct.apply (s.core id) ∧ (∀ x, x ≠ id → t.core x = s.core x) ∧ t.mem = s.mem ∧
      (t.region (id / 2048)).agenda = agendaInsert { at_ with due := land, phase := 0 }
        (.land id [.reg d (tagAction (s.core id) fn key b).2 tg false]) (s.region (id / 2048)).agenda := by
  have hrun : (Item.tagAct id fn d key b tg land).run at_ s = (tagAction (s.core id) fn key b).1.map (.core id) ++
    [.reg (id / 2048) (.sched (at_.at_ land) (.land id [.reg d (tagAction (s.core id) fn key b).2 tg false]))] := rfl
  rw [hrun, State.applyAll_append]
  obtain ⟨hrest, hcore, hothers, hregion⟩ := onlyCore_schedules
    (onlyCore_updates s id (tagAction (s.core id) fn key b).1) (id / 2048) (at_.at_ land) (.land id [.reg d (tagAction (s.core id) fn key b).2 tg false])
  exact ⟨hcore, hothers, by rw [State.applyAll_cons, State.applyAll_nil, hrest], congrArg Region.agenda hregion⟩

/-- R170, R171: what is found, what changes and what is answered, action by action. -/
theorem tagTableActs : Claim.TagTableActs := by
  intro c key b n hn k ent holds after res
  have hwrite (e : TagEnt) := tagEnt_write c n e
  refine ⟨fun h hfirst => ?_, fun h => ?_, rfl, tagWord_toNat _, fun fn => tagAction_only_table c fn key b, ?_⟩
  · have hfind : findKey c k = some n := findKey_eq_some h hfirst
    have hlook := tagAction_look_found (b := b) hfind
    have hinsert := tagAction_insert_at (b := b) (.inl hfind)
    have hevict := tagAction_evict_found (b := b) hfind
    refine ⟨congrArg Prod.snd hlook, ?_, congrArg Prod.snd hinsert, ?_, ?_, congrArg Prod.snd hevict, ?_, ?_⟩
    · simp only [after, hlook, List.foldl_nil]
    · simp only [after, hinsert]; exact (hwrite _).1
    · simp only [after, hinsert]; exact (hwrite _).2
    · simp only [after, hevict]; exact (hwrite _).1
    · simp only [after, hevict]; exact (hwrite _).2
  · have hfind : findKey c k = none := findKey_eq_none h
    have hlook := tagAction_look_missed (b := b) hfind
    have hevict := tagAction_evict_missed (b := b) hfind
    refine ⟨congrArg Prod.snd hlook, ?_, congrArg Prod.snd hevict, ?_, fun hfree hlow => ?_, fun hfull => ?_⟩
    · simp only [after, hlook, missed, List.foldl_nil]
    · simp only [after, hevict, missed, List.foldl_nil]
    · have hinsert := tagAction_insert_at (b := b) (.inr ⟨hfind, findFree_eq_some hn hfree hlow⟩)
      refine ⟨congrArg Prod.snd hinsert, ?_, ?_⟩
      · simp only [after, hinsert]; exact (hwrite _).1
      · simp only [after, hinsert]; exact (hwrite _).2
    · have hinsert := tagAction_insert_missed (b := b) hfind (findFree_eq_none hfull)
      refine ⟨congrArg Prod.snd hinsert, ?_⟩
      simp only [after, hinsert, missed, List.foldl_nil]
  · intro s at_ id fn d land tg hcore
    subst hcore
    exact applyAll_tagAct s at_ id fn d land key b tg

/-- Settles O31: the words' issue, and what their actions do as they fall due. -/
theorem tagTableWords : Obligations.TagTableWords := ⟨tagTableWordsIssue, tagTableActs⟩

end Sys2Proof.Machine
end

section
/-! SUPPORT. Tokens, drains and stage barriers: the plan of each word, and how the credits of one cycle apply (R182, R184, R196, R197). -/

namespace Sys2Proof.Machine

open Sys2Proof.Claim hiding fits

section
variable {s : State}

/-! ## Tokens and drains (R182, R184) -/

theorem planWaitt_taken (hseg : s.inSeg = false) {x : BitVec 5} (h : SMap.get 0 s.cc.tokens x.toNat ≠ 0) (l : BitVec 5) :
    planWaitt l x s = .acts ([.tokenSub x.toNat].map s.upd) := by
  rw [planWaitt, State.notTimed_ok hseg, if_pos h]; rfl
theorem planWaitt_waits (hseg : s.inSeg = false) {x : BitVec 5} (h : SMap.get 0 s.cc.tokens x.toNat = 0) (l : BitVec 5) :
    planWaitt l x s = .acts ([waitNow s (.waitt x.toNat) (some l.toNat)].map s.upd) := by
  rw [planWaitt, State.notTimed_ok hseg, if_neg (not_not.mpr h)]
  exact startWait_waits s _ _ []

/-- The engines that a field names, as R177 numbers them. -/
theorem engines_toNat (g : BitVec 2) : engines g.toNat = namedEngines g := by
  have h : g.toNat = 3 ↔ g = 3 := ⟨fun h => BitVec.eq_of_toNat_eq h, fun h => h ▸ rfl⟩
  simp only [engines, namedEngines, h]
theorem planQdrn_eq (hseg : s.inSeg = false) (g : BitVec 2) (l : BitVec 5) : planQdrn g l s =
    startWait s ((namedEngines g).all (Claim.drained s.cc)) (.qdrn g.toNat) (some l.toNat) [] := by
  rw [planQdrn, State.notTimed_ok hseg, engines_toNat]; rfl

/-! ## Stage barriers (R196, R197) -/

theorem planSbini_ok {a : BitVec 6} {tg : Tag} (hs : Sources s [a.toNat] tg) (x : BitVec 4) : planSbini a x s =
    .acts [s.puts (s.key (s.cyc + 1 * s.mul) 0, .sbInit s.cur x.toNat ((s.val a.toNat).toNat % 4294967296))] := by
  refine (memIssue_goes hs (.inl rfl)).trans ?_
  rw [fld_zero]; rfl
theorem planSbarr_ok {a : BitVec 6} {tg : Tag} (hs : Sources s [a.toNat] tg) (x : BitVec 4) : planSbarr a x s =
    .acts [s.puts ({ s.key (s.cyc + 1 * s.mul) 0 with phase := 2 },
      .credit s.cur x.toNat ((s.val a.toNat).toNat % 4294967296) s.cur 3 0 s.inSeg)] := by
  refine (memIssue_goes hs (.inl rfl)).trans ?_
  rw [fld_zero, State.timed_control hs.actor]; rfl
theorem planSbwt_met {x : BitVec 4} {p : BitVec 1} (h : (SMap.get {} s.cc.bars x.toNat).phase = decide (p = 1)) (l : BitVec 5) :
    planSbwt x l p s = .acts [] := by
  have hmet : ((SMap.get {} s.cc.bars x.toNat).phase == decide (p = 1)) = true := beq_iff_eq.mpr h
  simp only [planSbwt, hmet, if_true, startWait_met, ite_self]
theorem planSbwt_unmet {x : BitVec 4} {p : BitVec 1} (h : (SMap.get {} s.cc.bars x.toNat).phase ≠ decide (p = 1)) (l : BitVec 5) :
    planSbwt x l p s = if s.inSeg then s.sched 9 x.toNat
      else .acts ([waitNow s (.sbwt x.toNat (p = 1)) (some l.toNat)].map s.upd) := by
  have hmet : ((SMap.get {} s.cc.bars x.toNat).phase == decide (p = 1)) = false := beq_eq_false_iff_ne.mpr h
  simp only [planSbwt, hmet, Bool.false_eq_true, if_false]
  rfl
end

/-- R155, R182, R184, R196, R197: each clause is one branch of its word's plan. -/
theorem tokensAndBarriersIssue : Claim.TokensAndBarriers := by
  intro s hc
  refine ⟨fun x => ?_, fun l x hseg h => ?_, fun l x hseg h => ?_, fun g l hseg h => ?_, fun g l hseg h => ?_, fun a x tg hs => ?_,
    fun a x tg hs => ?_, fun x l p h => ?_, fun x l p h hseg => ?_, fun x l p h hseg => ?_⟩
  · rw [← State.timed_control hc]
    exact exec_schedules_one hc _ rfl
  · exact exec_updates (i := .waitt l x) hc _ (congrArg (resolve s) (planWaitt_taken hseg h l))
  · exact exec_updates (i := .waitt l x) hc _ (congrArg (resolve s) (planWaitt_waits hseg h l))
  · have hall : (namedEngines g).all (Claim.drained s.cc) = true := List.all_eq_true.mpr h
    have hplan := planQdrn_eq hseg g l
    rw [hall] at hplan
    exact exec_issues_nothing hc (congrArg (resolve s) hplan)
  · have hall : (namedEngines g).all (Claim.drained s.cc) = false := by
      obtain ⟨e, he, hbusy⟩ := h
      exact List.all_eq_false.mpr ⟨e, he, by rw [hbusy]; exact Bool.false_ne_true⟩
    have hplan := planQdrn_eq hseg g l
    rw [hall] at hplan
    exact exec_updates (i := .qdrn g l) hc _ (congrArg (resolve s) (hplan.trans (startWait_waits s _ _ [])))
  · exact exec_schedules_one hc _ (congrArg (resolve s) (planSbini_ok hs x))
  · exact exec_schedules_one hc _ (congrArg (resolve s) (planSbarr_ok hs x))
  · exact exec_issues_nothing hc (congrArg (resolve s) (planSbwt_met h l))
  · have hplan := planSbwt_unmet h l
    rw [hseg, if_neg Bool.false_ne_true] at hplan
    exact exec_updates (i := .sbwt x l p) hc _ (congrArg (resolve s) hplan)
  · have hplan := planSbwt_unmet h l
    rw [hseg, if_pos rfl] at hplan
    exact exec_traps _ hc (congrArg (resolve s) hplan)

/-! ## Credits (R196) -/

section
variable {b : StageBar} {l : List Nat}

/-- Credits that reach what is expected turn the phase. -/
theorem creditAll_reached (hpos : 0 < l.sum) (h : b.delivered.toNat + l.sum = b.expected.toNat) :
    creditAll b l = .inl { b with phase := !b.phase, delivered := 0 } := by
  simp only [creditAll, hpos.ne', h, Nat.lt_irrefl, if_false, if_true]
/-- Credits that do not reach it are added. -/
theorem creditAll_short (h : b.delivered.toNat + l.sum < b.expected.toNat) : ∃ b', creditAll b l = .inl b' ∧
    b'.delivered.toNat = b.delivered.toNat + l.sum ∧ b'.expected = b.expected ∧ b'.phase = b.phase := by
  by_cases hz : l.sum = 0
  · refine ⟨b, ?_, ?_, rfl, rfl⟩
    · simp only [creditAll, hz, if_true]
    · rw [hz, Nat.add_zero]
  · refine ⟨{ b with delivered := b.delivered + BitVec.ofNat 32 l.sum }, ?_, ?_, rfl, rfl⟩
    · simp only [creditAll, hz, h.le.not_gt, h.ne, if_false]
    · have hbound := b.expected.isLt
      simp only [BitVec.toNat_add, BitVec.toNat_ofNat]
      omega
/-- Credits that pass it are dropped, and the first that does so is named. -/
theorem creditAll_passed (hle : b.delivered ≤ b.expected) (h : b.expected.toNat < b.delivered.toNat + l.sum) :
    ∃ i, creditAll b l = .inr i ∧ i < l.length ∧ b.expected.toNat < b.delivered.toNat + (l.take (i + 1)).sum ∧
      b.delivered.toNat + (l.take i).sum ≤ b.expected.toNat := by
  have hle : b.delivered.toNat ≤ b.expected.toNat := hle
  have hz : l.sum ≠ 0 := by omega
  have hpass : creditAll b l =
      .inr (((List.range l.length).find? fun i => decide (b.expected.toNat < b.delivered.toNat + (l.take (i + 1)).sum)).getD 0) := by
    simp only [creditAll, hz, h, if_false, if_true]
  have hall : b.expected.toNat < b.delivered.toNat + (l.take l.length).sum := by rw [List.take_length]; exact h
  cases hfind : (List.range l.length).find? fun i => decide (b.expected.toNat < b.delivered.toNat + (l.take (i + 1)).sum) with
  | none =>
    have hlen : l.length - 1 + 1 = l.length := Nat.sub_add_cancel (List.length_pos_iff.mpr fun hl => hz (hl ▸ rfl))
    have hlast := List.find?_range_eq_none.mp hfind (l.length - 1) (hlen ▸ Nat.lt_succ_self _)
    rw [hlen, decide_eq_true hall] at hlast
    exact nomatch hlast
  | some i =>
    obtain ⟨htest, hi, hfirst⟩ := List.find?_range_eq_some.mp hfind
    refine ⟨i, by rw [hpass, hfind]; rfl, List.mem_range.mp hi, of_decide_eq_true htest, ?_⟩
    cases i with
    | zero => exact hle
    | succ i => simpa using hfirst i (Nat.lt_succ_self i)
end

/-- R196: the three ways that the credits of one cycle end. -/
theorem creditsApplyTogether : Claim.CreditsApplyTogether := fun _ _ _ =>
  ⟨creditAll_reached, creditAll_short, fun _ => creditAll_passed⟩

/-- Settles O37: the words, and the credits. -/
theorem tokensAndBarriers : Obligations.TokensAndBarriers := ⟨tokensAndBarriersIssue, creditsApplyTogether⟩

end Sys2Proof.Machine
end

section
/-! SUPPORT. Timed accesses as they perform: the bytes that a scratchpad write changes, the value that a load samples, and the result of a
64-bit atomic (R148, R150, R151, R157, R207). -/

namespace Sys2Proof.Machine

open Sys2Proof.Claim hiding fits

/-! ## Scratchpad writes (R151, R207) -/

/-- What a scratchpad write does to its core where no line is captured. -/
def spadUpdates (off : Nat) (l : List Byte) : List CAct :=
  if l = [] then []
  else .spad off l :: ((dwordsOf off l.length).filter fun w => off ≤ w * 8 ∧ w * 8 + 8 ≤ off + l.length).map fun w => .spadBad (w * 8) 8 false

/-- Without undo records no line is captured (R207). -/
theorem captureLine_eq_nil {s : State} {id : Nat} (h : (s.core id).undo = []) (line : Nat) : captureLine s id line = [] := by
  have hnone : (s.core id).levelsToCapture line = [] := by simp only [Core.levelsToCapture, h, List.any_nil, Bool.false_and, List.filter_false]
  rw [captureLine, hnone]; rfl
theorem spWrite_eq {s : State} {id : Nat} (h : (s.core id).undo = []) (off : Nat) (l : List Byte) :
    spWrite s id off l false = (spadUpdates off l).map (.core id) := by
  have hcaps : ∀ lines, spWrite.caps id s lines = [] := by
    intro lines
    induction lines with
    | nil => rfl
    | cons x lines ih => rw [spWrite.caps, captureLine_eq_nil h]; exact ih
  unfold spWrite spadUpdates
  split
  · rfl
  · simp only [hcaps, List.nil_append, Bool.false_eq_true, if_false, List.map_cons, List.map_map]
    rfl

theorem foldl_spadBad (ws : List Nat) : ∀ c : Core, ∃ m, (ws.map fun w => CAct.spadBad (w * 8) 8 false).foldl CAct.apply c =
    { c with spadBad := m } := by
  induction ws with
  | nil => exact fun c => ⟨c.spadBad, rfl⟩
  | cons w ws ih => exact fun c => ih _
/-- Only the bytes written and the error marks of their words change. -/
theorem foldl_spadUpdates (off : Nat) (l : List Byte) (c : Core) : ∃ m, (spadUpdates off l).foldl CAct.apply c =
    { c with spad := SMap.setAll 0 c.spad (indexed off l), spadBad := m } := by
  unfold spadUpdates
  split
  · next hl => subst hl; exact ⟨c.spadBad, rfl⟩
  · exact foldl_spadBad _ _

theorem indexed_key {off : Nat} {l : List Byte} : ∀ {p : Nat × Byte}, p ∈ indexed off l → off ≤ p.1 := by
  induction l generalizing off with
  | nil => exact fun h => nomatch h
  | cons b l ih =>
    intro p hp
    rcases List.mem_cons.mp hp with rfl | hp
    · exact le_refl _
    · exact (Nat.le_succ off).trans (ih hp)
/-- A run of bytes written: each reads back, and every other byte is as before. -/
theorem get_setAll_indexed (l : List Byte) : ∀ (m : SMap Byte) (off : Nat),
    (∀ i, i < l.length → SMap.get 0 (SMap.setAll 0 m (indexed off l)) (off + i) = l.getD i 0) ∧
      ∀ x, x < off ∨ off + l.length ≤ x → SMap.get 0 (SMap.setAll 0 m (indexed off l)) x = SMap.get 0 m x := by
  induction l with
  | nil => exact fun m off => ⟨fun i hi => absurd hi (Nat.not_lt_zero i), fun _ _ => rfl⟩
  | cons b l ih =>
    intro m off
    obtain ⟨hin, hout⟩ := ih (SMap.set 0 m off b) (off + 1)
    refine ⟨fun i hi => ?_, fun x hx => ?_⟩
    · cases i with
      | zero => exact (hout off (.inl (Nat.lt_succ_self off))).trans (SMap.get_set_same _ _ _ _)
      | succ i =>
        have hrest := hin i (Nat.lt_of_succ_lt_succ hi)
        rw [show off + 1 + i = off + (i + 1) by omega] at hrest
        exact hrest
    · rw [List.length_cons] at hx
      exact (hout x (by omega)).trans (SMap.get_set_other _ _ (by omega) _)

/-- A state whose target core took a scratchpad write holds its bytes in place. -/
theorem storedAt_of_core {s t : State} {target off : Nat} {bytes : List Byte}
    (hcore : t.core target = (spadUpdates off bytes).foldl CAct.apply (s.core target)) (hothers : ∀ x, x ≠ target → t.core x = s.core x) :
    storedAt s t target off bytes := by
  obtain ⟨m, hm⟩ := foldl_spadUpdates off bytes (s.core target)
  rw [hm] at hcore
  obtain ⟨hin, hout⟩ := get_setAll_indexed bytes (s.core target).spad off
  refine ⟨fun i hi => ?_, fun id x hx => ?_⟩
  · rw [State.spadByte, hcore]; exact hin i hi
  · by_cases hid : id = target
    · subst hid
      rw [State.spadByte, hcore]
      exact hout x (hx.resolve_left (not_not.mpr rfl))
    · rw [State.spadByte, hothers id hid]; rfl
theorem regs_of_core {s t : State} {target off : Nat} {bytes : List Byte}
    (hcore : t.core target = (spadUpdates off bytes).foldl CAct.apply (s.core target)) : (t.core target).regs = (s.core target).regs := by
  obtain ⟨m, hm⟩ := foldl_spadUpdates off bytes (s.core target)
  rw [hcore, hm]

/-! ## Values (R148, R157) -/

/-- n bytes of the scratchpad, little-endian. -/
theorem spNat_eq (c : Core) (n : Nat) : ∀ off, c.spNat off n =
    (List.range n).foldr (fun i m => (SMap.get 0 c.spad (off + i)).toNat + 256 * m) 0 := by
  induction n with
  | zero => exact fun _ => rfl
  | succ n ih =>
    intro off
    rw [List.range_succ_eq_map, List.foldr_cons, List.foldr_map, Core.spNat, ih (off + 1)]
    simp only [Nat.add_zero, Nat.succ_eq_add_one, Nat.add_right_comm _ 1, ← Nat.add_assoc]
theorem spNat_lt (c : Core) (n : Nat) : ∀ off, c.spNat off n < 256 ^ n := by
  induction n with
  | zero => exact fun _ => Nat.one_pos
  | succ n ih =>
    intro off
    have hbyte := (SMap.get (0 : Byte) c.spad off).isLt
    have hrest := ih (off + 1)
    rw [Core.spNat, pow_succ]
    omega
theorem bytesOf_eq (n : Nat) : ∀ v, bytesOf v n = (List.range n).map fun i => BitVec.ofNat 8 (v / 256 ^ i) := by
  induction n with
  | zero => exact fun _ => rfl
  | succ n ih =>
    intro v
    rw [List.range_succ_eq_map, List.map_cons, List.map_map, bytesOf, ih]
    simp only [Function.comp_def, Nat.succ_eq_add_one, pow_zero, Nat.div_one, pow_succ', Nat.div_div_eq_div_mul]

/-- A signed load of size bytes extends their sign: shifted to the top and back (R148). -/
theorem loadValue_signed {size m : Nat} (hpos : 0 < size) (hsize : size ≤ 8) (hm : m < 256 ^ size) : loadValue true size m =
    (BitVec.ofNat 64 m <<< (64 - 8 * size)).sshiftRight (64 - 8 * size) := by
  have hm : m < 2 ^ (8 * size) := by rwa [Nat.pow_mul]
  have hextend : loadValue true size m = (BitVec.ofNat (8 * size) m).signExtend 64 := by
    have hvalue := toSigned_toNat (by omega) (BitVec.ofNat (8 * size) m)
    rw [BitVec.toNat_ofNat, Nat.mod_eq_of_lt hm] at hvalue
    simp only [loadValue, if_true, hvalue, BitVec.signExtend]
  rw [hextend]
  apply BitVec.eq_of_getLsbD_eq
  intro i hi
  have htop : 63 - (64 - 8 * size) = 8 * size - 1 := by omega
  simp only [BitVec.getLsbD_signExtend, BitVec.getLsbD_sshiftRight, BitVec.msb_eq_getLsbD_last, BitVec.getLsbD_shiftLeft, BitVec.getLsbD_ofNat,
    Nat.add_sub_cancel_left]
  by_cases hlow : i < 8 * size
  · simp [hlow, hi, show 64 - 8 * size + i < 64 by omega, show ¬ 64 ≤ i by omega]
  · simp [hlow, hi, htop, show ¬ 64 - 8 * size + i < 64 by omega, show ¬ 64 ≤ i by omega, show 8 * size - 1 < 8 * size by omega,
      show ¬ 63 < 64 - 8 * size by omega, show 8 * size - 1 < 64 by omega]

/-- The new value of a 64-bit atomic is the one that the table of R157 gives. -/
theorem amo64_eq (n : Nat) (m b cmp : DWord) : amo64 n m b cmp = atomicNew n m b cmp := by
  match n with
  | 4 => exact ite_slt_eq_ite_le fun h => h
  | 5 => exact ite_slt_eq_ite_le fun h => h.symm
  | 6 => exact ite_ult_eq_ite_le fun h => h
  | 7 => exact ite_ult_eq_ite_le fun h => h.symm
  | 0 | 1 | 2 | 3 | 8 => rfl
  | n + 9 => rfl
theorem amoApply_word {n : Nat} (hn : n < 10) (m : Nat) (b cmp : DWord) :
    amoApply n m b cmp = ((atomicNew n (BitVec.ofNat 64 m) b cmp).toNat, BitVec.ofNat 64 m, 0) := by
  rw [← amo64_eq]
  unfold amoApply
  split <;> first | omega | rfl

/-! ## Samples (R150, R157) -/

section
variable {s : State} {k : Key} {id target off addr size d land : Nat} {signed timed : Bool} {tag : Tag} {b cmp : DWord}

/-- A load that meets no error samples its bytes and puts its landing into the agenda. -/
theorem sampleActs_load (herr : (s.core target).spErr off size = false) (hinj : ((s.core id).csr 0x070).toNat % 256 ≠ 0x10) :
    sampleActs s k id target off addr size signed d tag 0 b cmp land timed = [.reg (id / 2048) (.sched (k.at_ land)
      (.land id [.reg d (loadValue signed size ((s.core target).spNat off size)) tag false]))] := by
  have hno : injected (s.core id) 0 = false := by simp only [injected, decide_eq_false hinj, Bool.and_false]
  simp only [sampleActs, hno, herr]
  rfl
/-- A 64-bit atomic that meets no error and no line to capture writes its new value and puts the landing of the old one into the agenda. -/
theorem sampleActs_atomic {n : Nat} (hn : n < 10) (hundo : (s.core target).undo = []) (herr : (s.core target).spErr off 8 = false)
    (hinj : ((s.core id).csr 0x070).toNat % 256 ≠ 0x10) :
    sampleActs s k id target off addr 8 signed d tag (n + 1) b cmp land timed =
      (spadUpdates off (bytesOf (atomicNew n (BitVec.ofNat 64 ((s.core target).spNat off 8)) b cmp).toNat 8)).map (.core target) ++
        [.reg (id / 2048) (.sched (k.at_ land) (.land id [.reg d (BitVec.ofNat 64 ((s.core target).spNat off 8)) tag false]))] := by
  have hno : injected (s.core id) (n + 1) = false := by simp only [injected, decide_eq_false hinj, Bool.and_false]
  have hword : noResult (n + 1) = false := by
    simp only [noResult, Bool.or_eq_false_iff, decide_eq_false_iff_not]
    omega
  have hload : n + 1 ≠ 0 := by omega
  have hread : n + 1 ≠ 13 := by omega
  have hsaved : n + 1 ≠ 15 := by omega
  simp only [sampleActs, hno, hword, hload, hread, hsaved, herr, spWrite_eq hundo, amoApply_word hn, Nat.add_sub_cancel, or_self, if_false,
    Bool.false_and, Bool.or_self, Bool.false_eq_true, clearInjection, List.append_nil]
  rfl
end

/-- Settles O47: a load's sample, an atomic's, and a store's bytes in place. -/
theorem timedAccessesPerform : Obligations.TimedAccessesPerform := by
  intro s k id target off addr size d land signed timed tag b cmp
  refine ⟨fun c hc herr hinj hpos hsize => ?_, fun n hn hundo herr hinj => ?_, fun bytes hundo => ?_⟩
  · subst hc
    intro raw t
    have hraw : raw = BitVec.ofNat 64 ((s.core target).spNat off size) := congrArg (BitVec.ofNat 64) (spNat_eq _ _ _).symm
    have hvalue : (if signed then (raw <<< (64 - 8 * size)).sshiftRight (64 - 8 * size) else raw) =
        loadValue signed size ((s.core target).spNat off size) := by
      rw [hraw]
      cases signed with
      | true => exact (loadValue_signed hpos hsize (spNat_lt _ _ _)).symm
      | false => rfl
    have ht : t = Act.apply s (.reg (id / 2048) (.sched (k.at_ land)
        (.land id [.reg d (loadValue signed size ((s.core target).spNat off size)) tag false]))) :=
      congrArg s.applyAll (sampleActs_load herr hinj)
    rw [hvalue]
    refine ⟨by rw [ht]; rfl, ?_⟩
    rw [ht, Act.reg_region_same]; rfl
  · intro old t
    have hold : old = BitVec.ofNat 64 ((s.core target).spNat off 8) := congrArg (BitVec.ofNat 64) (spNat_eq _ _ _).symm
    have ht : t = _ := congrArg s.applyAll (sampleActs_atomic hn hundo herr hinj)
    rw [State.applyAll_append, ← hold] at ht
    obtain ⟨hrest, hcore, hothers, hregion⟩ := onlyCore_schedules (onlyCore_updates s target
      (spadUpdates off (bytesOf (atomicNew n old b cmp).toNat 8))) (id / 2048) (k.at_ land) (.land id [.reg d old tag false])
    rw [← bytesOf_eq, ht]
    refine ⟨hrest, storedAt_of_core hcore hothers, fun x => ?_, hregion⟩
    by_cases hx : x = target
    · subst hx; exact regs_of_core hcore
    · exact congrArg Core.regs (hothers x hx)
  · intro t
    have ht : t = _ := congrArg s.applyAll (spWrite_eq hundo off bytes)
    obtain ⟨hrest, hcore, hothers⟩ := onlyCore_updates s target (spadUpdates off bytes)
    rw [ht]
    exact ⟨hrest, storedAt_of_core hcore hothers, regs_of_core hcore, hothers⟩

end Sys2Proof.Machine
end

section
/-! SUPPORT. Untimed results land, and translations arrive and leave: walks that complete, and the invalidation of a page (R152, R235, R236,
R239, R305, R321). -/

namespace Sys2Proof.Machine

open Sys2Proof.Claim hiding fits

/-! ## Untimed results (R152, R305, R321) -/

/-- The fault of a poisoned result of the acting core (R321). -/
def poisonFault (s : State) (u : Untimed) : FaultInfo := { code := UECC, core := s.cur, timed := false, faddr := u.va }

section
variable {s : State} {u : Untimed} {more : List Untimed}

theorem evUntimedResultLand_clean (hu : s.cc.untimed = u :: more) {v : DWord} (hv : u.served = some (v, false, 0)) :
    evUntimedResultLand s = [CAct.untimedSet more, .reg u.d v u.tag false].map s.upd := by
  simp only [evUntimedResultLand, hu, hv]; rfl
theorem evUntimedResultLand_poisoned (hu : s.cc.untimed = u :: more) {v : DWord} {fl : Nat} (hv : u.served = some (v, true, fl)) :
    evUntimedResultLand s = s.upd (.untimedSet more) :: .reg s.ctx (.raise (poisonFault s u)) ::
      (if s.rr.closed then [CAct.reg u.d v u.tag true] else []).map s.upd := by
  simp only [evUntimedResultLand, hu, hv, if_true, ueccActs, apply_ite (List.map s.upd)]; rfl
theorem evUntimedResultLand_unserved (hu : s.cc.untimed = u :: more) (hv : u.served = none) :
    evUntimedResultLand s = [.pkg (.later (s.now + 1) (.result s.cur))] := by
  simp only [evUntimedResultLand, hu, hv]
end

/-- R152, R305, R321: the three ways in which the oldest access answers. -/
theorem untimedResultsLand : Claim.UntimedResultsLand := by
  intro s u more hu
  refine ⟨fun v hv => ?_, fun v fl hv => ?_, fun hv => ?_⟩
  · obtain ⟨hrest, hcore, hothers⟩ := onlyCore_upds s [.untimedSet more, .reg u.d v u.tag false]
    rw [← evUntimedResultLand_clean hu hv] at hrest hcore hothers
    refine ⟨_, rfl, hrest, hcore.trans ?_, hothers⟩
    simp only [List.foldl_cons, List.foldl_nil, CAct.apply_untimedSet, CAct.apply_reg]
    split <;> rfl
  · obtain ⟨m, hm⟩ : ∃ m, m = Act.apply s (s.upd (.untimedSet more)) := ⟨_, rfl⟩
    have hcc : m.cc = { s.cc with untimed := more } := by rw [hm]; exact Act.core_core_same s s.cur _
    have hraise : RAct.apply m m.rr (.raise (poisonFault s u)) = RAct.apply s s.rr (.raise (poisonFault s u)) := by
      have hcore : m.core (poisonFault s u).core = { s.cc with untimed := more } := hm ▸ hcc
      simp only [RAct.apply_raise, hcore]
      rw [hm]; rfl
    obtain ⟨hcore, -, hregion, -⟩ := applyAll_reg_upds m (.raise (poisonFault s u)) (if s.rr.closed then [.reg u.d v u.tag true] else [])
    refine ⟨s.applyAll (evUntimedResultLand s), poisonFault s u, rfl, ?_, rfl, rfl, rfl, ?_⟩
    · rw [evUntimedResultLand_poisoned hu hv, State.applyAll_cons, ← hm]
      refine Eq.trans (b := _) ?_ (hcore.trans ?_)
      · rw [hm]; rfl
      · rw [hcc]
        cases s.rr.closed <;> by_cases hd : u.d = 0 <;> simp [hd]
    · rw [evUntimedResultLand_poisoned hu hv, State.applyAll_cons, ← hm, ← hraise, ← hregion, hm]; rfl
  · refine ⟨s.applyAll (evUntimedResultLand s), rfl, ?_⟩
    rw [evUntimedResultLand_unserved hu hv]
    exact ⟨rfl, rfl, rfl, rfl⟩

/-! ## Walks (R236) -/

/-- An update of the package that only puts something into its agenda or uses free values. -/
def Act.isPending : Act → Bool
  | .pkg (.later _ _) => true
  | .pkg (.takeFree _) => true
  | _ => false
theorem applyAll_pending (l : List Act) : ∀ m : State, l.all Act.isPending = true →
    m.applyAll l = { m with agenda := (m.applyAll l).agenda, freeCtr := (m.applyAll l).freeCtr } := by
  induction l with
  | nil => exact fun _ _ => rfl
  | cons a l ih =>
    intro m h
    rw [List.all_cons, Bool.and_eq_true] at h
    refine (ih (Act.apply m a) h.2).trans ?_
    cases a with
    | pkg g => cases g with
      | later | takeFree => rfl
      | _ => exact nomatch h.1
    | _ => exact nomatch h.1

/-- The walks of a list as all that can start do (R236). -/
def startedWalks (l : List Walk) : List Walk :=
  (l.zip (List.range l.length)).map fun p => if (startable l).contains p.2 then { p.1 with started := true } else p.1
/-- A walk that is under way stays as it is. -/
theorem started_again {x : Walk} (hx : x.started = true) (p : Prop) [Decidable p] : (if p then { x with started := true } else x) = x := by
  rw [← hx, ite_self]
theorem mem_startedWalks {l : List Walk} {x : Walk} (hx : x ∈ l) (hs : x.started = true) : x ∈ startedWalks l := by
  obtain ⟨i, hi, rfl⟩ := List.getElem_of_mem hx
  refine List.mem_map.mpr ⟨(l[i], i), List.mem_iff_getElem.mpr ⟨i, ?_, ?_⟩, started_again hs _⟩
  · rw [List.length_zip, List.length_range, Nat.min_self]; exact hi
  · rw [List.getElem_zip, List.getElem_range]
theorem startedWalks_of_all {l : List Walk} (h : ∀ x ∈ l, x.started = true) : startedWalks l = l := by
  have hsame : startedWalks l = (l.zip (List.range l.length)).map Prod.fst :=
    List.map_congr_left fun p hp => started_again (h p.1 (List.of_mem_zip hp).1) _
  rw [hsame, List.map_fst_zip (List.length_range ▸ le_refl _)]
/-- What starts of a list of walks does: they start, and their ends are due. -/
theorem startWalks_eq (s : State) (ws : List Walk) : ∃ rest, startWalks s ws = .pkg (.walks (startedWalks ws)) :: rest ∧
    rest.all Act.isPending = true := by
  refine ⟨_, rfl, ?_⟩
  split
  · rfl
  · rw [List.all_append, Bool.and_eq_true]
    refine ⟨List.all_eq_true.mpr fun a ha => ?_, rfl⟩
    obtain ⟨p, -, hp⟩ := List.mem_filterMap.mp ha
    obtain ⟨w, -, rfl⟩ := Option.map_eq_some_iff.mp hp
    rfl

/-- From m to t a core took updates and the walks of a list started; memory, the regions, the die TLBs and the other cores are as before. -/
structure Served (m t : State) (id : Nat) (c : Core) (ws : List Walk) : Prop where
  mem : t.mem = m.mem
  regions : t.regions = m.regions
  dieTlb : t.dieTlb = m.dieTlb
  walks : t.walks = startedWalks ws
  core : t.core id = c
  others : ∀ x, x ≠ id → t.core x = m.core x
theorem Served.region {m t : State} {id : Nat} {c : Core} {ws : List Walk} (h : Served m t id c ws) (ctx : Nat) : t.region ctx = m.region ctx := by
  unfold State.region; rw [h.regions]
theorem applyAll_startWalks (m s : State) (id : Nat) (l : List CAct) (ws : List Walk) :
    Served m (m.applyAll (l.map (.core id) ++ startWalks s ws)) id (l.foldl CAct.apply (m.core id)) ws := by
  obtain ⟨rest, hstart, hrest⟩ := startWalks_eq s ws
  obtain ⟨honly, hcore, hothers⟩ := onlyCore_updates m id l
  rw [hstart, State.applyAll_append, State.applyAll_cons, applyAll_pending rest _ hrest]
  refine ⟨?_, ?_, ?_, rfl, hcore, hothers⟩ <;> rw [honly] <;> rfl

/-! ## A walk completes (R33, R147, R235, R236) -/

section
variable {s : State} {die ctx va id addr : Nat} {w : Walk} {e : TlbEnt}

/-- The translation that a walk of a page gives: the die TLB's, or else the tables'. -/
def foundBy (s : State) (die ctx va : Nat) : Option TlbEnt :=
  ((SMap.get [] s.dieTlb die).find? fun e => e.covers ctx va).or (s.walk ctx va)
/-- It is one of the walk's own context. -/
theorem foundBy_ctx (h : foundBy s die ctx va = some e) : e.ctx = ctx := by
  rcases Option.or_eq_some_iff.mp h with h | ⟨-, h⟩
  · have hcovers := List.find?_some h
    simp only [TlbEnt.covers, Bool.and_eq_true, decide_eq_true_eq] at hcovers
    exact hcovers.1.1
  · obtain ⟨p, -, rfl⟩ := Option.map_eq_some_iff.mp h
    rfl
/-- What the end of a walk with one requester does. -/
theorem evTlbWalkComplete_eq {x : Nat × Nat × Nat} (hw : w.waiters = [x])
    (hfind : (s.walks.find? fun w => w.die = die ∧ w.ctx = ctx ∧ w.va = va ∧ w.started) = some w) : evTlbWalkComplete die ctx va s =
      (match foundBy s die ctx va with
        | some e => [.pkg (.dieTlb die ((e :: (SMap.get [] s.dieTlb die).filter fun x => !x.covers ctx va).take 8192))]
        | none => []) ++ (walkServes s (foundBy s die ctx va) x ++ startWalks s (s.walks.filter (· ≠ w))) := by
  simp only [evTlbWalkComplete, hfind, hw, walkServesAll, List.append_nil, List.append_assoc]
  rfl
/-- A walk that finds the page fills the die TLB, and its requester takes the translation. -/
theorem exec_walk_found {unit : Nat} {l : List CAct} (hw : w.waiters = [(id, unit, addr)])
    (hfind : (s.walks.find? fun w => w.die = die ∧ w.ctx = ctx ∧ w.va = va ∧ w.started) = some w)
    (he : foundBy s die ctx va = some e) (hserves : walkServes s (some e) (id, unit, addr) = l.map (.core id)) :
    ∃ t m, exec (.tlbWalkComplete die ctx va) s = .next t ∧ Served m t id (l.foldl CAct.apply (s.core id)) (s.walks.filter (· ≠ w)) ∧
      m = { s with dieTlb := SMap.set [] s.dieTlb die ((e :: (SMap.get [] s.dieTlb die).filter fun x => !x.covers ctx va).take 8192) } := by
  refine ⟨s.applyAll (evTlbWalkComplete die ctx va s), _, rfl, ?_, rfl⟩
  rw [evTlbWalkComplete_eq hw hfind, he, hserves]
  exact applyAll_startWalks _ s id l _
/-- One that finds none leaves the die TLB alone. -/
theorem exec_walk_missed {unit : Nat} {l : List CAct} (hw : w.waiters = [(id, unit, addr)])
    (hfind : (s.walks.find? fun w => w.die = die ∧ w.ctx = ctx ∧ w.va = va ∧ w.started) = some w)
    (he : foundBy s die ctx va = none) (hserves : walkServes s none (id, unit, addr) = l.map (.core id)) :
    ∃ t, exec (.tlbWalkComplete die ctx va) s = .next t ∧ Served s t id (l.foldl CAct.apply (s.core id)) (s.walks.filter (· ≠ w)) := by
  refine ⟨s.applyAll (evTlbWalkComplete die ctx va s), rfl, ?_⟩
  rw [evTlbWalkComplete_eq hw hfind, he, hserves]
  exact applyAll_startWalks s s id l _

/-- An address that the walk of a held bundle has missed faults as the bundle is tried again (R33, R147). -/
theorem translate_missed {u : State} {n : Nat} {acc : Access} (hmissed : addr ∈ u.cc.missed) (hit : u.cc.tlbHit u.ctx addr = none) :
    u.translate addr n acc = .fault XLATE addr := by
  simp only [State.translate, hit, Core.unmapped, List.contains_iff_mem, hmissed, if_true]

theorem walkServes_bundle (he : e.ctx = ctx) (hhit : (s.core id).tlbHit ctx addr = none) : walkServes s (some e) (id, 3, addr) =
    [CAct.tlb (fillTlb e (s.core id).tlb), .nextAt (max (s.core id).nextAt ((s.region (id / 2048)).cyc + 1))].map (.core id) := by
  simp only [walkServes, he, hhit, if_true]; rfl
theorem walkServes_copy (he : e.ctx = ctx) (hhit : (s.core id).tlbHit ctx addr = none) : walkServes s (some e) (id, 2, addr) =
    [CAct.tlb (fillTlb e (s.core id).tlb), .eng 2 { (s.core id).eng 2 with
      due := max ((s.core id).eng 2).due ((s.region (id / 2048)).cyc + 1), xl := e :: ((s.core id).eng 2).xl }].map (.core id) := by
  simp only [walkServes, he, hhit, if_true]; rfl
theorem walkServes_bundle_missed (hwaits : (s.core id).waits = []) (hheld : (s.core id).held = true) :
    walkServes s none (id, 3, addr) = [CAct.missed addr].map (.core id) := by
  simp only [walkServes, hwaits, hheld, ne_eq, not_true_eq_false, if_false, if_true]; rfl
theorem walkServes_copy_missed (hopen : (s.region (id / 2048)).closed = false) : walkServes s none (id, 2, addr) =
    [CAct.eng 2 { (s.core id).eng 2 with xm := addr :: ((s.core id).eng 2).xm }].map (.core id) := by
  simp only [walkServes, hopen, Bool.false_eq_true, if_false]; rfl
/-- A TLBLK that misses raises XLATE at once. -/
def lockFault (id addr : Nat) : FaultInfo := { code := XLATE, core := id, faddr := addr }
theorem walkServes_lock_missed (h : ∃ k ∈ (s.core id).waits, ∃ lo len, k.kind = .tlblk lo len) : walkServes s none (id, 3, addr) =
    .reg (id / 2048) (.raise (lockFault id addr)) ::
      [CAct.waits [], .held false, .trapped true, .pc (s.core id).issPc].map (.core id) := by
  obtain ⟨k, hk, lo, len, hkind⟩ := h
  have hne : (s.core id).waits ≠ [] := List.ne_nil_of_mem hk
  simp only [walkServes, hne, ne_eq, not_true_eq_false, if_false]
  refine (if_pos (List.any_eq_true.mpr ⟨k, hk, ?_⟩)).trans rfl
  rw [hkind]
/-- A walk for a TLBLK that finds none stops its core, and its region takes the fault (R236). -/
theorem exec_walk_lock_missed (hw : w.waiters = [(id, 3, addr)])
    (hfind : (s.walks.find? fun w => w.die = die ∧ w.ctx = ctx ∧ w.va = va ∧ w.started) = some w)
    (he : foundBy s die ctx va = none) (h : ∃ k ∈ (s.core id).waits, ∃ lo len, k.kind = .tlblk lo len) :
    ∃ t, exec (.tlbWalkComplete die ctx va) s = .next t ∧ t.mem = s.mem ∧
      t.region (id / 2048) = RAct.apply s (s.region (id / 2048)) (.raise (lockFault id addr)) ∧
      t.core id = { s.core id with waits := [], held := false, missed := [], trapped := true, pc := (s.core id).issPc } := by
  obtain ⟨m, hm⟩ : ∃ m, m = Act.apply s (.reg (id / 2048) (.raise (lockFault id addr))) := ⟨_, rfl⟩
  have ht : s.applyAll (evTlbWalkComplete die ctx va s) = m.applyAll ([CAct.waits [], .held false, .trapped true, .pc (s.core id).issPc].map
      (.core id) ++ startWalks s (s.walks.filter (· ≠ w))) := by
    rw [evTlbWalkComplete_eq hw hfind, he, walkServes_lock_missed h, hm]
    rfl
  have hserved := applyAll_startWalks m s id [.waits [], .held false, .trapped true, .pc (s.core id).issPc] (s.walks.filter (· ≠ w))
  rw [← ht] at hserved
  refine ⟨_, rfl, ?_, ?_, ?_⟩
  · rw [hserved.mem, hm, Act.reg_mem]
  · rw [hserved.region, hm, Act.reg_region_same]
  · rw [hserved.core, hm, Act.reg_core]
    simp only [List.foldl_cons, List.foldl_nil, CAct.apply_waits, CAct.apply_held, CAct.apply_trapped, CAct.apply_pc, Bool.false_eq_true, if_false]
end

/-! ## A page is invalidated (R239) -/

theorem SMap.key_above {α : Type} {b : Nat} : ∀ {m : SMap α}, SMap.sortedAbove b m = true → ∀ p ∈ m, b < p.1
  | (a, v) :: m, h, p, hp => by
    simp only [SMap.sortedAbove, Bool.and_eq_true, decide_eq_true_eq] at h
    rcases List.mem_cons.mp hp with rfl | hp
    · exact h.1
    · exact h.1.trans (SMap.key_above h.2 p hp)
/-- Each list of a table of die TLBs is rewritten, one after another. -/
theorem get_dieTlb_map (f : List TlbEnt → List TlbEnt) : ∀ (l : List (Nat × List TlbEnt)) (s : State), SMap.sorted l = true →
    ∃ D, s.applyAll (l.map fun p => .pkg (.dieTlb p.1 (f p.2))) = { s with dieTlb := D } ∧
      ∀ k, SMap.get [] D k = if k ∈ l.map Prod.fst then f (SMap.get [] l k) else SMap.get [] s.dieTlb k
  | [], s, _ => ⟨s.dieTlb, rfl, fun _ => rfl⟩
  | (a, v) :: l, s, hl => by
    obtain ⟨D, hrest, hget⟩ := get_dieTlb_map f l (Act.apply s (.pkg (.dieTlb a (f v)))) (SMap.sorted_of_above hl)
    refine ⟨D, hrest, fun k => (hget k).trans ?_⟩
    have hset : (Act.apply s (.pkg (.dieTlb a (f v)))).dieTlb = SMap.set [] s.dieTlb a (f v) := rfl
    by_cases hk : k = a
    · subst hk
      have habove : k ∉ l.map Prod.fst := fun h => by
        obtain ⟨p, hp, hpk⟩ := List.mem_map.mp h
        exact absurd (SMap.key_above hl p hp) (hpk ▸ Nat.lt_irrefl _)
      rw [if_neg habove, hset, SMap.get_set_same, List.map_cons, if_pos List.mem_cons_self, SMap.get_cons, if_pos rfl]
    · have hmem : k ∈ ((a, v) :: l).map Prod.fst ↔ k ∈ l.map Prod.fst := by
        rw [List.map_cons, List.mem_cons, or_iff_right hk]
      rw [hset, SMap.get_set_other _ _ hk, SMap.get_cons, if_neg (Ne.symm hk)]
      simp only [hmem]
/-- A canonical table is rewritten as a whole, where the empty list stays empty. -/
theorem get_dieTlb_all (s : State) (hs : SMap.sorted s.dieTlb = true) (f : List TlbEnt → List TlbEnt) (hf : f [] = []) :
    ∃ D, s.applyAll (s.dieTlb.map fun p => .pkg (.dieTlb p.1 (f p.2))) = { s with dieTlb := D } ∧
      ∀ k, SMap.get [] D k = f (SMap.get [] s.dieTlb k) := by
  obtain ⟨D, hrest, hget⟩ := get_dieTlb_map f s.dieTlb s hs
  refine ⟨D, hrest, fun k => (hget k).trans ?_⟩
  split
  · rfl
  · next hk =>
    have habsent : SMap.get [] s.dieTlb k = [] :=
      (SMap.get_mem_or [] s.dieTlb k).resolve_right fun h => hk (List.mem_map.mpr ⟨_, h, rfl⟩)
    rw [habsent, hf]

section
variable (s : State) (ctx va : Nat)

/-- What a unit has collected, without the entries that the page takes. -/
def Engine.without (g : Engine) : Engine := { g with xl := g.xl.filter fun e => !Claim.leaves s ctx va e }
/-- What a core of the region does as a page is invalidated: to its TLB, and to one of its units. -/
def tlbLeaves (c : Core) : List CAct :=
  if c.tlb.any fun e => Claim.leaves s ctx va e && !e.locked then [.tlb (c.tlb.filter fun e => !(Claim.leaves s ctx va e && !e.locked))] else []
def unitLeaves (c : Core) (e : Nat) : List CAct :=
  if (c.eng e).xl.any (Claim.leaves s ctx va) then [.eng e (Engine.without s ctx va (c.eng e))] else []

/-- A list that a test takes nothing from stays as it is. -/
theorem filter_not_of_any_eq_false {l : List TlbEnt} {p : TlbEnt → Bool} (h : ¬ l.any p = true) : (l.filter fun e => !p e) = l :=
  List.filter_eq_self.mpr fun e he => Bool.not_eq_true' _ ▸ Bool.eq_false_iff.mpr fun hp => h (List.any_eq_true.mpr ⟨e, he, hp⟩)
theorem Core.setEng_eng (c : Core) (e : Nat) : c.setEng e (c.eng e) = c := by
  unfold Core.setEng Core.eng
  split
  · rfl
  · split <;> rfl
theorem foldl_tlbLeaves (c : Core) : (tlbLeaves s ctx va c).foldl CAct.apply c =
    { c with tlb := c.tlb.filter fun e => !(Claim.leaves s ctx va e && !e.locked) } := by
  unfold tlbLeaves
  split
  · rfl
  · next h => rw [filter_not_of_any_eq_false h]; rfl
theorem foldl_unitLeaves (c : Core) (e : Nat) {d : Core} (h : d.eng e = c.eng e) :
    (unitLeaves s ctx va c e).foldl CAct.apply d = d.setEng e (Engine.without s ctx va (c.eng e)) := by
  unfold unitLeaves
  split
  · rfl
  · next hnone =>
    have hsame : Engine.without s ctx va (c.eng e) = c.eng e := by rw [Engine.without, filter_not_of_any_eq_false hnone]
    rw [hsame, ← h, Core.setEng_eng]; rfl
/-- The core that is left: each unit has its own part. -/
theorem foldl_leaves (c : Core) : (tlbLeaves s ctx va c ++ [0, 1, 2].flatMap (unitLeaves s ctx va c)).foldl CAct.apply c =
    { c with
      tlb := c.tlb.filter fun e => !(Claim.leaves s ctx va e && !e.locked)
      mx := Engine.without s ctx va c.mx, vx := Engine.without s ctx va c.vx, cp := Engine.without s ctx va c.cp } := by
  simp only [List.foldl_append, List.flatMap_cons, List.flatMap_nil, List.append_nil, foldl_tlbLeaves]
  rw [foldl_unitLeaves s ctx va c 0, foldl_unitLeaves s ctx va c 1, foldl_unitLeaves s ctx va c 2] <;> rfl

/-- A locked entry stands that the tables no longer give. -/
def lockStands : Bool := (s.region ctx).ids.any fun id => (s.core id).tlb.any fun e =>
  Claim.leaves s ctx va e && e.locked && (s.walk ctx e.base).map TlbEnt.pte ≠ some e.pte
theorem evTlbInvalidate_eq : evTlbInvalidate ctx va s =
    (s.dieTlb.map fun p => .pkg (.dieTlb p.1 (p.2.filter fun e => !Claim.leaves s ctx va e))) ++
      (((s.region ctx).ids.flatMap fun id => (tlbLeaves s ctx va (s.core id)).map (.core id)) ++
        ((s.region ctx).ids.flatMap fun id => ([0, 1, 2].flatMap (unitLeaves s ctx va (s.core id))).map (.core id)) ++
        if lockStands s ctx va then [.pkg (.later (s.now + 1) (.ev s.cur (.tlbInvalidate ctx va)))] else []) := by
  have htlb (id : Nat) : (tlbLeaves s ctx va (s.core id)).map (Act.core id) =
      (if (s.core id).tlb.any fun e => Claim.leaves s ctx va e && !e.locked then
        some (Act.core id (.tlb ((s.core id).tlb.filter fun e => !(Claim.leaves s ctx va e && !e.locked)))) else none).toList := by
    unfold tlbLeaves; split <;> rfl
  have hunits (id : Nat) : ([0, 1, 2].flatMap (unitLeaves s ctx va (s.core id))).map (Act.core id) = [0, 1, 2].flatMap fun e =>
      (if ((s.core id).eng e).xl.any (Claim.leaves s ctx va) then
        some (Act.core id (.eng e (Engine.without s ctx va ((s.core id).eng e)))) else none).toList := by
    rw [List.map_flatMap]
    refine List.flatMap_congr fun e _ => ?_
    unfold unitLeaves; split <;> rfl
  simp only [htlb, hunits, ← List.filterMap_eq_flatMap_toList, ← List.append_assoc]
  rfl

/-- R239: what an invalidation leaves of the TLBs and of the translations that the region's units have collected. -/
theorem applyAll_tlbInvalidate (hs : SMap.sorted s.dieTlb = true) : let t := s.applyAll (evTlbInvalidate ctx va s)
    t.mem = s.mem ∧ t.regions = s.regions ∧
    (∀ die, SMap.get [] t.dieTlb die = (SMap.get [] s.dieTlb die).filter fun e => !Claim.leaves s ctx va e) ∧
    (∀ id, t.core id = if id ∈ (s.region ctx).ids then
      (tlbLeaves s ctx va (s.core id) ++ [0, 1, 2].flatMap (unitLeaves s ctx va (s.core id))).foldl CAct.apply (s.core id) else s.core id) ∧
    t.agenda = if lockStands s ctx va then laterInsert (s.now + 1) (.ev s.cur (.tlbInvalidate ctx va)) s.agenda else s.agenda := by
  obtain ⟨D, hdies, hget⟩ := get_dieTlb_all s hs (fun l => l.filter fun e => !Claim.leaves s ctx va e) rfl
  obtain ⟨l, hl⟩ : ∃ l, l = ((s.region ctx).ids.flatMap fun id => (tlbLeaves s ctx va (s.core id)).map (Act.core id)) ++
    ((s.region ctx).ids.flatMap fun id => ([0, 1, 2].flatMap (unitLeaves s ctx va (s.core id))).map (Act.core id)) := ⟨_, rfl⟩
  have hcores : l.all Act.isCore = true := by rw [hl, List.all_append, each_isCore, each_isCore]; rfl
  obtain ⟨hrest, hcore⟩ := applyAll_cores l { s with dieTlb := D } hcores
  have hcore (id : Nat) : (({ s with dieTlb := D } : State).applyAll l).core id = if id ∈ (s.region ctx).ids then
      (tlbLeaves s ctx va (s.core id) ++ [0, 1, 2].flatMap (unitLeaves s ctx va (s.core id))).foldl CAct.apply (s.core id) else s.core id := by
    rw [hcore, hl, updatesOf_append, updatesOf_each _ _ _ (Region.ids_nodup _), updatesOf_each _ _ _ (Region.ids_nodup _)]
    split <;> rfl
  intro t
  have ht : t = (({ s with dieTlb := D } : State).applyAll l).applyAll
      (if lockStands s ctx va then [.pkg (.later (s.now + 1) (.ev s.cur (.tlbInvalidate ctx va)))] else []) := by
    simp only [t, evTlbInvalidate_eq, ← hl, State.applyAll_append, hdies]
  generalize ({ s with dieTlb := D } : State).applyAll l = m at hrest hcore ht
  have hagenda : m.agenda = s.agenda := by rw [hrest]
  have hdie : m.dieTlb = D := by rw [hrest]
  have hmem : m.mem = s.mem ∧ m.regions = s.regions := by rw [hrest]; exact ⟨rfl, rfl⟩
  rw [ht]
  cases lockStands s ctx va with
  | true => exact ⟨hmem.1, hmem.2, fun die => (congrArg (SMap.get [] · die) hdie).trans (hget die), hcore,
      congrArg (laterInsert (s.now + 1) (.ev s.cur (.tlbInvalidate ctx va))) hagenda⟩
  | false => exact ⟨hmem.1, hmem.2, fun die => (congrArg (SMap.get [] · die) hdie).trans (hget die), hcore, hagenda⟩
end

/-! ## The claims -/

/-- R33, R147, R235, R236, R239: a walk's end, by its requester and by what it finds, and an invalidation. -/
theorem translationEvents : Claim.TranslationEvents := by
  refine ⟨fun s die ctx va id addr w hw hfind hhit => ⟨fun e he => ?_, fun he hwaits hheld => ?_, fun he hlock => ?_⟩,
    fun s die ctx va id addr w hw hopen hfind he => ?_, fun s die ctx va id addr w e hw hfind hhit he => ?_, fun s ctx va hinv => ?_⟩
  · obtain ⟨t, m, ht, hserved, hm⟩ := exec_walk_found hw hfind he (walkServes_bundle (foundBy_ctx he) hhit)
    refine ⟨t, ht, ?_, ?_, ?_, hserved.core, ?_, fun x hx hne hs => ?_, fun hall => ?_⟩
    · rw [hserved.mem, hm]
    · rw [hserved.regions, hm]
    · rw [hserved.dieTlb, hm, SMap.get_set_same]
    · rw [hm] at hserved; exact hserved.others
    · rw [hserved.walks]
      exact mem_startedWalks (List.mem_filter.mpr ⟨hx, decide_eq_true hne⟩) hs
    · rw [hserved.walks]
      exact startedWalks_of_all fun x hx => hall x (List.mem_filter.mp hx).1
  · obtain ⟨t, ht, hserved⟩ := exec_walk_missed hw hfind he (walkServes_bundle_missed hwaits hheld)
    refine ⟨t, ht, hserved.mem, hserved.regions, hserved.core, fun u n acc hu hit => translate_missed ?_ hit⟩
    rw [hu, hserved.core]
    exact List.mem_cons_self
  · obtain ⟨t, ht, hmem, hregion, hcore⟩ := exec_walk_lock_missed hw hfind he hlock
    exact ⟨t, lockFault id addr, ht, hmem, rfl, rfl, rfl, hregion, hcore⟩
  · obtain ⟨t, ht, hserved⟩ := exec_walk_missed hw hfind he (walkServes_copy_missed hopen)
    exact ⟨t, ht, hserved.mem, hserved.regions, hserved.core⟩
  · obtain ⟨t, m, ht, hserved, hm⟩ := exec_walk_found hw hfind he (walkServes_copy (foundBy_ctx he) hhit)
    refine ⟨t, ht, ?_, ?_, hserved.core⟩
    · rw [hserved.mem, hm]
    · rw [hserved.regions, hm]
  · obtain ⟨-, -, -, -, htables, -⟩ := hinv
    rw [SMap.wf, Bool.and_eq_true] at htables
    obtain ⟨hmem, hregions, hdies, hcore, hagenda⟩ := applyAll_tlbInvalidate s ctx va htables.1
    refine ⟨_, rfl, hmem, hregions, hdies, fun id hid => ?_, fun id hid => ?_, hagenda⟩
    · exact (hcore id).trans ((if_pos hid).trans (foldl_leaves s ctx va (s.core id)))
    · exact (hcore id).trans (if_neg hid)

/-- Settles O51: the results that land, and the translations that arrive and leave. -/
theorem resultsAndTranslationsArrive : Obligations.ResultsAndTranslationsArrive := ⟨untimedResultsLand, translationEvents⟩

end Sys2Proof.Machine
end

section
/-! SUPPORT. Engine queues: what RUN, RUNS and LOOPB place behind them, and what GUARD, PACE, PSET, PINV, QSEQ and TBLW set (R172, R177 to
R185). -/

namespace Sys2Proof.Machine

open Sys2Proof.Claim hiding fits

/-! ## Engines of a core -/

theorem Core.eng_setEng_same (c : Core) (e : Nat) (g : Engine) : (c.setEng e g).eng e = g := by
  unfold Core.setEng Core.eng
  split_ifs <;> rfl
theorem Core.eng_setEng_other (c : Core) {e j : Nat} (g : Engine) (he : e < 3) (hj : j < 3) (h : j ≠ e) : (c.setEng e g).eng j = c.eng j := by
  unfold Core.setEng Core.eng
  split_ifs <;> first | rfl | omega
theorem Core.setEng_setEng (c : Core) (e : Nat) (g k : Engine) : (c.setEng e g).setEng e k = c.setEng e k := by
  unfold Core.setEng
  split_ifs <;> rfl

/-- The engines that a field names are there, each once (R177). -/
theorem namedEngines_lt {g : BitVec 2} {e : Nat} (h : e ∈ namedEngines g) : e < 3 := by
  have hg := g.isLt
  unfold namedEngines at h
  split at h
  · simp only [List.mem_cons, List.not_mem_nil, or_false] at h
    omega
  · next h3 =>
    have hne : g.toNat ≠ 3 := fun h => h3 (BitVec.eq_of_toNat_eq h)
    rw [List.mem_singleton.mp h]
    omega
theorem namedEngines_nodup (g : BitVec 2) : (namedEngines g).Nodup := by
  unfold namedEngines
  split
  · decide
  · exact List.nodup_singleton _

/-! ## Words on untagged state (R54) -/

section
variable {s : State} {srcs : List Nat}

theorem untagged_ok (h : ∀ r ∈ srcs, maySteer s r) (p : Plan) : untagged s srcs p = p := by
  have htags : (srcs.any fun r => !steer (s.tag r)) = false :=
    List.any_eq_false.mpr fun r hr => by rw [show steer (s.tag r) = true from decide_eq_true (h r hr).1]; exact Bool.false_ne_true
  have hclean : (srcs.any fun r => s.bad r) = false :=
    List.any_eq_false.mpr fun r hr => by rw [(h r hr).2]; exact Bool.false_ne_true
  simp only [untagged, htags, hclean, Bool.false_eq_true, if_false]
theorem untagged_mistagged {r : Nat} (hr : r ∈ srcs) (h : ¬ (s.tag r = 0 ∨ s.tag r = 1)) (p : Plan) : untagged s srcs p = s.trap CLOCK := by
  have htags : (srcs.any fun r => !steer (s.tag r)) = true :=
    List.any_eq_true.mpr ⟨r, hr, by rw [show steer (s.tag r) = false from decide_eq_false h]; rfl⟩
  exact if_pos htags
end

/-! ## A place in a queue (R33, R172, R180) -/

/-- What placing an entry does to the core: the entry goes behind its queue, which no longer has attributes pending. -/
def placing (s : State) (e stamp base count reps : Nat) : List CAct :=
  let g := s.cc.eng e
  [.engPush e { stamp := stamp, base := base, count := count, reps := reps, guard := g.aGuard, wtok := g.aWait
                stok := g.aSig, timed := s.inSeg, instant := s.rr.instant, word := none },
   .engAttr e none none none]
theorem placing_foldl {s : State} {c : Core} {e : Nat} (h : c.eng e = s.cc.eng e) (stamp base count reps : Nat) :
    (placing s e stamp base count reps).foldl CAct.apply c = queued s c e stamp base count reps := by
  simp only [placing, List.foldl, CAct.apply_engPush, CAct.apply_engAttr, Core.eng_setEng_same, Core.setEng_setEng, queued, h]
/-- Entries for several engines: each takes the attributes of its own queue. -/
theorem placing_foldl_each {s : State} (stamp base count : Nat → Nat) (reps : Nat) : ∀ (es : List Nat) (c : Core), es.Nodup → (∀ e ∈ es, e < 3) →
    (∀ e ∈ es, c.eng e = s.cc.eng e) → (es.flatMap fun e => placing s e (stamp e) (base e) (count e) reps).foldl CAct.apply c =
      es.foldl (fun c e => queued s c e (stamp e) (base e) (count e) reps) c := by
  intro es
  induction es with
  | nil => intros; rfl
  | cons e es ih =>
    intro c hn hlt heng
    obtain ⟨he, hn⟩ := List.nodup_cons.mp hn
    rw [List.flatMap_cons, List.foldl_append, placing_foldl (heng e List.mem_cons_self), List.foldl_cons]
    refine ih _ hn (fun j hj => hlt j (List.mem_cons_of_mem _ hj)) fun j hj => ?_
    have hne : j ≠ e := fun h => he (h ▸ hj)
    exact (Core.eng_setEng_other _ _ (hlt e List.mem_cons_self) (hlt j (List.mem_cons_of_mem _ hj)) hne).trans
      (heng j (List.mem_cons_of_mem _ hj))

section
variable {s : State} {e : Nat}

/-- A full queue holds a word of elastic code, and room lets any word go on to its checks. -/
theorem holdFirst_room (hq : (s.cc.eng e).queue.length < 32) (p : Plan) : s.holdFirst (queueFree s.cc e) p = p := by
  rw [queueFree_of_lt hq, State.holdFirst_true]
theorem holdFirst_full (hc : s.actor = .control) (hq : 32 ≤ (s.cc.eng e).queue.length) (hseg : s.inSeg = false) (p : Plan) :
    s.holdFirst (queueFree s.cc e) p = .hold [] :=
  State.holdFirst_held (queueFree_of_le hq) ((State.timed_control hc).trans hseg) p
end

/-! ## RUN and RUNS (R178) -/

/-- The model's tables have the words that R43 gives them. -/
theorem tableWords_eq (e : Nat) : Config.tableWords e = tableSize e := rfl

section
variable {s : State} {g : BitVec 2} {b : BitVec 10} {c : BitVec 8} {lit : Word}

theorem planRun_placed (hq : (s.cc.eng g.toNat).queue.length < 32) (hfits : b.toNat + c.toNat + 1 ≤ tableSize g.toNat) :
    planRun g b c s = .acts ((placing s g.toNat (s.cyc - s.rr.ibase) b.toNat (c.toNat + 1) 0).map s.upd) := by
  rw [planRun, holdFirst_room hq, tableWords_eq, if_neg (Nat.not_lt.mpr hfits), queueFree_of_lt hq]; rfl
theorem planRun_late (hc : s.actor = .control) (hq : 32 ≤ (s.cc.eng g.toNat).queue.length) (hseg : s.inSeg = true)
    (hfits : b.toNat + c.toNat + 1 ≤ tableSize g.toNat) : planRun g b c s = s.sched 2 g.toNat := by
  have ht : s.timed = true := (State.timed_control hc).trans hseg
  rw [planRun, State.holdFirst_passes (.inr ht), tableWords_eq, if_neg (Nat.not_lt.mpr hfits), queueFree_of_le hq]
  simp only [State.unless, ht, Bool.false_eq_true, if_false, if_true]
theorem planRuns_placed (hq : (s.cc.eng g.toNat).queue.length < 32) (hfits : b.toNat + c.toNat + 1 ≤ tableSize g.toNat)
    (hlit : s.cyc - s.rr.ibase ≤ lit.toNat) :
    planRuns g b c lit s = .acts ((placing s g.toNat lit.toNat b.toNat (c.toNat + 1) 0).map s.upd) := by
  rw [planRuns, holdFirst_room hq, tableWords_eq, if_neg (Nat.not_lt.mpr hfits), State.stamp, if_neg (Nat.not_lt.mpr hlit), queueFree_of_lt hq]; rfl
theorem planRuns_passed (hq : (s.cc.eng g.toNat).queue.length < 32) (hfits : b.toNat + c.toNat + 1 ≤ tableSize g.toNat)
    (hlit : lit.toNat < s.cyc - s.rr.ibase) : planRuns g b c lit s =
      .trap { s.fault SCHED with wobj := 11, wval1 := s.rr.ibase + lit.toNat, wval2 := g.toNat } := by
  rw [planRuns, holdFirst_room hq, tableWords_eq, if_neg (Nat.not_lt.mpr hfits)]
  exact if_pos hlit
theorem planRun_pastTable (hq : (s.cc.eng g.toNat).queue.length < 32) (hfits : ¬ b.toNat + c.toNat + 1 ≤ tableSize g.toNat) :
    planRun g b c s = s.trap ILLEGAL := by
  rw [planRun, holdFirst_room hq]; exact if_pos (Nat.not_le.mp hfits)
theorem planRuns_pastTable (hq : (s.cc.eng g.toNat).queue.length < 32) (hfits : ¬ b.toNat + c.toNat + 1 ≤ tableSize g.toNat) :
    planRuns g b c lit s = s.trap ILLEGAL := by
  rw [planRuns, holdFirst_room hq]; exact if_pos (Nat.not_le.mp hfits)
end

/-- R172, R178, R180: each clause is one branch of RUN's plan or of RUNS's. -/
theorem runEntriesAreQueued : Claim.EntriesAreQueued := by
  intro s g b c lit hc
  have places {i : Instr} {stamp : Nat}
      (h : exec i s = resolve s (.acts ((placing s g.toNat stamp b.toNat (c.toNat + 1) 0).map s.upd))) :
      ∃ t, exec i s = .next t ∧ Issued s t (queued s s.cc g.toNat stamp b.toNat (c.toNat + 1) 0) [] := by
    rw [← placing_foldl rfl]; exact exec_updates hc _ h
  refine ⟨fun hq hfits => ?_, fun hq hfits hlit => ?_, fun hq hfits hlit => ?_, fun i hi => ⟨fun hq hfits => ?_, fun hq hseg => ?_⟩,
    fun hq hseg hfits => ?_⟩
  · exact places (i := .run g b c) (congrArg (resolve s) (planRun_placed hq hfits))
  · exact places (i := .runs g b c lit) (congrArg (resolve s) (planRuns_placed hq hfits hlit))
  · exact exec_traps (i := .runs g b c lit) _ hc (congrArg (resolve s) (planRuns_passed hq hfits hlit))
  · rcases hi with rfl | rfl
    · exact exec_traps _ hc (congrArg (resolve s) (planRun_pastTable hq hfits))
    · exact exec_traps _ hc (congrArg (resolve s) (planRuns_pastTable hq hfits))
  · rcases hi with rfl | rfl
    · exact exec_holds hc (congrArg (resolve s) (holdFirst_full hc hq hseg _))
    · exact exec_holds hc (congrArg (resolve s) (holdFirst_full hc hq hseg _))
  · exact exec_traps (i := .run g b c) _ hc (congrArg (resolve s) (planRun_late hc hq hseg hfits))

/-! ## LOOPB (R179) -/

section
variable {s : State} {g : BitVec 2} {a : BitVec 6} {n : BitVec 15} {lit : Word}

/-- The base and the count of engine e's entry, as s(a) gives them. -/
def loopBase (s : State) (a : BitVec 6) (e : Nat) : Nat := (s.val a.toNat).toNat / 2 ^ (18 * e) % 1024
def loopCount (s : State) (a : BitVec 6) (e : Nat) : Nat := (s.val a.toNat).toNat / 2 ^ (18 * e + 10) % 256 + 1

theorem planLoopb_held (hc : s.actor = .control) (hseg : s.inSeg = false) (hfull : ∃ e ∈ namedEngines g, 32 ≤ (s.cc.eng e).queue.length) :
    planLoopb g a n lit s = .hold [] := by
  have hnone : ((namedEngines g).find? fun e => !queueFree s.cc e).isNone = false := by
    obtain ⟨e, he, hq⟩ := hfull
    rw [Option.isNone_eq_false_iff, List.find?_isSome]
    exact ⟨e, he, by rw [queueFree_of_le hq]; rfl⟩
  rw [planLoopb, engines_toNat]
  exact State.holdFirst_held hnone ((State.timed_control hc).trans hseg) _
/-- With room in every queue LOOPB tests its entries against their tables. -/
theorem planLoopb_room (ha : maySteer s a.toNat) (hroom : ∀ e ∈ namedEngines g, (s.cc.eng e).queue.length < 32) :
    planLoopb g a n lit s = if (namedEngines g).any fun e => tableSize e < loopBase s a e + loopCount s a e then s.trap ILLEGAL
      else .acts (((namedEngines g).flatMap fun e => placing s e (s.cyc - s.rr.ibase + lit.toNat / 2 ^ (10 * e) % 1024)
        (loopBase s a e) (loopCount s a e) n.toNat).map s.upd) := by
  have hnone : ((namedEngines g).find? fun e => !queueFree s.cc e) = none :=
    List.find?_eq_none.mpr fun e he => by rw [queueFree_of_lt (hroom e he)]; exact Bool.false_ne_true
  rw [planLoopb, engines_toNat]
  simp only [hnone, Option.isNone_none, State.holdFirst_true, State.unless_true, List.map_flatMap,
    untagged_ok (List.forall_mem_singleton.mpr ha), List.flatten_eq_flatMap, List.flatMap_map]
  rfl
end

/-- R33, R179: LOOPB's plan with a full queue, past a table, and with room. -/
theorem loopEntriesAreQueued : Claim.LoopEntriesAreQueued := by
  intro s g a n lit hc
  refine ⟨fun hseg hfull => exec_holds hc (congrArg (resolve s) (planLoopb_held hc hseg hfull)), fun ha hroom => ?_, fun ha hroom hpast => ?_⟩
  · have hfits : ((namedEngines g).any fun e => tableSize e < loopBase s a e + loopCount s a e) = false :=
      List.any_eq_false.mpr fun e he => decide_eq_true_iff.not.mpr (Nat.not_lt.mpr (hroom e he).2)
    have hplan := planLoopb_room (n := n) (lit := lit) ha fun e he => (hroom e he).1
    rw [hfits, if_neg Bool.false_ne_true] at hplan
    obtain ⟨t, ht, hissued⟩ := exec_updates (i := .loopb g a n lit) hc _ (congrArg (resolve s) hplan)
    rw [placing_foldl_each _ _ _ _ _ _ (namedEngines_nodup g) (fun _ => namedEngines_lt) fun _ _ => rfl] at hissued
    exact ⟨t, ht, hissued⟩
  · have hfits : ((namedEngines g).any fun e => tableSize e < loopBase s a e + loopCount s a e) = true := by
      obtain ⟨e, he, hlt⟩ := hpast
      exact List.any_eq_true.mpr ⟨e, he, decide_eq_true hlt⟩
    have hplan := planLoopb_room (n := n) (lit := lit) ha hroom
    rw [hfits, if_pos rfl] at hplan
    exact exec_traps (i := .loopb g a n lit) _ hc (congrArg (resolve s) hplan)

/-- Settles O35: RUN and RUNS, and LOOPB. -/
theorem entriesAreQueued : Obligations.EntriesAreQueued := ⟨runEntriesAreQueued, loopEntriesAreQueued⟩

/-! ## Settings (R180, R181, R183 to R185) -/

section
variable {s : State}

/-- The attributes that GUARD leaves pending for an engine (R180). -/
def guarding (p : BitVec 4) (h : BitVec 1) (w : BitVec 5) (v : BitVec 1) (x : BitVec 5) (u : BitVec 1) (e : Nat) : CAct :=
  .engAttr e (if h = 1 then some p.toNat else none) (if v = 1 then some w.toNat else none) (if u = 1 then some x.toNat else none)
theorem planGuard_eq (g : BitVec 2) (p : BitVec 4) (h : BitVec 1) (w : BitVec 5) (v : BitVec 1) (x : BitVec 5) (u : BitVec 1) :
    planGuard g p h w v x u s = .acts (((namedEngines g).map (guarding p h w v x u)).map s.upd) := by
  rw [planGuard, engines_toNat, List.map_map]; rfl
theorem planPace_eq (g : BitVec 2) (p : BitVec 8) : planPace g p s =
    .acts ([landing s 1 0 ((namedEngines g).map fun e => .engPace e p.toNat), reaction s].map s.puts) := by
  rw [planPace, engines_toNat]; rfl
theorem planPset_ok {a : BitVec 6} {tg : Tag} (hs : Sources s [a.toNat] tg) (p : BitVec 4) :
    planPset p a s = .acts [s.puts (landing s 1 0 [.pred p.toNat ⟨(s.val a.toNat).getLsbD 0, true⟩])] := memIssue_goes hs (.inl rfl)
theorem planTblw_checked {a b : BitVec 6} (ha : maySteer s a.toNat) (hb : maySteer s b.toNat) (g : BitVec 2) : planTblw g a b s =
    if tableSize g.toNat ≤ (s.val a.toNat).toNat % 1024 then s.trap ILLEGAL
    else .acts [s.puts (landing s 1 0 [.table g.toNat ((s.val a.toNat).toNat % 1024) ((s.val b.toNat).setWidth 32)])] := by
  have hword : BitVec.ofNat 32 (s.val b.toNat).toNat = (s.val b.toNat).setWidth 32 := BitVec.ofNat_toNat ..
  rw [planTblw, untagged_ok (List.forall_mem_cons.mpr ⟨ha, List.forall_mem_singleton.mpr hb⟩), hword, fld_zero]
  rfl
end

/-- Settles O36: GUARD updates its core, and each other word puts its landing into the agenda. -/
theorem queueSettingsLand : Obligations.QueueSettingsLand := by
  intro s hc
  refine ⟨fun g p h w v x u => ?_, fun g p => ?_, fun p a tg hs => ?_, fun p => ?_, fun g d x => ?_, fun g a b ha hb hlt => ?_,
    fun g a b ha hb hle => ?_⟩
  · obtain ⟨t, ht, hissued⟩ := exec_updates (i := .guard g p h w v x u) hc _ (congrArg (resolve s) (planGuard_eq g p h w v x u))
    rw [List.foldl_map] at hissued
    exact ⟨t, ht, hissued⟩
  · exact exec_schedules (i := .pace g p) hc _ (congrArg (resolve s) (planPace_eq g p))
  · exact exec_schedules_one hc _ (congrArg (resolve s) (planPset_ok hs p))
  · exact exec_schedules_one hc _ rfl
  · exact exec_schedules_one hc _ rfl
  · have hplan := planTblw_checked ha hb g
    rw [if_neg (Nat.not_le.mpr hlt)] at hplan
    exact exec_schedules_one (i := .tblw g a b) hc _ (congrArg (resolve s) hplan)
  · have hplan := planTblw_checked ha hb g
    rw [if_pos hle] at hplan
    exact exec_traps (i := .tblw g a b) _ hc (congrArg (resolve s) hplan)

end Sys2Proof.Machine
end

section
/-! SUPPORT. Class 15: neighbour links, barrier tags, clocked channels and notices, each word's plan case by case (R81, R199 to R203,
R292). -/

namespace Sys2Proof.Machine

open Sys2Proof.Claim hiding fits

/-! ## Neighbour links (R199, R292) -/

section
variable {s : State} {r : BitVec 2} {a : BitVec 6}

theorem neighbour_eq (s : State) (r : BitVec 2) : s.rr.neighbour s.vidx r.toNat = Claim.neighbour s r := by
  have hr : ∀ r : BitVec 2, r = 0 ∨ r = 1 ∨ r = 2 ∨ r = 3 := by decide
  rcases hr r with rfl | rfl | rfl | rfl <;> rfl

theorem planLsend_sent (ha : maySteer s a.toNat) {v : Nat} (hv : Claim.neighbour s r = some v) : planLsend r a s =
    .acts [s.puts (s.key (s.cyc + 2) 2, .linkWord (s.ctx * 2048 + v) ((r.toNat + 2) % 4) (s.val a.toNat))] := by
  rw [planLsend, untagged_ok (List.forall_mem_singleton.mpr ha), neighbour_eq, hv]; rfl
theorem planLsend_alone (ha : maySteer s a.toNat) (hv : Claim.neighbour s r = none) : planLsend r a s = s.trap SCOPE := by
  rw [planLsend, untagged_ok (List.forall_mem_singleton.mpr ha), neighbour_eq, hv]
theorem planLrecv_empty (hc : s.actor = .control) (h : s.cc.inbox r.toNat = []) :
    planLrecv r a s = if s.inSeg then s.sched 8 r.toNat else .hold [] := by
  simp only [planLrecv, h, State.unless, Bool.false_eq_true, if_false, State.timed_control hc]
theorem planLrecv_word {v : DWord} {l : List DWord} (h : s.cc.inbox r.toNat = v :: l) : planLrecv r a s =
    .acts ([.inboxPop r.toNat].map s.upd ++ [landing s 1 2 [.reg a.toNat v 1 false]].map s.puts) := by
  simp only [planLrecv, h]; rfl
end

/-- R199, R292: each clause is one branch of LSEND's plan or of LRECV's. -/
theorem neighbourLinks : Claim.NeighbourLinks := by
  intro s r a hc
  refine ⟨fun ha v hv => ?_, fun ha hv => ?_, fun ht => ?_, fun v l h => ?_, fun h hseg => ?_, fun h hseg => ?_⟩
  · exact exec_schedules_one (i := .lsend r a) hc _ (congrArg (resolve s) (planLsend_sent ha hv))
  · exact exec_traps (i := .lsend r a) _ hc (congrArg (resolve s) (planLsend_alone ha hv))
  · exact exec_traps (i := .lsend r a) _ hc (congrArg (resolve s) (untagged_mistagged List.mem_cons_self ht _))
  · exact ((does_upds s [.inboxPop r.toNat]).append (does_puts s [landing s 1 2 [.reg a.toNat v 1 false]])).issues (i := .lrecv r a) hc
      (congrArg (resolve s) (planLrecv_word h))
  · have hplan := planLrecv_empty (a := a) hc h
    rw [hseg, if_neg Bool.false_ne_true] at hplan
    exact exec_holds (i := .lrecv r a) hc (congrArg (resolve s) hplan)
  · have hplan := planLrecv_empty (a := a) hc h
    rw [hseg, if_pos rfl] at hplan
    exact exec_traps (i := .lrecv r a) _ hc (congrArg (resolve s) hplan)

/-! ## Barrier tags (R200) -/

section
variable {s : State} {b : BitVec 3}

theorem planBar_again (h : SMap.get false s.cc.btArr b.toNat = true) : planBar b s = s.trap ILLEGAL := if_pos h
theorem planBar_arrives (h : SMap.get false s.cc.btArr b.toNat = false) :
    planBar b s = .acts ([.btArr b.toNat true, .btOwed b.toNat true].map s.upd) := by
  rw [planBar, h]; rfl
theorem planBarw_released (h : SMap.get false s.cc.btOwed b.toNat = false) (l : BitVec 5) : planBarw b l s = .acts [] := by
  simp only [planBarw, h, Bool.not_false, if_true, startWait_met, ite_self]
theorem planBarw_owed (h : SMap.get false s.cc.btOwed b.toNat = true) (l : BitVec 5) : planBarw b l s =
    if s.inSeg then s.sched 9 b.toNat else .acts ([waitNow s (.barw b.toNat) (some l.toNat)].map s.upd) := by
  simp only [planBarw, h, Bool.not_true, Bool.false_eq_true, if_false]; rfl
end

/-- R200: each clause is one branch of BAR's plan or of BARW's. -/
theorem barrierTagWords : Claim.BarrierTagWords := by
  intro s b l hc
  refine ⟨fun h => ?_, fun h => ?_, fun h => ?_, fun h hseg => ?_, fun h hseg => ?_⟩
  · exact exec_updates (i := .bar b) hc _ (congrArg (resolve s) (planBar_arrives h))
  · exact exec_traps (i := .bar b) _ hc (congrArg (resolve s) (planBar_again h))
  · exact exec_issues_nothing (i := .barw b l) hc (congrArg (resolve s) (planBarw_released h l))
  · have hplan := planBarw_owed h l
    rw [hseg, if_neg Bool.false_ne_true] at hplan
    exact exec_updates (i := .barw b l) hc _ (congrArg (resolve s) hplan)
  · have hplan := planBarw_owed h l
    rw [hseg, if_pos rfl] at hplan
    exact exec_traps (i := .barw b l) _ hc (congrArg (resolve s) hplan)

/-- Settles O38: the links, and the barrier tags. -/
theorem linksAndBarrierTags : Obligations.LinksAndBarrierTags := ⟨neighbourLinks, barrierTagWords⟩

/-! ## Channels (R81, R201, R202) -/

section
variable {s : State} {c : BitVec 8} {a : BitVec 6} {k : BitVec 4} {tg : Tag}

theorem planChwr_checked (hs : Sources s [a.toNat] tg) : planChwr c a s =
    if s.writes c.toNat then .acts [s.upd (.chStage c.toNat s.cyc (s.val a.toNat))] else s.trap ILLEGAL := by
  refine (memIssue_goes hs (.inl rfl)).trans ?_
  cases s.writes c.toNat <;> rfl

/-- What a read of a channel puts into the agenda: the definition of its clock, and the value where there is one (R202). -/
def channelRead (s : State) (a : BitVec 6) (k : BitVec 4) (v : Option DWord) : List (Key × Item) :=
  (s.key (s.cyc + 1) 2, .land s.cur [.clock k.toNat ⟨true, v.isSome, 1, 0, false, false⟩]) ::
    v.toList.map fun v => landing s 1 2 [.reg a.toNat v k false]
theorem planChrd_reads (hk : 2 ≤ k.toNat) (hr : s.readsCh c.toNat = true) (hd : ¬ isDefined s k) :
    planChrd c a k s = .acts ((channelRead s a k (s.snapshot c.toNat)).map s.puts) := by
  have hgo : ¬ (k.toNat < 2 ∨ (!s.readsCh c.toNat) = true) :=
    not_or.mpr ⟨Nat.not_lt.mpr hk, by rw [hr]; exact Bool.false_ne_true⟩
  rw [planChrd, if_neg hgo, (Core.defined_eq_false_iff s k).mpr hd]
  cases s.snapshot c.toNat <;> rfl
theorem planChrd_illegal (h : k.toNat < 2 ∨ s.readsCh c.toNat = false) : planChrd c a k s = s.trap ILLEGAL :=
  if_pos (h.imp_right fun h => by rw [h]; rfl)

theorem planChpop_pops {q : Chan} (hq : s.chan s.ctx c.toNat = some q) (hn : q.rnode = s.rr.node) (hk : q.kind ≠ 0) : planChpop c s =
    .acts ((if (s.snapshot c.toNat).isSome then [landing s 1 2 [.chPop c.toNat]] else []).map s.puts) := by
  simp only [planChpop, hq, hn, hk, ne_eq, not_true_eq_false, or_self, if_false]
  split <;> rfl
theorem planChpop_unknown (hq : s.chan s.ctx c.toNat = none) : planChpop c s = s.trap ILLEGAL := by
  simp only [planChpop, hq]

/-! ## Notices (R203) -/

theorem planNotice_checked (hs : Sources s [a.toNat] tg) (hseg : s.inSeg = false) (n : Nat → StKind) : planNotice s a.toNat n =
    if stageRoom s.cc then .acts [s.upd (.stagePush ⟨n (s.val a.toNat).toNat, [], s.cc.levels.length, false⟩)] else s.trap STAGEOVF := by
  refine (memIssue_goes hs (.inr hseg)).trans ?_
  cases stageRoom s.cc <;> rfl
/-- NODEQ and GLNCH are notices, which differ in the kind of their entry alone. -/
theorem exec_notice {i : Instr} (h : i = .nodeq a ∨ i = .glnch a) :
    ∃ n : Nat → StKind, exec i s = resolve s (planNotice s a.toNat n) := by
  rcases h with rfl | rfl
  · exact ⟨.nodeq, rfl⟩
  · exact ⟨.glnch, rfl⟩
end

/-- Settles O39: each clause is one branch of a channel word's plan, or of a notice's. -/
theorem channelWords : Obligations.ChannelWords := by
  intro s c a k hc
  have notice {i : Instr} {n : Nat → StKind} {tg : Tag} (he : exec i s = resolve s (planNotice s a.toNat n)) (hs : Sources s [a.toNat] tg)
      (hseg : s.inSeg = false) (hroom : stageRoom s.cc = true) : ∃ t, exec i s = .next t ∧
        Issued s t { s.cc with staging := s.cc.staging ++ [⟨n (s.val a.toNat).toNat, [], s.cc.levels.length, false⟩] } [] := by
    rw [planNotice_checked hs hseg, hroom, if_pos rfl] at he
    exact exec_updates_once _ hc he
  refine ⟨fun tg hs hw => ?_, fun tg hs hw => ?_, fun v hk hr hd hv => ?_, fun hk hr hd hv => ?_, fun h => ?_, fun q hq hn hk => ?_,
    fun hq => ?_, fun tg i n hs hseg hroom hi => ?_, fun tg i hs hseg hroom hi => ?_⟩
  · have hplan := planChwr_checked (c := c) hs
    rw [hw, if_pos rfl] at hplan
    exact exec_updates_once (i := .chwr c a) _ hc (congrArg (resolve s) hplan)
  · have hplan := planChwr_checked (c := c) hs
    rw [hw, if_neg Bool.false_ne_true] at hplan
    exact exec_traps (i := .chwr c a) _ hc (congrArg (resolve s) hplan)
  · have hplan := planChrd_reads (a := a) hk hr hd
    rw [hv] at hplan
    exact exec_schedules (i := .chrd c a k) hc _ (congrArg (resolve s) hplan)
  · have hplan := planChrd_reads (a := a) hk hr hd
    rw [hv] at hplan
    exact exec_schedules (i := .chrd c a k) hc _ (congrArg (resolve s) hplan)
  · exact exec_traps (i := .chrd c a k) _ hc (congrArg (resolve s) (planChrd_illegal h))
  · exact exec_schedules (i := .chpop c) hc _ (congrArg (resolve s) (planChpop_pops hq hn hk))
  · exact exec_traps (i := .chpop c) _ hc (congrArg (resolve s) (planChpop_unknown hq))
  · rcases hi with ⟨rfl, rfl⟩ | ⟨rfl, rfl⟩
    · exact notice (n := .nodeq) rfl hs hseg hroom
    · exact notice (n := .glnch) rfl hs hseg hroom
  · obtain ⟨n, he⟩ := exec_notice (s := s) hi
    rw [planNotice_checked hs hseg, hroom, if_neg Bool.false_ne_true] at he
    exact exec_traps _ hc he

end Sys2Proof.Machine
end

section
/-! SUPPORT. Releases of barrier tags, the end of a quantum and the freeze: a region put, and one list of updates for each of its cores
(R200, R235, R279, R301, R302, R304). -/

namespace Sys2Proof.Machine

open Sys2Proof.Claim hiding fits

/-! ## Releases (R200, R301) and quanta (R279) -/

/-- What a release of a tag does to a core (R200). -/
def releasing (c : Core) (tag : Nat) : List CAct := [.btPhase tag (!SMap.get false c.btPhase tag), .btArr tag false, .btOwed tag false]

theorem evBarrierRelease_eq (tag : Nat) (s : State) : evBarrierRelease tag s =
    .reg s.ctx (.btDue tag 0) :: s.rr.ids.flatMap fun id => (releasing (s.core id) tag).map (.core id) := rfl

/-- R200, R279, R301: a release is one update of the region and three of each core; the end of a quantum is one of the region. -/
theorem tagsReleaseAndQuantaExpire : Claim.TagsReleaseAndQuantaExpire := by
  intro s
  refine ⟨fun tag => ?_, ?_⟩
  · obtain ⟨hrest, hregion, hothers, hcores⟩ := applyAll_region (s := s) (ctx := s.ctx) (a := .btDue tag 0)
      (r := { s.rr with btDue := SMap.set 0 s.rr.btDue tag 0 }) (fun id => releasing (s.core id) tag) rfl s.rr.ids_nodup
    rw [← evBarrierRelease_eq] at hrest hregion hothers hcores
    have hctx : (s.applyAll (evBarrierRelease tag s)).ctx = s.ctx := by rw [State.ctx, hrest]; rfl
    refine ⟨_, rfl, ?_, ⟨fun id hid => ?_, fun id hid => ?_⟩, ?_, hothers⟩
    · exact hrest.trans (by rw [hrest])
    · exact (hcores id).trans (if_pos hid)
    · exact (hcores id).trans (if_neg hid)
    · rw [State.rr, hctx]; exact hregion
  · exact ⟨_, rfl, rfl, Act.reg_region_same s s.ctx _, fun x hx => Act.reg_region_other s _ hx⟩

/-! ## The freeze (R235, R302, R304) -/

/-- The region as a freeze leaves it. -/
def Region.froze (r : Region) : Region := { r with phase := .stopping, frozen := true, btDue := [], rdvDue := none, commitDue := none }
/-- A freeze clears the arrivals of every tag (R302). -/
def clearArrivals : List CAct := (List.range 8).map fun b => .btArr b false

theorem foldl_clearArrivals (c : Core) : clearArrivals.foldl CAct.apply c =
    { c with btArr := (List.range 8).foldl (fun m b => SMap.set false m b false) c.btArr } := by
  suffices h : ∀ (l : List Nat) (c : Core), (l.map fun b => CAct.btArr b false).foldl CAct.apply c =
      { c with btArr := l.foldl (fun m b => SMap.set false m b false) c.btArr } from h _ c
  intro l
  induction l with
  | nil => intro c; rfl
  | cons b l ih => intro c; exact ih _
theorem evFreeze_run {s : State} (h : s.rr.phase = .run) : evFreeze s =
    .reg s.ctx (.put s.rr.froze) :: .pkg (.walks (s.walks.map (Walk.unheld s.rr.ids))) ::
      s.rr.ids.flatMap fun id => clearArrivals.map (.core id) := by
  rw [evFreeze, if_neg (not_not.mpr h)]
  simp only [clearArrivals, List.map_map]
  rfl

/-- R235, R302, R304: a freeze of a running region puts the region, takes its held bundles out of the walks, and clears arrivals. -/
theorem runningRegionsFreeze : Claim.RegionsFreeze := by
  intro s
  refine ⟨fun h => ?_, fun h => ⟨s, congrArg (settle s) (if_pos h), rfl⟩⟩
  obtain ⟨m, hm⟩ : ∃ m : State, m = { s with
    regions := SMap.set {} s.regions s.ctx s.rr.froze, walks := s.walks.map (Walk.unheld s.rr.ids) } := ⟨_, rfl⟩
  obtain ⟨hrest, hcores⟩ := applyAll_cores _ m (each_isCore (fun _ => clearArrivals) s.rr.ids)
  have happly : s.applyAll (evFreeze s) = m.applyAll (s.rr.ids.flatMap fun id => clearArrivals.map (.core id)) := by
    rw [evFreeze_run h, hm]; rfl
  rw [← happly] at hrest hcores
  have hregion (x : Nat) : (s.applyAll (evFreeze s)).region x = if x = s.ctx then s.rr.froze else s.region x := by
    rw [State.region, hrest, hm]; exact SMap.get_set ({} : Region) s.rr.froze s.ctx x s.regions
  have hctx : (s.applyAll (evFreeze s)).ctx = s.ctx := by rw [State.ctx, hrest, hm]; rfl
  have hcore (id : Nat) : (s.applyAll (evFreeze s)).core id =
      (if id ∈ s.rr.ids then clearArrivals else []).foldl CAct.apply (s.core id) := by
    rw [hcores, updatesOf_each _ _ _ s.rr.ids_nodup, hm]; rfl
  refine ⟨_, rfl, ?_, ?_, ⟨fun id hid => ?_, fun id hid => ?_⟩, fun x hx => ?_⟩
  · rw [hrest, hm]; rfl
  · rw [State.rr, hctx, hregion, if_pos rfl]; rfl
  · rw [hcore, if_pos hid, foldl_clearArrivals]
  · rw [hcore, if_neg hid]; rfl
  · rw [hregion, if_neg hx]

/-- Settles O54: releases and quanta, and the freeze. -/
theorem regionsFreeze : Obligations.RegionsFreeze := ⟨tagsReleaseAndQuantaExpire, runningRegionsFreeze⟩

end Sys2Proof.Machine
end

section
/-! SUPPORT. Queue entries: when the head of an engine's queue starts, is skipped or faults, and how an entry completes (R173 to R175, R180,
R182, R294, R309). -/

namespace Sys2Proof.Machine

open Sys2Proof.Claim hiding fits

/-! ## The next dequeue cycle (R173, R181, R294) -/

/-- Alignment gives the first cycle from n on that lies on the divisor's grid. -/
theorem alignTo_spec {ibase d n : Nat} (hd : d ≠ 0) : ibase ≤ alignTo ibase d n ∧ n ≤ alignTo ibase d n ∧ (alignTo ibase d n - ibase) % d = 0 ∧
    ∀ m, ibase ≤ m → n ≤ m → (m - ibase) % d = 0 → alignTo ibase d n ≤ m := by
  have hd : 0 < d := Nat.pos_of_ne_zero hd
  have hround : n - ibase ≤ (n - ibase + d - 1) / d * d := by
    have hlt := Nat.lt_div_mul_add (a := n - ibase + d - 1) hd
    omega
  refine ⟨Nat.le_add_right _ _, ?_, ?_, fun m hm hn hmod => ?_⟩
  · unfold alignTo; omega
  · rw [alignTo, Nat.add_sub_cancel_left, Nat.mul_mod_left]
  · obtain ⟨k, hk⟩ := Nat.dvd_of_mod_eq_zero hmod
    have hle : (n - ibase + d - 1) / d ≤ k :=
      Nat.lt_succ_iff.mp ((Nat.div_lt_iff_lt_mul hd).mpr (by rw [Nat.succ_mul, Nat.mul_comm k]; omega))
    have hmul : (n - ibase + d - 1) / d * d ≤ k * d := Nat.mul_le_mul_right d hle
    have hkd : k * d = m - ibase := by rw [hk, Nat.mul_comm]
    unfold alignTo; omega
/-- The first cycle that the occupancy of the last step and the pacing gap leave to an engine. -/
def lowestStart (g : Engine) : Nat := max g.freeAt ((g.lastH.map (· + g.pace)).getD 0)
theorem nextFree_iff {s : State} {e n : Nat} : nextFree s e n ↔ s.rr.ibase ≤ n ∧ lowestStart (s.cc.eng e) ≤ n ∧
    (n - s.rr.ibase) % s.cc.divisor (e + 1) = 0 ∧
    ∀ m, s.rr.ibase ≤ m → lowestStart (s.cc.eng e) ≤ m → (m - s.rr.ibase) % s.cc.divisor (e + 1) = 0 → n ≤ m := by
  dsimp only [nextFree, lowestStart]
  cases (s.cc.eng e).lastH <;> exact Iff.rfl
theorem nextDequeue_eq {s : State} {e h : Nat} (hd : s.cc.divisor (e + 1) ≠ 0) (hfree : nextFree s e h) : nextDequeue s e = h := by
  obtain ⟨hbase, hle, hgrid, hfirst⟩ := nextFree_iff.mp hfree
  obtain ⟨abase, ale, agrid, afirst⟩ := alignTo_spec (ibase := s.rr.ibase) (n := lowestStart (s.cc.eng e)) hd
  exact Nat.le_antisymm (afirst h hbase hle hgrid) (hfirst _ abase ale agrid)

/-! ## What an entry waits for (R174) -/

section
variable {c : Core} {q : QEntry}

theorem startBlock_ready (htok : ∀ x, q.wtok = some x → SMap.get 0 c.tokens x ≠ 0)
    (hguard : ∀ p, q.guard = some p → (SMap.get ({} : Pred) c.preds p).written = true) : startBlock c q = none := by
  have hg : startBlock.guardBlock c q = none := by
    unfold startBlock.guardBlock
    split
    · next p hp => exact if_pos (hguard p hp)
    · rfl
  unfold startBlock
  split
  · next x hx => rw [if_neg (htok x hx), hg]
  · exact hg
theorem startBlock_token {x : Nat} (hw : q.wtok = some x) (h : SMap.get 0 c.tokens x = 0) : startBlock c q = some (10, x) := by
  simp only [startBlock, hw, h, if_true]
theorem startBlock_guard {p : Nat} (hw : q.wtok = none) (hg : q.guard = some p) (h : (SMap.get ({} : Pred) c.preds p).written = false) :
    startBlock c q = some (3, p) := by
  simp only [startBlock, startBlock.guardBlock, hw, hg, h, Bool.false_eq_true, if_false]
end

/-! ## What a start does (R173, R174, R180) -/

section
variable {s : State} {e : Nat} {q : QEntry}

/-- The update by which an entry takes the token that it waits for. -/
def takesToken (q : QEntry) : List CAct := q.wtok.toList.map .tokenSub
/-- The engine with its head running from this cycle, and with its head skipped. -/
def Engine.startedAt (g : Engine) (q : QEntry) (cyc : Nat) : Engine :=
  { g with running := true, step := q.base, rep := q.reps, due := cyc, headSeq := g.seq, lastH := some cyc, doneAt := 0, copies := 0, blocked := false }
def Engine.skippedAt (g : Engine) (cyc : Nat) : Engine :=
  { g with queue := g.queue.drop 1, headSeq := g.seq, seq := g.seq + 1, lastH := some cyc, freeAt := cyc + 1 }

theorem startActs_runs (hv : ∀ p, q.guard = some p → (SMap.get ({} : Pred) s.cc.preds p).value = true) :
    startActs s e q = (takesToken q ++ [CAct.eng e ((s.cc.eng e).startedAt q s.cyc)]).map s.upd := by
  cases hg : q.guard with
  | none =>
    simp only [startActs, hg, Bool.false_eq_true, if_false, takesToken, List.map_append]
    cases q.wtok <;> rfl
  | some p =>
    simp only [startActs, hg, hv p hg, Bool.not_true, Bool.false_eq_true, if_false, takesToken, List.map_append]
    cases q.wtok <;> rfl
theorem startActs_skips (hs : q.stok = none) {p : Nat} (hp : q.guard = some p) (hv : (SMap.get ({} : Pred) s.cc.preds p).value = false) :
    startActs s e q = (takesToken q ++ [CAct.eng e ((s.cc.eng e).skippedAt s.cyc)]).map s.upd := by
  simp only [startActs, hp, hv, hs, Bool.not_false, if_true, takesToken, List.map_append]
  cases q.wtok <;> rfl

/-- Taking its token leaves every engine as before. -/
theorem takesToken_eng (c : Core) (q : QEntry) (e : Nat) : ((takesToken q).foldl CAct.apply c).eng e = c.eng e := by
  unfold takesToken
  cases q.wtok <;> rfl

/-! ## QUEUE_ENTRY_START (R173, R309) -/

variable {more : List QEntry} {h : Nat}

theorem evQueueEntryStart_faulted (ha : s.actor = .engine e) (hq : (s.cc.eng e).queue = q :: more) (hf : q.faulted = true) :
    evQueueEntryStart s = [] := by
  simp only [evQueueEntryStart, ha, hq, List.head?_cons, hf, true_or, or_true, if_true]
theorem evQueueEntryStart_starts (ha : s.actor = .engine e) (hq : (s.cc.eng e).queue = q :: more) (hr : (s.cc.eng e).running = false)
    (hf : q.faulted = false) (hnow : startsNow s e q = true) (hb : q.timed = true → timedBlock s e q = none) :
    evQueueEntryStart s = startActs s e q := by
  have hblock : (if q.timed then timedBlock s e q else none) = none := by
    split
    · next ht => exact hb ht
    · rfl
  simp only [evQueueEntryStart, ha, hq, List.head?_cons, hr, hf, hnow, hblock, Bool.not_true, Bool.false_eq_true, or_self, if_false]
theorem evQueueEntryStart_blocked (ha : s.actor = .engine e) (hq : (s.cc.eng e).queue = q :: more) (hr : (s.cc.eng e).running = false)
    (hf : q.faulted = false) (hnow : startsNow s e q = true) (ht : q.timed = true) {cause obj : Nat}
    (hb : timedBlock s e q = some (cause, obj)) : evQueueEntryStart s = .reg s.ctx (.raise (startFault s e cause obj q)) ::
      [CAct.eng e { s.cc.eng e with queue := { q with faulted := true } :: more }].map s.upd := by
  simp only [evQueueEntryStart, ha, hq, List.head?_cons, hr, hf, hnow, ht, hb, Bool.not_true, Bool.false_eq_true, or_self, if_false, if_true,
    List.drop_succ_cons, List.drop_zero, List.map_cons, List.map_nil]

theorem startsNow_timed (ht : q.timed = true) (hst : s.rr.ibase + q.stamp ≤ s.cyc) : startsNow s e q = true := by
  rw [startsNow, ht, decide_eq_true hst]; rfl
theorem startsNow_elastic (hst : s.rr.ibase + q.stamp ≤ s.cyc) (hle : nextDequeue s e ≤ s.cyc)
    (hgrid : (s.cyc - s.rr.ibase) % s.cc.divisor (e + 1) = 0) (hb : startBlock s.cc q = none) : startsNow s e q = true := by
  rw [startsNow, decide_eq_true hst, decide_eq_true hle, decide_eq_true hgrid, hb]
  exact Bool.or_true _
theorem timedBlock_late (hgrid : q.stamp % s.cc.divisor (e + 1) = 0) (h : s.rr.ibase + q.stamp < s.cyc ∨ s.cyc < nextDequeue s e) :
    timedBlock s e q = some (5, e) := by
  rw [timedBlock, if_neg (not_not.mpr hgrid), if_pos h]
theorem timedBlock_onTime (hgrid : q.stamp % s.cc.divisor (e + 1) = 0) (hst : s.rr.ibase + q.stamp = s.cyc) (hle : nextDequeue s e ≤ s.cyc) :
    timedBlock s e q = startBlock s.cc q := by
  rw [timedBlock, if_neg (not_not.mpr hgrid), if_neg (not_or.mpr ⟨Nat.not_lt.mpr hst.ge, Nat.not_lt.mpr hle⟩)]
end

/-- R173, R174, R180, R182, R309: the head starts or is skipped where nothing blocks it, and else raises what blocks it. -/
theorem entriesStart : Claim.EntriesStart := by
  intro s e h q more ha _ hq hr hd hfree hst
  have hnext := nextDequeue_eq hd hfree
  refine ⟨fun hf => congrArg (settle s) (evQueueEntryStart_faulted ha hq hf), fun hf hs hel htm htok hguard => ?_,
    fun cause obj hf ht hgrid hcause => ?_⟩
  · intro c
    have hready := startBlock_ready htok hguard
    have hnow : startsNow s e q = true := by
      cases ht : q.timed with
      | true => exact startsNow_timed ht hst
      | false =>
        obtain ⟨hle, hgrid⟩ := hel ht
        exact startsNow_elastic hst (hnext.le.trans hle) hgrid hready
    have hb (ht : q.timed = true) : timedBlock s e q = none := by
      obtain ⟨hstamp, hle, hgrid⟩ := htm ht
      rw [timedBlock_onTime hgrid hstamp (hnext.le.trans hle), hready]
    have hev := evQueueEntryStart_starts ha hq hr hf hnow hb
    have runs (g : Engine) (hacts : startActs s e q = (takesToken q ++ [CAct.eng e g]).map s.upd) :
        ∃ t, exec .queueEntryStart s = .next t ∧ OnlyCore s t s.cur (((takesToken q).foldl CAct.apply s.cc).setEng e g) := by
      have honly := onlyCore_upds s (takesToken q ++ [CAct.eng e g])
      rw [List.foldl_append] at honly
      exact ⟨_, congrArg (settle s) (hev.trans hacts), honly⟩
    have heng := takesToken_eng s.cc q e
    have hc : (takesToken q).foldl CAct.apply s.cc = c := by
      simp only [c, takesToken]
      cases q.wtok <;> rfl
    rw [hc] at runs heng
    clear_value c
    refine ⟨fun hv => ?_, fun p hp hv => ?_⟩
    · rw [started, heng]; exact runs _ (startActs_runs hv)
    · rw [heng]
      have hskips := startActs_skips (e := e) hs hp hv
      rw [Engine.skippedAt, hq] at hskips
      exact runs _ hskips
  · have hblock : timedBlock s e q = some (cause, obj) := by
      rcases hcause with ⟨rfl, rfl, hlate⟩ | ⟨hstamp, hle, rfl, hw, hzero⟩ | ⟨hstamp, hle, rfl, hw, hg, hwritten⟩
      · exact timedBlock_late hgrid (hlate.imp_right fun hlt => hnext ▸ hlt)
      · rw [timedBlock_onTime hgrid hstamp (hnext.le.trans hle), startBlock_token hw hzero]
      · rw [timedBlock_onTime hgrid hstamp (hnext.le.trans hle), startBlock_guard hw hg hwritten]
    have hev := evQueueEntryStart_blocked ha hq hr hf (startsNow_timed ht hst) ht hblock
    obtain ⟨hcore, hmem, hregion, -⟩ := applyAll_reg_upds s (.raise (startFault s e cause obj q))
      [.eng e { s.cc.eng e with queue := { q with faulted := true } :: more }]
    exact ⟨_, startFault s e cause obj q, congrArg (settle s) hev, rfl, rfl, rfl, rfl, rfl, rfl, rfl, hcore, hregion, hmem⟩

/-! ## ENTRY_COMPLETION (R175, R182) -/

section
variable {s : State} {e : Nat} {f : Finishing}

/-- The update by which a finished entry leaves its engine's list. -/
def leavesList (s : State) (e : Nat) (f : Finishing) : CAct :=
  .eng e { s.cc.eng e with finishing := (s.cc.eng e).finishing.filter fun x => x.serial ≠ f.serial }
/-- The trap of a token that can count no further (R182, R309). -/
def tokenFault (s : State) (e x : Nat) (f : Finishing) : FaultInfo :=
  { code := SCHED, core := s.cur, eng := e, fseq := f.seq.toNat, timed := f.timed, wobj := 7, wval1 := s.cyc, wval2 := x }

theorem evEntryCompletion_silent (ha : s.actor = .engine e)
    (hfind : ((s.cc.eng e).finishing.find? fun f => f.copies = 0 && decide (f.doneAt ≤ s.cyc)) = some f) (hs : f.stok = none) :
    evEntryCompletion s = [leavesList s e f].map s.upd := by
  have hfind : ((s.cc.eng e).finishing.find? fun f => f.ended s.cyc) = some f := hfind
  simp only [evEntryCompletion, ha, hfind, hs]; rfl
theorem evEntryCompletion_signals (ha : s.actor = .engine e)
    (hfind : ((s.cc.eng e).finishing.find? fun f => f.copies = 0 && decide (f.doneAt ≤ s.cyc)) = some f) {x : Nat} (hs : f.stok = some x) :
    evEntryCompletion s = s.upd (leavesList s e f) :: if SMap.get 0 s.cc.tokens x < 255 then [s.upd (.token x (SMap.get 0 s.cc.tokens x + 1))]
      else [.reg s.ctx (.raise (tokenFault s e x f))] := by
  have hfind : ((s.cc.eng e).finishing.find? fun f => f.ended s.cyc) = some f := hfind
  simp only [evEntryCompletion, ha, hfind, hs]; rfl
end

theorem Core.setEng_tokens (c : Core) (e : Nat) (g : Engine) : (c.setEng e g).tokens = c.tokens := by
  unfold Core.setEng
  split_ifs <;> rfl
theorem Core.setEng_levels (c : Core) (e : Nat) (g : Engine) : (c.setEng e g).levels = c.levels := by
  unfold Core.setEng
  split_ifs <;> rfl
theorem Core.setEng_seg (c : Core) (e : Nat) (g : Engine) : (c.setEng e g).seg = c.seg := by
  unfold Core.setEng
  split_ifs <;> rfl

/-- An update of an engine of the acting core, and then a fault of that core. -/
theorem applyAll_eng_raise (s : State) (e : Nat) (g : Engine) {f : FaultInfo} (hf : f.core = s.cur) :
    let t := s.applyAll [s.upd (.eng e g), .reg s.ctx (.raise f)]
    t.cc = s.cc.setEng e g ∧ t.mem = s.mem ∧ t.rr = RAct.apply s s.rr (.raise f) := by
  obtain ⟨m, hm⟩ : ∃ m, m = Act.apply s (s.upd (.eng e g)) := ⟨_, rfl⟩
  have hcore : m.core s.cur = s.cc.setEng e g := by rw [hm]; exact Act.core_core_same s s.cur _
  have hregion : m.region s.ctx = s.rr := by rw [hm]; rfl
  have hcur : m.cur = s.cur := by rw [hm]; rfl
  have hraise : RAct.apply m s.rr (.raise f) = RAct.apply s s.rr (.raise f) := by
    simp only [RAct.apply_raise, hf, hcore, Core.setEng_levels, Core.setEng_seg]
    rw [hm]; rfl
  simp only [State.applyAll_cons, State.applyAll_nil, ← hm]
  refine ⟨?_, ?_, ?_⟩
  · rw [State.cc, Act.reg_cur, Act.reg_core, hcur, hcore]
  · rw [Act.reg_mem, hm]; rfl
  · have hctx : (Act.apply m (.reg s.ctx (.raise f))).ctx = s.ctx := congrArg (· / 2048) ((Act.reg_cur m s.ctx _).trans hcur)
    rw [State.rr, hctx, Act.reg_region_same, hregion, hraise]

/-- R175, R182: the entry leaves its list, and its token counts up or raises SCHED. -/
theorem entriesComplete : Claim.EntriesComplete := by
  intro s e f ha _ hfind
  refine ⟨fun hs => ?_, fun x hs hlt => ?_, fun x hs hle => ?_⟩
  · exact ⟨_, congrArg (settle s) (evEntryCompletion_silent ha hfind hs), onlyCore_upds s [leavesList s e f]⟩
  · have hev := evEntryCompletion_signals ha hfind hs
    rw [if_pos hlt] at hev
    have honly := onlyCore_upds s [leavesList s e f, .token x (SMap.get 0 s.cc.tokens x + 1)]
    simp only [List.foldl, leavesList, CAct.apply_eng, CAct.apply_token, Core.setEng_tokens] at honly
    exact ⟨_, congrArg (settle s) hev, honly⟩
  · have hev := evEntryCompletion_signals ha hfind hs
    rw [if_neg (Nat.not_lt.mpr hle)] at hev
    obtain ⟨hcore, hmem, hregion⟩ := applyAll_eng_raise s e
      { s.cc.eng e with finishing := (s.cc.eng e).finishing.filter fun x => x.serial ≠ f.serial } (f := tokenFault s e x f) rfl
    exact ⟨_, tokenFault s e x f, congrArg (settle s) hev, hcore, hmem, hregion, rfl, rfl, rfl, rfl, rfl, rfl⟩

/-- Settles O50: the starts, and the completions. -/
theorem entriesStartAndComplete : Obligations.EntriesStartAndComplete := ⟨entriesStart, entriesComplete⟩

end Sys2Proof.Machine
end

section
/-! SUPPORT. The points of a copy window: how many there are, where each lies, and which are inside (R189). -/

namespace Sys2Proof.Machine

/-- One position list for each choice of a position in each dimension. -/
theorem length_windows (l : List Nat) : (windows l).length = l.prod := by
  induction l with
  | nil => rfl
  | cons n ns ih =>
    rw [windows, List.length_flatMap]
    simp only [List.length_map, List.length_range, List.map_const', List.sum_replicate, smul_eq_mul, ih, List.prod_cons]
    exact Nat.mul_comm _ _
/-- A position list has a position below the window's size in each dimension. -/
theorem getD_of_mem_windows {l : List Nat} : ∀ {ws : List Nat}, ws ∈ windows l → ∀ d, d < l.length → ws.getD d 0 < l.getD d 0 := by
  induction l with
  | nil => intro ws _ d hd; exact absurd hd (Nat.not_lt_zero d)
  | cons n ns ih =>
    intro ws hws d hd
    obtain ⟨t, ht, hw⟩ := List.mem_flatMap.mp hws
    obtain ⟨w, hlt, rfl⟩ := List.mem_map.mp hw
    cases d with
    | zero => exact List.mem_range.mp hlt
    | succ d => exact ih ht d (Nat.lt_of_succ_lt_succ hd)

section
variable {m : TMap} {b : Nat}

/-- The coordinate of a position in a dimension (R189). -/
def TMap.coordinate (m : TMap) (b : Nat) (ws : List Nat) (d : Nat) : Int :=
  ((originOf b d + ws.getD d 0 * (m.dim d).dil : Nat) : Int) - (m.dim d).padb
/-- A point has its coordinates from one position list, and is inside where all of them are. -/
theorem mem_points {p : Pt} (hp : p ∈ m.points b) : ∃ ws ∈ windows (m.used.map Dim.win),
    p.xs = (List.range m.ndim).map (m.coordinate b ws) ∧
    p.inside = (List.range m.ndim).all fun d => decide (0 ≤ p.xs.getD d 0 ∧ p.xs.getD d 0 < (m.dim d).ext) := by
  obtain ⟨ws, hws, rfl⟩ := List.mem_map.mp hp
  exact ⟨ws, hws, rfl, rfl⟩

/-- The window size of a dimension in use. -/
theorem getD_used_win (hdims : m.ndim ≤ m.dims.length) {d : Nat} (hd : d < m.ndim) :
    d < (m.used.map Dim.win).length ∧ (m.used.map Dim.win).getD d 0 = (m.dim d).win := by
  have hlen : d < m.used.length := by rw [TMap.used, List.length_take]; omega
  refine ⟨by rwa [List.length_map], ?_⟩
  rw [List.getD_eq_getElem _ _ (by rwa [List.length_map]), List.getElem_map, TMap.dim, List.getD_eq_getElem _ _ (by omega)]
  exact congrArg Dim.win List.getElem_take
end

/-- Settles O33: a point is the image of a position list, whose positions are those of the window. -/
theorem windowPoints : Obligations.WindowPoints := by
  intro m b hdims
  refine ⟨?_, fun p hp => ?_⟩
  · rw [TMap.points, List.length_map, length_windows]; rfl
  · obtain ⟨ws, hws, hxs, hin⟩ := mem_points hp
    have hlen : p.xs.length = m.ndim := by rw [hxs, List.length_map, List.length_range]
    refine ⟨hlen, fun d hd => ?_, ?_⟩
    · obtain ⟨hlt, hwin⟩ := getD_used_win hdims hd
      refine ⟨ws.getD d 0, hwin ▸ getD_of_mem_windows hws d hlt, ?_⟩
      rw [List.getD_eq_getElem _ _ (hlen ▸ hd)]
      simp only [hxs, List.getElem_map, List.getElem_range]
      rfl
    · rw [hin, List.all_eq_true]
      simp only [List.mem_range, decide_eq_true_eq]

end Sys2Proof.Machine
end

section
/-! SUPPORT. The copy words as CP executes them: the copy that each puts in flight, what it has due, and what a copy word that may not go on
raises (R186 to R195, R297, R298). -/

namespace Sys2Proof.Machine

open Sys2Proof.Claim hiding fits

/-! ## What a copy step changes (R186, R298) -/

/-- From s to t nothing changed but the acting core, the stacks' use and the acting region, which has the copies cs more in flight, the
entries ev more due, and its links claimed anew where lk gives claims; the package's agenda gained gs, with n free values used. -/
structure Copying (s t : State) (cs : List Copy) (ev : List (Key × Item)) (lk : Option (List Claim)) (gs : List (Nat × GItem)) (n : Nat) :
    Prop where
  rest : t = { s with cores := t.cores, regions := t.regions, agenda := laterWith s.agenda gs, freeCtr := s.freeCtr + n, hbmUse := t.hbmUse }
  cores : ∀ id, id ≠ s.cur → t.core id = s.core id
  regions : ∀ x, x ≠ s.ctx → t.region x = s.region x
  region : t.region s.ctx = { s.region s.ctx with copies := (s.region s.ctx).copies ++ cs
                                                  agenda := agendaWith (s.region s.ctx).agenda ev
                                                  links := lk.getD (s.region s.ctx).links }

theorem Local.copying {s t : State} {ev gs n} (h : Local s t ev gs n) : Copying s t [] ev none gs n := by
  refine ⟨?_, h.cores, h.regions, ?_⟩
  · have hrest := h.rest
    have huse : t.hbmUse = s.hbmUse := by rw [hrest]
    rw [huse]; exact hrest
  · rw [h.region, List.append_nil]; rfl
theorem copying_push (s : State) (c : Copy) : Copying s (Act.apply s (.reg s.ctx (.copyPush c))) [c] [] none [] 0 :=
  ⟨rfl, fun _ _ => rfl, fun _ hx => Act.reg_region_other s _ hx, Act.reg_region_same s s.ctx _⟩
theorem copying_hold (s : State) (x : List Claim) : Copying s (Act.apply s (.reg s.ctx (.hold x))) [] [] (some x) [] 0 := by
  refine ⟨rfl, fun _ _ => rfl, fun _ hx => Act.reg_region_other s _ hx, (Act.reg_region_same s s.ctx _).trans ?_⟩
  rw [List.append_nil]; rfl
theorem copying_use (s : State) (u : List (Nat × Nat × Nat)) : Copying s (Act.apply s (.pkg (.hbmUse u))) [] [] none [] 0 := by
  refine ⟨rfl, fun _ _ => rfl, fun _ _ => rfl, ?_⟩
  rw [List.append_nil]; rfl

namespace Copying
variable {s t u : State} {cs ds : List Copy} {ev ew : List (Key × Item)} {lk ll : Option (List Claim)} {gs hs : List (Nat × GItem)} {n k : Nat}

theorem cur (h : Copying s t cs ev lk gs n) : t.cur = s.cur := by rw [h.rest]
theorem ctx (h : Copying s t cs ev lk gs n) : t.ctx = s.ctx := congrArg (· / 2048) h.cur
theorem actor (h : Copying s t cs ev lk gs n) : t.actor = s.actor := by rw [h.rest]
/-- One such change after another. -/
theorem trans (h1 : Copying s t cs ev lk gs n) (h2 : Copying t u ds ew ll hs k) :
    Copying s u (cs ++ ds) (ev ++ ew) (ll.or lk) (gs ++ hs) (n + k) := by
  refine ⟨?_, fun id hid => ?_, fun x hx => ?_, ?_⟩
  · have hrest := h2.rest
    rw [h1.rest] at hrest
    simp only [laterWith, List.foldl_append, Nat.add_assoc] at *
    exact hrest
  · rw [h2.cores id (by rwa [h1.cur]), h1.cores id hid]
  · rw [h2.regions x (by rwa [h1.ctx]), h1.regions x hx]
  · have hregion := h2.region
    rw [h1.ctx, h1.region] at hregion
    rw [hregion]
    simp only [agendaWith, List.foldl_append, List.append_assoc]
    cases ll <;> rfl
end Copying

/-- Claims of links and uses of the stacks leave the acting core alone. -/
theorem copying_shared (lk : Option (List Claim)) {use : List Act} (huse : ∀ a ∈ use, ∃ u, a = .pkg (.hbmUse u)) : ∀ s : State,
    Copying s (s.applyAll (lk.toList.map (fun x => .reg s.ctx (.hold x)) ++ use)) [] [] lk [] 0 ∧
      (s.applyAll (lk.toList.map (fun x => .reg s.ctx (.hold x)) ++ use)).cc = s.cc := by
  have uses : ∀ {use : List Act}, (∀ a ∈ use, ∃ u, a = .pkg (.hbmUse u)) → ∀ s : State,
      Copying s (s.applyAll use) [] [] none [] 0 ∧ (s.applyAll use).cc = s.cc := by
    intro use
    induction use with
    | nil => intro _ s; exact ⟨(Local.refl s).copying, rfl⟩
    | cons a use ih =>
      intro h s
      obtain ⟨u, rfl⟩ := h a List.mem_cons_self
      obtain ⟨hcopying, hcc⟩ := ih (fun b hb => h b (List.mem_cons_of_mem _ hb)) (Act.apply s (.pkg (.hbmUse u)))
      exact ⟨(copying_use s u).trans hcopying, hcc⟩
  intro s
  cases lk with
  | none => exact uses huse s
  | some x =>
    obtain ⟨hcopying, hcc⟩ := uses huse (Act.apply s (.reg s.ctx (.hold x)))
    exact ⟨(copying_hold s x).trans hcopying, hcc⟩

/-- What retires a step: the step counter moves on, and the micro-order is kept (R75, R173). -/
theorem applyAll_retireStep (s : State) (e : Nat) : Local s (s.applyAll (retireStep s e)) [] ∧
    (s.applyAll (retireStep s e)).cc =
      { s.cc.setEng e (s.cc.eng e).advance with segBuf := s.cc.segBuf ++ [(e, (s.cc.micro e).toNat)] } := by
  obtain ⟨hlocal, hcc⟩ := applyAll_local (retireStep s e) (s := s) fun a ha => by
    simp only [retireStep, State.upd, List.mem_cons, List.not_mem_nil, or_false] at ha
    rcases ha with rfl | rfl <;> rfl
  refine ⟨hlocal, hcc.trans ?_⟩
  simp only [retireStep, Core.after, coreActs, State.upd, List.foldl, CAct.apply_segBuf, CAct.apply_eng, Core.setEng]
  split_ifs <;> rfl

/-- A STEP OF CP that puts a copy in flight, makes local updates, and claims links and stacks. -/
theorem resolve_copying {s : State} (ha : s.actor = .engine 2) (c : Copy) {l : List Act} (hl : ∀ a ∈ l, a.isLocal s)
    (lk : Option (List Claim)) {use : List Act} (huse : ∀ a ∈ use, ∃ u, a = .pkg (.hbmUse u)) :
    ∃ t, resolve s (.acts (.reg s.ctx (.copyPush c) :: l ++ (lk.toList.map (fun x => .reg s.ctx (.hold x)) ++ use))) = .next t ∧
      Copying s t [c] (schedActs l) lk (laterActs l) (freeActs l) ∧
      t.cc = { (s.cc.after l).setEng 2 ((s.cc.after l).eng 2).advance with
        segBuf := (s.cc.after l).segBuf ++ [(2, ((s.cc.after l).micro 2).toNat)] } := by
  have hpush := copying_push s c
  obtain ⟨p, hp⟩ : ∃ p, p = Act.apply s (.reg s.ctx (.copyPush c)) := ⟨_, rfl⟩
  rw [← hp] at hpush
  have hpcc : p.cc = s.cc := by rw [State.cc, hpush.cur, hp]; rfl
  obtain ⟨hlocal, hlcc⟩ := applyAll_local l fun a h => Act.isLocal_of hpush.cur (hl a h)
  have hmid := hpush.trans hlocal.copying
  obtain ⟨hshared, hscc⟩ := copying_shared lk huse (p.applyAll l)
  rw [hmid.ctx] at hshared hscc
  have hall := hmid.trans hshared
  obtain ⟨hretire, hrcc⟩ := applyAll_retireStep ((p.applyAll l).applyAll (lk.toList.map (fun x => .reg s.ctx (.hold x)) ++ use)) 2
  refine ⟨_, rfl, ?_, ?_⟩
  · have h := hall.trans hretire.copying
    simp only [List.append_nil, List.nil_append, Nat.add_zero, Nat.zero_add, Option.or_none, Option.none_or, State.applyAll_append] at h
    simp only [Plan.run, ha, State.applyAll_append, State.applyAll_cons, List.cons_append, ← hp]
    exact h
  · rw [hscc, hlcc, hpcc] at hrcc
    simp only [Plan.run, ha, State.applyAll_append, State.applyAll_cons, List.cons_append, ← hp]
    simp only [State.applyAll_append] at hrcc
    exact hrcc

/-! ## What a copy word reads (R186, R187, R190) -/

section
variable {s : State} {i : Instr} {a b : BitVec 6} {tg : Tag} {m : TMap} {store : Bool}

theorem copyStep_ok (h : CopySources s a b tg) (absent : Nat) (body : Plan) : copyStep s i a.toNat b.toNat absent body = body := by
  obtain ⟨ha, ht, hp, hca, hcb⟩ := h
  unfold State.tag at ht
  unfold State.bad at hca hcb
  simp only [copyStep, ha, ht, hp, hca, hcb, Bool.not_true, Bool.false_eq_true, if_false, or_self]
theorem withMap_ok (h : mapRead s a store m) (k : TMap → Plan) : withMap s a.toNat store k = k m := by
  obtain ⟨off, hd, -, ho, har, he, rfl, hl⟩ := h
  simp only [withMap, hd, ho, har, he, hl, Bool.false_eq_true, ne_eq, not_true_eq_false, or_self, if_false, if_true]
theorem withMoves_ok {r : MvRes} {ms : List Mv} (hr : r = .ok ms) (hb : firstBarred s ms = none) (k : List Mv → Plan) :
    withMoves s r k = k ms := by
  simp only [withMoves, hr, hb]
end

/-! ## The translations that a copy used (R235) -/

/-- The core's translations after a copy has used those of some places: these first. -/
def State.retouched (s : State) (l : List Loc) : List TlbEnt :=
  s.cc.tlb.filter (s.pagesOf l).contains ++ s.cc.tlb.filter fun e => !(s.pagesOf l).contains e
theorem mem_retouched (s : State) (l : List Loc) (x : TlbEnt) : x ∈ s.retouched l ↔ x ∈ s.cc.tlb := by
  rw [State.retouched, List.mem_append, List.mem_filter, List.mem_filter, ← and_or_left]
  exact and_iff_left (by cases (s.pagesOf l).contains x <;> simp)
/-- Places of scratchpad use no translation. -/
theorem retouched_of_noKeys (s : State) {l : List Loc} (h : gmKeys l = []) : s.retouched l = s.cc.tlb := by
  have hpages : s.pagesOf l = [] := by
    rw [State.pagesOf, h]
    simp only [List.any_nil, Bool.and_false, List.filter_false]
  rw [State.retouched, hpages]
  simp

/-! ## Stacks and links of a package where no other copy is (R298) -/

theorem stackPlan_uses (s : State) (l : List Loc) : ∀ x ∈ (stackPlan s l).2, ∃ u, x = .pkg (.hbmUse u) := by
  intro x hx
  unfold stackPlan at hx
  dsimp only at hx
  split_ifs at hx with hm
  · cases hx
  · exact ⟨_, List.mem_singleton.mp hx⟩
theorem useAt_le (c : Nat) (u : Nat × Nat × Nat) : useAt c u ≤ 64 := by
  unfold useAt
  split_ifs with hlt
  · exact Nat.zero_le 64
  · exact Nat.min_le_left 64 _
/-- A copy alone fills no stack: at 64 bytes a cycle it takes less than the 4,096 that a stack delivers. -/
theorem stackPlan_late {s : State} (h : s.hbmUse = []) (l : List Loc) : (stackPlan s l).1 = false := by
  unfold stackPlan
  rw [List.any_eq_false]
  intro u _
  rw [h, stackFull, Bool.not_eq_true, List.any_eq_false]
  intro i _
  have := useAt_le (u.2.1 + i) u
  simp only [List.filter_nil, List.map_cons, List.map_nil, List.sum_cons, List.sum_nil, decide_eq_true_eq]
  omega
/-- Where nothing is held, a claim takes each link when it comes to it. -/
theorem place_nil_late (k : Claim) : (k.place []).late = k.late := by
  have hwait : ∀ (l : List (Nat × Nat)) (p : Nat × List (Nat × Nat)), p.1 = 0 →
      (l.foldl (fun p g => (freeFrom [] g.1 k.beats 0 (g.2 + p.1) - g.2, p.2 ++ [(g.1, freeFrom [] g.1 k.beats 0 (g.2 + p.1))])) p).1 = 0 := by
    intro l
    induction l with
    | nil => intro p hp; exact hp
    | cons g l ih =>
      intro p hp
      refine ih _ ?_
      exact (congrArg (fun n => g.2 + n - g.2) hp).trans (Nat.sub_self g.2)
  have h0 := hwait k.legs (0, []) rfl
  simp only [Claim.place, List.length_nil, h0, ne_eq, not_true_eq_false, decide_false, Bool.or_false]
/-- A copy alone on its links waits for none. -/
theorem linkLate_claim_alone {r u : Region} {k : Claim} (hu : u.links = r.claim k) (hr : r.links = []) (hk : k.late = false) (c : Copy) :
    u.linkLate c = false := by
  rw [Region.linkLate, hu, Region.claim, hr]
  simp only [List.filter_nil, insertClaim, placeClaims, List.any_cons, List.any_nil, Bool.or_false, place_nil_late, hk, Bool.and_false]

/-! ## A copy begins -/

theorem Copying.begins {s t : State} {c : Copy} {ev lk gs n} {core : Core} (h : Copying s t [c] ev lk gs n)
    (hcc : t.cc = { core.setEng 2 (core.eng 2).advance with segBuf := core.segBuf ++ [(2, (core.micro 2).toNat)] })
    (hmicro : core.micro 2 = s.cc.micro 2) : Begins s t c ev core gs n ∧ (t.region s.ctx).links = lk.getD s.rr.links := by
  have hlinks : (t.region s.ctx).links = lk.getD s.rr.links := by rw [h.region]; rfl
  refine ⟨⟨h.rest, ?_, h.regions, ?_, h.cores⟩, hlinks⟩
  · rw [hlinks, h.region]; rfl
  · rw [hcc, hmicro]
section
variable {s : State} {i : Instr} {c : Copy} {occ perf : Nat} {ev : Nat → Instr}

/-- The updates of the acting core and the entries due as a timed copy starts. -/
def timedActs (s : State) (c : Copy) (occ perf : Nat) (ev : Nat → Instr) : List Act :=
  [s.upd .bumpSerial, touched s (placesOf c.moves),
    .reg s.ctx (.sched { s.key (s.cyc + if c.moves.any Mv.global then 8 else 2) 0 with phase := 3 } (.copySample s.cur c.serial)),
    .reg s.ctx (.sched { c.key s.rr with due := s.cyc + perf } (.ev s.cur s.actor (ev c.serial))),
    s.upd (.stepDone s.unit (s.cyc + occ * s.mul) (s.cyc + perf) 0)]
theorem startTimed_eq (extra : List Act) :
    startTimed s c occ perf ev extra = .acts (.reg s.ctx (.copyPush c) :: timedActs s c occ perf ev ++ extra) := rfl
theorem timedActs_isLocal : ∀ x ∈ timedActs s c occ perf ev, x.isLocal s := by
  simp [timedActs, State.upd, touched, Act.isLocal]
theorem after_timedActs (ha : s.actor = .engine 2) :
    s.cc.after (timedActs s c occ perf ev) = takesTimed s (s.retouched (placesOf c.moves)) occ perf := by
  simp only [timedActs, Core.after, coreActs, State.upd, touched, State.unit, ha]
  rfl

/-- A timed copy begins as startTimed has it. -/
theorem startTimed_begins (ha : s.actor = .engine 2) (lk : Option (List Claim)) {use : List Act} (huse : ∀ x ∈ use, ∃ u, x = .pkg (.hbmUse u))
    (he : exec i s = resolve s (startTimed s c occ perf ev (lk.toList.map (fun x => .reg s.ctx (.hold x)) ++ use))) :
    ∃ t, exec i s = .next t ∧
      Begins s t c (timedDue s c perf (ev c.serial)) (takesTimed s (s.retouched (placesOf c.moves)) occ perf) [] 0 ∧
      (t.region s.ctx).links = lk.getD s.rr.links := by
  obtain ⟨t, ht, hcopying, hcc⟩ := resolve_copying ha c timedActs_isLocal lk huse
  rw [after_timedActs ha] at hcc
  exact ⟨t, (he.trans (congrArg (resolve s) (startTimed_eq _))).trans ht, hcopying.begins hcc rfl⟩
end

/-! ## CPT (R191) -/

section
variable {s : State} {a b : BitVec 6} {sb : BitVec 4} {g h : BitVec 1} {tg : Tag} {m : TMap}

/-- The core of a region at the far side of a copy, in its vectors; the acting core where that is device memory. -/
def Far.vidx (s : State) : Far → Nat
  | .global => s.vidx
  | .core id => id % 2048
/-- The cycle of a timed copy's perform after its start (R191). -/
def Far.perform (s : State) (n : Nat) : Far → Nat
  | .global => 1536 + beats n
  | .core id => 8 + 2 * s.rr.hops s.vidx (id % 2048) + 16 * s.rr.crossings s.vidx (id % 2048) + beats n
/-- The links on the route of a timed copy (R297). -/
def Far.legs (s : State) (h : BitVec 1) : Far → List (Nat × Nat)
  | .global => []
  | .core id => if h = 1 then s.rr.legs s.vidx (id % 2048) s.cyc else s.rr.legs (id % 2048) s.vidx s.cyc
/-- The copy of a CPT. -/
def cptCopy (s : State) (far : Far) (ms : List Mv) (sb : BitVec 4) (g h : BitVec 1) (late : Bool) : Copy :=
  copyOf s ms (if g = 1 then [(creditCore s (h = 1) far, (delivered ms).length)] else []) sb.toNat
    (decide (h = 1) && decide (s.rr.cluster (far.vidx s) ≠ s.rr.cluster s.vidx)) late
/-- The claim of its links. -/
def cptClaim (s : State) (far : Far) (ms : List Mv) (h : BitVec 1) (c : Copy) : Claim :=
  ⟨c.core, c.serial, { c.key s.rr with due := 0 }, beats (delivered ms).length, far.legs s h, false⟩

theorem planCpt_ok (hs : CopySources s a b tg) (hm : mapRead s a (h = 1) m) {far : Far} {ms : List Mv} (ht : targetOf s m = some far)
    (hms : loadOrStore s m (h = 1) far true (s.val b.toNat).toNat = .ok ms) (hb : firstBarred s ms = none) :
    let n := (delivered ms).length
    let c := cptCopy s far ms sb g h (stackPlan s (placesOf ms)).1
    planCpt a b sb g h s = startTimed s c (4 + beats n) (far.perform s n) .timedCopyPerform
      ((some (s.rr.claim (cptClaim s far ms h c))).toList.map (fun x => .reg s.ctx (.hold x)) ++ (stackPlan s (placesOf ms)).2) := by
  unfold planCpt
  rw [copyStep_ok hs, withMap_ok hm, ht]
  dsimp only
  rw [withMoves_ok hms hb]
  cases far <;> rfl

/-- CPT (R191). -/
theorem timedCopiesBegin : Claim.TimedCopiesBegin := by
  intro s a b sb g h tg m hs hm
  refine ⟨fun far ms ht hms hb => ?_, fun ht hp => ?_⟩
  · obtain ⟨t, hexec, hbegins, hlinks⟩ := startTimed_begins (i := .cpt a b sb g h) hs.actor (some (s.rr.claim _))
      (stackPlan_uses s (placesOf ms)) (congrArg (resolve s) (planCpt_ok (sb := sb) (g := g) hs hm ht hms hb))
    refine ⟨t, (stackPlan s (placesOf ms)).1, s.retouched (placesOf ms), hexec, mem_retouched s _, ⟨?_, fun hl => ?_⟩, fun hu => stackPlan_late hu _⟩
    · simp only [Bool.decide_and]
      cases far with
      | global => exact hbegins
      | core id =>
        simp only [cptCopy, creditCore, decide_eq_true_eq] at hbegins
        exact hbegins
    · exact linkLate_claim_alone hlinks hl rfl _
  · obtain ⟨t, hexec, -, hregion⟩ := exec_stops (i := .cpt a b sb g h) (f := s.fault SCOPE) hs.actor hp (congrArg (resolve s) (by
      unfold planCpt
      rw [copyStep_ok hs, withMap_ok hm, ht]; rfl))
    exact ⟨t, hexec, hregion⟩
end

/-! ## CPL (R193) -/

/-- The places of a local copy are bytes of scratchpad. -/
theorem gmKeys_wordMoves (core o d n : Nat) : gmKeys (placesOf (wordMoves core o d n)) = [] := by
  rw [gmKeys, List.filterMap_eq_nil_iff]
  intro p hp
  simp only [placesOf, wordMoves, List.mem_append, List.mem_flatten, List.mem_map, Mv.srcs, spLocs] at hp
  rcases hp with ⟨_, ⟨_, ⟨_, _, rfl⟩, rfl⟩, hmem⟩ | ⟨_, ⟨_, ⟨_, _, rfl⟩, rfl⟩, hmem⟩ <;>
    (obtain ⟨_, _, rfl⟩ := List.mem_map.mp hmem; rfl)

section
variable {s : State} {a b : BitVec 6} {l : BitVec 12} {tg : Tag} {d o : Nat}

/-- A CPL whose places are of its own scratchpad and which it may write comes to the alignment of its addresses. -/
theorem planCpl_placed (hs : CopySources s a b tg) (hd : decodeAddr s.rr s.vidx (s.val a.toNat) = .sp s.cur d false)
    (ho : decodeAddr s.rr s.vidx (s.val b.toNat) = .sp s.cur o false) (hdn : d + (l.toNat + 1) * 64 ≤ 0x50000)
    (hon : o + (l.toNat + 1) * 64 ≤ 0x50000) (hw : writeBarred s.cc s.cc.mode d ((l.toNat + 1) * 64) = false) :
    planCpl a b l s = if d % 64 ≠ 0 then s.trapAt ALIGN (s.val a.toNat).toNat else if o % 64 ≠ 0 then s.trapAt ALIGN (s.val b.toNat).toNat
      else startTimed s (copyOf s (wordMoves s.cur o d ((l.toNat + 1) * 64)) [] 0 false false) (l.toNat + 1) (8 + l.toNat + 1) .cplPerform [] := by
  have hspad : Config.spadBytes = 0x50000 := rfl
  unfold planCpl
  rw [copyStep_ok hs]
  simp only [hd, ho, hspad, Bool.false_eq_true, ne_eq, not_true_eq_false, false_or, Nat.not_lt.mpr hdn, Nat.not_lt.mpr hon, if_false, hw]
end

/-! ## CPM (R194) -/

section
variable {s : State} {a b : BitVec 6} {sb : BitVec 4} {g : BitVec 1} {tg : Tag} {m : TMap}

/-- The moves of a CPM: a window to each core, at its landing base. -/
def multicastMoves (s : State) (m : TMap) (us : List Nat) : MvRes :=
  us.foldr (fun u rest => match loadMoves s m .global true 0 (coreId s.ctx u)
      (m.loff + fld ((s.core (coreId s.ctx u)).csr 0x024).toNat 0 19) with
    | .ok x => (match rest with | .ok y => MvRes.ok (x ++ y) | z => z)
    | z => z) (.ok [])
/-- The copy of a CPM to some cores of the region. -/
def cpmCopy (s : State) (us : List Nat) (ms : List Mv) (sb : BitVec 4) (g : BitVec 1) (late : Bool) : Copy :=
  copyOf s ms (if g = 1 then us.map fun u => (coreId s.ctx u, (delivered ms).length / us.length) else []) sb.toNat false late
/-- The cores of a cluster that a CPM names, where each of them is there. -/
theorem filterMap_id_some (us : List Nat) : (us.map some).filterMap id = us ∧ (us.map some).any Option.isNone = false := by
  induction us with
  | nil => exact ⟨rfl, rfl⟩
  | cons u us ih => exact ⟨congrArg (u :: ·) ih.1, ih.2⟩

theorem planCpm_ok (hs : CopySources s a b tg) (hm : mapRead s a false m) (ht : m.target = 0) {us : List Nat} (hne : us ≠ [])
    (hlen : us.length ≤ 12)
    (hcores : ((List.range 16).filter fun k => (s.val b.toNat).getLsbD k).map (s.rr.inCluster s.vidx) = us.map some) {ms : List Mv}
    (hms : multicastMoves s m us = .ok ms) (hb : firstBarred s ms = none) :
    let n := (delivered ms).length / us.length
    planCpm a b sb g s = startTimed s (cpmCopy s us ms sb g (stackPlan s (placesOf ms)).1) (4 + beats n)
      (1536 + beats n + 8 + 2 * (us.map (s.rr.hops s.vidx)).foldl max 0) .multicastPerform (stackPlan s (placesOf ms)).2 := by
  obtain ⟨hcluster, hall⟩ := filterMap_id_some us
  have hnums := congrArg List.length hcores
  rw [List.length_map, List.length_map] at hnums
  unfold planCpm
  rw [copyStep_ok hs, withMap_ok hm]
  dsimp only
  rw [hcores, hall, hcluster, if_neg (by omega), if_neg Bool.false_ne_true]
  exact (withMoves_ok hms hb _).trans (if_neg hne)
end

/-- CPL and CPM (R193, R194). -/
theorem localAndMulticastCopiesBegin : Claim.LocalAndMulticastCopiesBegin := by
  intro s a b tg hs
  refine ⟨fun l d o hd ho hdn hon hd64 ho64 hw => ?_, fun sb g m us ms hm htarget hne hlen hcores hms hb => ?_,
    fun l d o hd ho hdn hon hd64 hw hp => ?_⟩
  · obtain ⟨t, hexec, hbegins, -⟩ := startTimed_begins (i := .cpl a b l) (use := []) hs.actor none (fun _ hx => nomatch hx)
      (congrArg (resolve s) (by rw [planCpl_placed hs hd ho hdn hon hw, if_neg (not_not.mpr hd64), if_neg (not_not.mpr ho64)]; rfl))
    refine ⟨t, hexec, ?_⟩
    rw [← retouched_of_noKeys s (gmKeys_wordMoves s.cur o d ((l.toNat + 1) * 64))]
    exact hbegins
  · obtain ⟨t, hexec, hbegins, -⟩ := startTimed_begins (i := .cpm a b sb g) hs.actor none (stackPlan_uses s (placesOf ms))
      (congrArg (resolve s) (planCpm_ok hs hm htarget hne hlen hcores hms hb))
    exact ⟨t, _, _, hexec, mem_retouched s _, hbegins, fun hu => stackPlan_late hu _⟩
  · obtain ⟨t, hexec, -, hregion⟩ := exec_stops (i := .cpl a b l) (f := { s.fault ALIGN with faddr := (s.val a.toNat).toNat }) hs.actor hp
      (congrArg (resolve s) (by rw [planCpl_placed hs hd ho hdn hon hw, if_pos hd64]; rfl))
    exact ⟨t, hexec, hregion⟩

/-! ## CPA and CPK (R195) -/

section
variable {s : State} {i : Instr} {a b : BitVec 6} {sb : BitVec 4} {g h : BitVec 1} {tg : Tag} {m : TMap}

/-- An untimed copy writes outside its cluster where it stores to a core of another one. -/
def Far.outside (s : State) (h : BitVec 1) : Far → Bool
  | .global => false
  | .core id => decide (h = 1 ∧ s.rr.cluster (id % 2048) ≠ s.rr.cluster s.vidx)
/-- The copy of a CPA or a CPK. -/
def untimedOf (s : State) (far : Far) (ms : List Mv) (st : List Loc) (sb : BitVec 4) (g h : BitVec 1) (rec_ : Option Nat) : Copy :=
  { copyOf s ms (if g = 1 then [(creditCore s (h = 1) far, (delivered ms).length)] else []) sb.toNat (far.outside s h) false with
    stampTo := st, stampVal := s.cc.copyCount + 1, nodeRec := rec_ }
/-- The updates of the acting core and the entries due as an untimed copy starts. -/
def untimedActs (s : State) (ms : List Mv) (st : List Loc) : List Act :=
  [s.upd .bumpSerial, s.upd (.copyCount (s.cc.copyCount + 1)), .pkg (.later (s.now + 1 + s.free 0 0) (.payload s.cur s.cc.serial)),
    .pkg (.takeFree 1), touched s (placesOf ms ++ st), s.stepDone 4 0 1]
theorem untimedActs_isLocal (ms : List Mv) (st : List Loc) : ∀ x ∈ untimedActs s ms st, x.isLocal s := by
  simp [untimedActs, State.upd, State.stepDone, touched, Act.isLocal]
/-- The core while CP takes an untimed copy's step. -/
def takesUntimed (s : State) (tlb : List TlbEnt) : Core :=
  let e := s.cc.eng 2
  ({ s.cc with serial := s.cc.serial + 1, copyCount := s.cc.copyCount + 1, tlb := tlb } : Core).setEng 2
    { e with freeAt := s.cyc + 4 * s.mul, due := s.cyc + 4 * s.mul, doneAt := max e.doneAt (s.cyc + 0 * s.mul), copies := e.copies + 1 }
theorem after_untimedActs (ha : s.actor = .engine 2) (ms : List Mv) (st : List Loc) :
    s.cc.after (untimedActs s ms st) = takesUntimed s (s.retouched (placesOf ms ++ st)) := by
  have hdone : s.cc.after (untimedActs s ms st) = CAct.apply
      { s.cc with serial := s.cc.serial + 1, copyCount := s.cc.copyCount + 1, tlb := s.retouched (placesOf ms ++ st) }
      (.stepDone s.unit (s.cyc + 4 * s.mul) (s.cyc + 0 * s.mul) 1) := rfl
  exact hdone.trans (apply_stepDone ha _ 4 0 1)

theorem untimedCopy_ok (hs : CopySources s a b tg) (hm : mapRead s a (h = 1) m) {far : Far} {ms : List Mv} {st : List Loc} {org : Nat}
    {rec_ : Option Nat} (ht : targetOf s m = some far) (hms : loadOrStore s m (h = 1) far false org = .ok ms) (hb : firstBarred s ms = none)
    (hst : stampLocs s (BitVec.ofNat 64 m.stampa) = .ok st) :
    untimedCopy s i a.toNat b.toNat sb.toNat (g = 1) (h = 1) org rec_ =
      .acts (.reg s.ctx (.copyPush (untimedOf s far ms st sb g h rec_)) :: untimedActs s ms st) := by
  unfold untimedCopy
  rw [copyStep_ok hs, withMap_ok hm, ht]
  dsimp only
  rw [withMoves_ok hms hb, hst]
  cases far with
  | global => simp only [Bool.and_false, decide_eq_true_eq]; rfl
  | core id => simp only [Far.outside, untimedOf, Bool.decide_and, decide_eq_true_eq]; rfl
end

/-- CPA and CPK (R195). -/
theorem untimedCopiesBegin : Claim.UntimedCopiesBegin := by
  intro s a b sb g h tg i org rec_ m far ms st hi hs hm ht hms hb hst
  have hexec : exec i s = resolve s (untimedCopy s i a.toNat b.toNat sb.toNat (g = 1) (h = 1) org rec_) := by
    rcases hi with ⟨rfl, rfl, rfl⟩ | ⟨rfl, rfl, rfl⟩ <;> rfl
  obtain ⟨t, hnext, hcopying, hcc⟩ := resolve_copying hs.actor (untimedOf s far ms st sb g h rec_) (untimedActs_isLocal ms st) none
    (use := []) (fun _ hx => nomatch hx)
  rw [after_untimedActs hs.actor] at hcc
  obtain ⟨hbegins, -⟩ := hcopying.begins hcc rfl
  refine ⟨t, s.retouched (placesOf ms ++ st), (hexec.trans (congrArg (resolve s) (untimedCopy_ok hs hm ht hms hb hst))).trans hnext, ?_, mem_retouched s _⟩
  cases far with
  | global => exact hbegins
  | core id =>
    simp only [untimedOf, creditCore, decide_eq_true_eq] at hbegins
    exact hbegins

/-- Settles O32: each word puts one copy in flight and takes CP's step, as resolve_copying has it; a copy alone fills no stack and waits for
no link. -/
theorem copiesBegin : Obligations.CopiesBegin := ⟨timedCopiesBegin, localAndMulticastCopiesBegin, untimedCopiesBegin⟩

end Sys2Proof.Machine
end

section
/-! SUPPORT. What a copy leaves due as it performs (R191, R196, R298, R302). -/

namespace Sys2Proof.Machine

open Sys2Proof.Claim hiding fits

/-- A timed copy of one byte that its stack has made late (R298). -/
def lateCopy : Copy :=
  { serial := 9, core := 2048, seq := 1, since := 0, outside := false, paid := false, readsS := false, moves := []
    vals := [⟨spLocs 2048 7 1, 0, 8, 0xA5, false, 0⟩], credits := [], sb := 0, stampTo := [], stampVal := 0, pages := [], nodeRec := none
    late := true, timed := true }
/-- It is in flight in a running region that has recorded no fault and has nothing else due, and performs now. -/
def lateInFlight : State :=
  { State.reset with
    cores := [(2048, {})]
    regions := [(1, { phase := .run, ctx := 1, copies := [lateCopy] })]
    cur := 2048
    actor := .engine 2 }

/-- Its fault is the region's first, and so the freeze falls due after the tree's delay. -/
theorem exec_lateInFlight : ∃ t, exec (.timedCopyPerform 9) lateInFlight = .next t ∧
    (t.region lateInFlight.ctx).agenda = [({ due := Config.treeDelay, phase := 3 }, .ev 2048 .control .freeze)] :=
  ⟨_, rfl, by decide +kernel⟩

/-- Refutes O34: the last clause of TimedCopiesCredit keeps the region's agenda whole as a late copy raises SCHED. A region's first fault
starts its freeze, which is due in that agenda (R302), as at lateInFlight. -/
theorem not_copiesPerform : ¬ Obligations.CopiesPerform := by
  rintro ⟨-, hcredit, -⟩
  obtain ⟨-, hlate⟩ := hcredit lateInFlight (.timedCopyPerform 9) 9 lateCopy (.inl rfl) (by decide)
  obtain ⟨t, ht, hstated⟩ := hlate (.inl rfl)
  obtain ⟨u, hu, hfreeze⟩ := exec_lateInFlight
  rw [Host.Outcome.next.inj (ht.symm.trans hu), hfreeze] at hstated
  exact absurd hstated (by decide)

end Sys2Proof.Machine
end
